-- ==== Sys2Proof/Word.lean ====
section
/-!
DEFINITION. The word types of the model.
-/

namespace Sys2Proof

/-- A byte. -/
abbrev Byte := BitVec 8

/-- A 32-bit word: a state-file word, a parameter value, a result word. -/
abbrev Word := BitVec 32

/-- An IEEE 754 binary32 value by its bits (00 R6). -/
abbrev F32 := BitVec 32

end Sys2Proof
end

