-- ==== Sys2Proof/Syntax.lean ====
section
/-!
DEFINITION. The commands of the CL7502: one constructor per row of the table of operations and events, with the
values the command carries (a request's fields, or what the hardware senses when the event comes).
-/

namespace Sys2Proof

/-- The two axes (01 R12). -/
inductive Axis where | a | b
deriving DecidableEq, Repr

/-- The six legs of an axis: phase letter and leg number (01 R12). -/
inductive Leg where | u1 | u2 | v1 | v2 | w1 | w2
deriving DecidableEq, Repr

/-- The wake sources of 03 Table 3.8, in the bit order of WAKE_SRC. -/
inductive WakeSource where | wakePad | csN | vmReturn
deriving DecidableEq, Repr

/-- How the gate probe at plug qualification ends (03 R47, Table 3.3a). -/
inductive ProbeResult where
  | mosfetPair   -- rises at the rate of a gate charge and reaches 3 V within 100 µs
  | strap        -- stays below 1.0 V
  | nothing      -- reaches 3 V within 5 µs without a gate charge
deriving DecidableEq, Repr

/-- The two supply outputs (03 R43). -/
inductive SupplyOut where | v5 | v3
deriving DecidableEq, Repr

/-- The digital Scarp sources 24 to 31 (05 Table 5.4). -/
inductive DigitalSource where
  | bootUv (x : Axis)     -- 24, 25: bootstrap undervoltage, any leg of the axis
  | vgdUv                 -- 26: VGD undervoltage with both STO inputs high
  | junction (x : Axis)   -- 27, 28: junction hard trip
  | powerFail             -- 29
  | software (x : Axis)   -- 30, 31
deriving DecidableEq, Repr

/-- A memory error an engine may meet in a chain (07 R169). -/
inductive EccEvent where | none | corrected | uncorrectable (addr : BitVec 16)
deriving DecidableEq, Repr

/-- What the hardware senses at a period boundary: the phase error of the boundary against gPTP time (05 R99, R100)
and the memory error, if any, that the chain started at this boundary meets (07 R169). -/
structure BoundarySense where
  ecc : EccEvent := .none
deriving DecidableEq, Repr

/-- The two Ridge engines (07). -/
inductive Engine where | rga | rgb
deriving DecidableEq, Repr

/-- One set of land voltages of a measurement (10 R223): hold instant in ns, and the VLAND codes of phases U, V and W. -/
structure LandSample where
  t : Nat
  u : BitVec 16
  v : BitVec 16
  w : BitVec 16
deriving DecidableEq, Repr

/-- Compare unit or capture input 0 or 1 of an axis (11 R259, R261). -/
inductive CmpUnit where | u0 | u1
deriving DecidableEq, Repr

/-- Contents of one table bank of an engine (07 R156, R161, R163). Cairn's choice of words is not in the spec: the
words come with the command that compiled them. -/
structure BankImage where
  /-- Op words from address 0 (R156). -/
  ops : List (BitVec 64) := []
  /-- Directory entries (R156, Table 7.4). -/
  dir : List (BitVec 64) := []
  /-- The CRC-32 Thoevo arms the bank with (R161). -/
  crc : BitVec 32 := 0
  /-- The bank hosts axis A. -/
  hostA : Bool := false
  /-- The bank hosts axis B. -/
  hostB : Bool := false
  /-- Init list of the axes: axis B?, state address and value (R163). -/
  init : List (Bool × Nat × BitVec 32) := []
deriving DecidableEq, Repr

/-- What Cairn's table builder produced for a compile or a re-placement. The spec fixes the rules these must meet and
not the words themselves, so they come with the command: the two bank images with Cairn's own init entries, the conversion
tables of the converters (converter, table, header word, entry words), and the periods of the two conversion timers in ns. -/
structure CairnOut where
  imgA : BankImage := {}
  imgB : BankImage := {}
  tables : List (Nat × Nat × BitVec 32 × List (BitVec 32)) := []
  timers : Nat × Nat := (0, 0)
deriving DecidableEq, Repr

/-- Re-placement triggers (14 Table 14.5). -/
inductive Trigger where
  | converterOut (cv : Fin 12)   -- marked suspect or taken for calibration
  | converterBack (cv : Fin 12)
  | legBypassed (x : Axis) (l : Leg)
  | engineTest (e : Engine)
  | engineFailed (e : Engine)
  | dieLimit
  | dieReleased
  | flashLost
deriving DecidableEq, Repr

/-- Why a stream record could not be written (14 Table 14.5). -/
inductive RecordFate where | written | full | late
deriving DecidableEq, Repr

/-- The PLLs and DLLs with lock detectors, in the order of the detail of 0x5002 (15 Table 15.2). -/
inductive Pll where | pll0 | pll1 | pll2 | dllA | dllB
deriving DecidableEq, Repr

/-- Col cells the model names in 0x2003 (15 R320): the two heartbeat cells and the pulse counters of the encoders. -/
inductive ColCell where | heartbeatA | heartbeatB | encA | encB
deriving DecidableEq, Repr

/-- Clock islands that may be gated or unpowered (15 R323, Table 15.3). -/
inductive Island where | sys | rga | rgb | cva | cvb | net | enc | gda | gdb | xsp
deriving DecidableEq, Repr

/-- How a host-port frame ended on the wire (16 R328, R331, R342, R343). -/
inductive FrameEnd where
  | complete      -- HSP_CS_N rose on a byte boundary of the data phase
  | cutHead       -- HSP_CS_N rose in the command or address phase
  | cut           -- HSP_CS_N rose in the dummy phase or inside a data byte
  | merged        -- a deselect too short to be seen merged two frames
deriving DecidableEq, Repr

/-- A host-port frame as clocked: the command byte, the address and length fields as sent, the bytes the host sent
in the data phase of a write or the number of whole bytes it clocked in a read, how the frame ended, and whether the
fetch of the previous answer had completed at its start (16 R342). -/
structure HspFrame where
  cmd : BitVec 8
  addr : BitVec 16
  len : BitVec 16
  data : List (BitVec 8) := []
  clocked : Nat := 0
  how : FrameEnd := .complete
  fetched : Bool := true
deriving DecidableEq, Repr

/-- A sender on the backbone: source MAC, or source IPv4 address and UDP port (18 R383). -/
structure NetSource where
  mac : BitVec 48 := 0
  ip : BitVec 32 := 0
  udp : BitVec 16 := 0
deriving DecidableEq, Repr

/-- The mailbox transports: the host port, and each sender on the backbone (17, 18 R383). -/
inductive Transport where | host | backbone (src : NetSource)
deriving DecidableEq, Repr

/-- The header fields of a mailbox request a command row carries (17 Table 17.1). The CRC field identifies a repeat
(R350); a request with a wrong CRC reaches the drive only as bytes. `bad` is the first payload byte that breaks the layout of
its row, by the length or by a reserved byte; none for a payload that keeps it (R360). -/
structure Hdr where
  tr : Transport := .host
  session : BitVec 8 := 0
  tag : BitVec 8 := 0
  crc : BitVec 16 := 0
  bad : Option Nat := none
deriving DecidableEq, Repr

/-- The three roles (17 R349, 20 R423). -/
inductive Role where | operator | installer | maker
deriving DecidableEq, Repr

/-- A setpoint command's payload (17 Table 17.5). -/
structure SpWords where
  axis : BitVec 8
  kind : BitVec 8
  w0 : BitVec 32
  w1 : BitVec 32
  w2 : BitVec 32
  w3 : BitVec 32
deriving DecidableEq, Repr

/-- Result of calibrating one converter as measured (06 R139, R140): core offset LSB, core gain, shunt offset A,
shunt gain, and the span of the shunt offset samples in A; gains as fractions. -/
structure CalMeasure where
  coreOfs : F32
  coreGain : F32
  shuntOfs : F32
  shuntGain : F32
  span : F32
deriving DecidableEq, Repr

/-- What a leg test measured (21 R437): pulse current in mA, both edges seen, shunt offset in mA, bootstrap supply in
mV, and whether the leg's comparator passed. -/
structure LegMeasure where
  pulseMa : Nat
  edges : Bool
  offsetMa : Int
  bootMv : Nat
  cmpOk : Bool
deriving DecidableEq, Repr

/-- Verification of one firmware image (20 R420, 21 R433): whether size and digest fit, the signature verifies over
the key carried, that key's digest, the slot named (0 to 3 M0 to M3, 4 and 5 I0, I1), version and size. The spec
leaves the image format out: the parsed facts come with the command. -/
structure ImageFacts where
  sizeOk : Bool
  digestOk : Bool
  signatureOk : Bool
  keyDigest : BitVec 256
  slot : BitVec 8
  version : BitVec 24
  size : BitVec 32
deriving DecidableEq, Repr

/-- How burning one OTP row went on the array (20 R415, R416): the row agrees after the burn; how many further
pulses it took (maker class); and the same for the spare row and the redirection entry, should it be BAD. -/
structure BurnSense where
  agrees : Bool
  repulsed : Bool
  spareAgrees : Bool
  tempOk : Bool
deriving DecidableEq, Repr

/-- State of one OTP row at sensing (20 R410). -/
inductive RowState where | good | weak | redirected | bad
deriving DecidableEq, Repr

/-- What a boot finds (21 R432, R433, 20 R410, R427): the external reference, the core and SRAM test, the rows and
spares that do not sense GOOD, the images of the two slots, the engine test signatures, the converters beyond their
CHK limits, the MRAM units failing their tag (area, unit), the SEQ of log records failing theirs, which comparators fail and which
other first-READY tests pass, the flash as discovered, and the time the boot took in ms. -/
structure BootFacts where
  xtal : Bool
  coreOk : Bool
  rows : List (Nat × RowState) := []
  imageA : Option ImageFacts
  imageB : Option ImageFacts
  sigA : BitVec 32
  sigB : BitVec 32
  chkBad : BitVec 12
  lostUnits : List (Nat × Nat) := []
  logLost : List Nat := []
  cmpFail : BitVec 24
  chopSeen : Bool
  bootMs : F32
deriving DecidableEq, Repr

/-- What flash discovery finds (19 R397, R398): no flash with a reason 1 to 4, or the JEDEC ID, the capacity in
bytes, the lanes of the modes that pass their check, the SFDP maximum clock of that mode in kHz, the typical page
program and 64 KiB erase times in µs and the page size. -/
inductive FlashFind where
  | none (reason : BitVec 3)
  | found (id : BitVec 32) (capacity : Nat) (modes : List Nat) (maxKhz : Nat) (ppUs beUs page : Nat)
deriving DecidableEq, Repr

/-- Ports of the switch outside the drive (18 Table 18.1). -/
inductive Port where | rmii1 | rmii2 | t1s
deriving DecidableEq, Repr

/-- An Ethernet frame as the switch sees it (18 R364, R365, R369): ingress port (none: the host port), destination
and source MAC, PCP of its tag if any, length, FCS good, whether it is a gPTP PDU, and the egress ports whose
queue is full. -/
structure EthFrame where
  from? : Option Port
  dst : BitVec 48
  src : BitVec 48
  pcp : Option (BitVec 3)
  bytes : Nat
  fcsOk : Bool
  gptp : Bool
  fullPorts : List Port := []
  hostFull : Bool := false
deriving DecidableEq, Repr

/-- A Traverse frame's source and way in (18 R376, R378, R383): source MAC, IPv4 address and UDP port (0 for raw),
ingress port, frame bytes from VERSION on. -/
structure TvFrame where
  src : NetSource
  port : Port
  bytes : List (BitVec 8)
deriving DecidableEq, Repr

/-- A CANopen NMT command (18 R388). -/
inductive NmtCommand where | start | stop | preOperational | resetNode | resetComm
deriving DecidableEq, Repr

/-- An SDO request as one whole transfer (18 R393): write or read, object, sub-index, data size and data. -/
structure SdoReq where
  write : Bool
  index : BitVec 16
  sub : BitVec 8
  size : Nat := 0
  data : BitVec 32 := 0
deriving DecidableEq, Repr

/-- Whom an announce or a BMCA decision names (18 R372): the port that becomes slave, none when the drive is the best
clock itself. -/
abbrev SlavePort := Option Port
/-- PHY status read over MDIO (18 R366): link, 100 Mb/s, full duplex. -/
structure PhyStatus where
  link : Bool
  rate100 : Bool
  full : Bool
deriving DecidableEq, Repr

/-- The messages the drive's own gPTP instance sends (18 R372). -/
inductive GptpKind where | sync | announce | pdelay
deriving DecidableEq, Repr

/-- What the hardware answers to a request that arrives as bytes, for the rows whose typed form carries it: the leg
measurement, the comparators that fail a test, whether CMP17 was seen in a chopper test, the code of a one-shot
conversion, the value of an MDIO read, the intact frames of a port test, and the flash a compile discovers. -/
structure ReqFacts where
  leg : LegMeasure := ⟨0, true, 0, 6000, true⟩
  cmpFails : BitVec 24 := 0
  chopSeen : Bool := true
  code : BitVec 16 := 0
  mdio : BitVec 16 := 0
  intact : Nat := 16
  flash : FlashFind := .none 1
deriving DecidableEq, Repr


/-- The commands. -/
inductive Instr where
  /-- SUMMIT_START (R39). The higher of input and VM rises through 12 V and Summit's HV micro-regulator starts. -/
  | summitStart (inMv vmMv : Nat)
  /-- SUMMIT_RESET (R39). The higher of input and VM falls below 6 V; Summit resets and the drive enters OFF. -/
  | summitReset (inMv vmMv : Nat)
  /-- PLUG_WINDOW_ENTRY (R44). The input enters the plug window and the plug debounce starts. -/
  | plugWindowEntry (inMv : Nat)
  /-- PLUG_DEBOUNCE_EXPIRY (R44). HSW_PLUG_DEB elapses with the input inside the window; the gate probe runs, then the gate ramp and the SOA timer start. -/
  | plugDebounceExpiry (probe : ProbeResult) (inMv vmMv : Nat)
  /-- PLUG_WINDOW_EXIT (R45). The input leaves the plug window during debounce or ramp; HSW_G turns off and WARN 0x2104 is raised on an exit above 75 V. -/
  | plugWindowExit (inMv : Nat)
  /-- POWER_GOOD (R44). VM reaches input minus 1 V; the SOA timer stops, HSW_G is driven fully on, the buck starts and the boot begins. -/
  | powerGood (inMv vmMv : Nat)
  /-- HSW_SOA_TIMEOUT (R45). The SOA timer reaches HSW_SOA_TIME before power good; the attempt ends with WARN 0x2105, or STOP 0x4106 after the last retry. -/
  | hswSoaTimeout
  /-- HSW_RAMP_FAST_TRIP (R45). The sense voltage reaches twice HSW_CB_THR during the ramp and the attempt ends within 2 µs. -/
  | hswRampFastTrip (senseUv : Nat)
  /-- HSW_RETRY_DELAY_EXPIRY (R45). HSW_RETRY_DELAY elapses after a failed attempt and a new attempt with a new debounce begins. -/
  | hswRetryDelayExpiry
  /-- HSW_CB_TRIP (R46). The sense voltage stays above HSW_CB_THR for HSW_CB_TIME after power good; TRIP 0x5107 is raised and the power-fail sequence follows. -/
  | hswCbTrip (senseUv : Nat)
  /-- HSW_CB_FAST_TRIP (R46). The sense voltage exceeds twice HSW_CB_THR after power good; the MOSFETs turn off within 2 µs and the power-fail sequence follows. -/
  | hswCbFastTrip (senseUv : Nat)
  /-- POWER_FAIL (R48). The input falls below VM_PF; gates, brakes and outputs turn off, TRIP 0x5103 is raised and the MRAM commit starts. -/
  | powerFail (inMv : Nat)
  /-- POWER_FAIL_COMMIT_DONE (R48). The power-fail commit completes, COMMIT_OK is recorded and every domain except PD_SUM powers off into STANDBY. -/
  | powerFailCommitDone (complete : Bool)
  /-- VM_LOW_TIMEOUT (R40). VM stays below 36 V for 1 ms and WARN 0x2102 is raised. -/
  | vmLowTimeout (vmMv : Nat)
  /-- VM_UV_RECOVERY_TIMEOUT (R41). VM stays above VM_UV plus VM_UV_HYST for 10 ms and TRIP 0x5101 becomes clearable. -/
  | vmUvRecoveryTimeout (vmMv : Nat)
  /-- OUTPUT_OVERLOAD_TIMEOUT (R43). V5_OUT or V3_OUT stays in current limit for 10 ms, switches off and raises WARN 0x2108 or 0x2109. -/
  | outputOverloadTimeout (out : SupplyOut)
  /-- WAKE_PAD_EDGE (R55). A filtered rising WAKE edge wakes the drive from STANDBY or moves HOLD to READY. -/
  | wakePadEdge (stableNs : Nat)
  /-- HSP_CS_N_WAKE (R55). A filtered falling HSP_CS_N edge in STANDBY wakes the drive; the waking frame is not served. -/
  | hspCsNWake (stableNs : Nat)
  /-- VM_RETURN_WAKE (R56). The input re-qualifies after falling below VM_PF since a power fail; the MOSFETs reconnect and the boot starts. -/
  | vmReturnWake (inMv : Nat)
  /-- RESET_N_ASSERT (R430). RESET_N is held low past RESET_FILT; the gates turn off, the latches clear and the drive reboots with source 2. -/
  | resetNAssert (stableNs : Nat)
  /-- WATCHDOG_EXPIRY (R431). The Summit watchdog is not served within 100 ms and Summit resets the drive, waiting for the gates to go off if an axis switches. -/
  | watchdogExpiry
  /-- BOOT_COMPLETE (R432). The boot sequence ends; FAULT_N is released, BOOT_DONE is set and the drive enters the state R54 selects. -/
  | bootComplete (b : BootFacts) (flash : FlashFind)
  /-- SLOT_BACKGROUND_VERIFY_DONE (R433). Background verification of the firmware slot that did not boot completes and FW_INFO reports the result. -/
  | slotBackgroundVerifyDone (image : Option ImageFacts)
  /-- STO_REMOVE (R84). An STO input stays low for the qualifying 1 ms; gate supply is removed, SAFE is set and STO_ACTIVE is raised. -/
  | stoRemove (sto1Low sto2Low : Bool) (lowUs : Nat)
  /-- STO_RESTORE (R57). Both STO inputs stay high for 1 ms with gate supply back and the SAFE overlay clears. -/
  | stoRestore (highUs : Nat) (supplyBack : Bool)
  /-- STO_DISCREPANCY_TIMEOUT (R86). The two filtered STO inputs differ for longer than STO_DISC_TIME and STOP 0x4207 is raised with drive scope. -/
  | stoDiscrepancyTimeout (sto1 sto2 : Bool)
  /-- PERIOD_BOUNDARY (R157). At an axis period boundary the sequencer samples its flags, selects the mode and starts the chain of that period. -/
  | periodBoundary (x : Axis) (sense : BoundarySense)
  /-- CHAIN_END (R168). A chain ends; its duty set crosses toward the PWM domain and RG_CYC_MAX is updated. -/
  | chainEnd (x : Axis) (cycles : Nat)
  /-- COMMIT_POINT (R22). At a commit point the timebase commits the latest whole duty set that has crossed, or counts DUTY_LATE. -/
  | commitPoint (x : Axis) (peak : Bool)
  /-- BOOT_REFRESH_PULSE (R68). A high-side switch held on for 100 µs gets a 60 ns low-side refresh pulse at the next valley and BOOT_REFRESH increments. -/
  | bootRefreshPulse (x : Axis) (l : Leg)
  /-- SWITCH_NODE_EDGE (R71). A switch-node crossing is timestamped, classed soft or hard, and the leg's dead-time for that edge kind is updated. -/
  | switchNodeEdge (x : Axis) (l : Leg) (rising soft : Bool) (instant sinceGateOff : Nat)
  /-- EDGE_MISSING (R73). No crossing is seen within DT_MAX plus 100 ns of a commanded transition; EDGE_MISS increments and WARN 0x2202 follows after 16 in a row. -/
  | edgeMissing (x : Axis) (l : Leg) (rising : Bool) (commanded : Nat)
  /-- NL_HOLDOVER_EXPIRY (R99). NL_HOLDOVER elapses in HOLDOVER; the lock moves to WAIT and WARN 0x2303 is raised. -/
  | nlHoldoverExpiry (x : Axis)
  /-- SCARP_TRIP (R110). A comparator crosses its threshold outside blanking; its latch sets and the affected gates are off within 150 ns. -/
  | scarpTrip (cmp : Fin 24) (stays : Bool) (tick : Nat)
  /-- SCARP_DIGITAL_TRIP (R110). A digital Scarp source asserts and the named gates are off within 110 ns. -/
  | scarpDigitalTrip (src : DigitalSource) (l : Leg) (stays : Bool) (tick : Nat)
  /-- BLANK_WINDOW_CLOSE (R108). A blanking window closes with its comparator still active and the comparator trips 20 ns later. -/
  | blankWindowClose (cmp : Fin 24) (crossed active : Bool) (tick : Nat)
  /-- CMP_SELFTEST_TICK (R114). CMP_TEST_PERIOD elapses and the next comparator is tested by driving its DAC to the opposite end for 30 ns. -/
  | cmpSelftestTick (activeDuring inactiveAfter : Bool)
  /-- LEG_AUTO_BYPASS (R80). Thoevo identifies the tripped leg, runs the pulse test and places the derated tables, then the flying start follows. -/
  | legAutoBypass (x : Axis) (pulseMa : Nat)
  /-- LEG_BYPASS_RAMP_END (R81). LEG_BYPASS_RAMP ends; at the next boundary the leg's gates are held off and the derated placement takes effect. -/
  | legBypassRampEnd (x : Axis)
  /-- LEG_IMB_BLOCK_END (R64). A 100 ms block ends and the mean leg-current difference is compared with LEG_IMB_WARN. -/
  | legImbBlockEnd (x : Axis)
  /-- RATING_UPDATE_TICK (R76). Once per millisecond I_cont and I_peak are recomputed for each axis. -/
  | ratingUpdateTick
  /-- HB_PULL_EXPIRY (R88). HB_PULL_TIME elapses and the brake output moves to hold duty. -/
  | hbPullExpiry (x : Axis)
  /-- HB_OVERCURRENT (R88). Brake current exceeds its limit and the output switches off with STOP 0x4208. -/
  | hbOvercurrent (x : Axis) (currentMa us : Nat)
  /-- HB_OPEN_TIMEOUT (R88). Brake current stays below HB_OPEN_THR for 10 ms in hold and WARN 0x2203 is raised. -/
  | hbOpenTimeout (x : Axis) (currentMa : Nat)
  /-- HB_RELEASE_EXPIRY (R89). HB_RELEASE_T elapses after the brake release starts and setpoints are accepted. -/
  | hbReleaseExpiry (x : Axis)
  /-- HB_TRIP_HOLD_EXPIRY (R89). 5 ms after a trip with no automatic bypass placed, the brake output switches off. -/
  | hbTripHoldExpiry (x : Axis)
  /-- TABLE_TRIGGER (R127). A trigger reaches a conversion table; its run count increments, or the trigger is dropped and counted in TRIG_OVR. -/
  | tableTrigger (cv : Fin 12) (tbl : Fin 4)
  /-- PROFILE_SAMPLE (R122). All legs of an axis take a ripple profile point at the same tick. -/
  | profileSample (x : Axis) (n : Fin 16) (codes : List (BitVec 16))
  /-- CONVERSION_RESULT (R117). A conversion result is registered with its flags and passed to its consumers. -/
  | conversionResult (cv : Fin 12) (chan : Fin 10) (code : BitVec 16) (degC : F32) (t : Nat)
  /-- URGENT_REQUEST (R129). An urgent conversion enters a converter's slot and takes its hold, aborting a regular conversion if needed. -/
  | urgentRequest (cv : Fin 12) (chan : Fin 10)
  /-- ARBITRATION_DECISION (R133). The CHK conversions of both converters are compared with their expectations and none, one or both are marked suspect. -/
  | arbitrationDecision (pair : Fin 6) (chan : Fin 9) (lowK highK lowP highP : BitVec 16)
  /-- VM_XCHK_TIMEOUT (R135). VM_A and VM_B differ by more than VM_XCHK for 1 ms and WARN 0x2405 is raised. -/
  | vmXchkTimeout (vmAMv vmBMv : Nat)
  /-- REF_OK_TIMEOUT (R138). REF_OK has not set 10 ms after a reference change and WARN 0x2406 is raised. -/
  | refOkTimeout (x : Axis)
  /-- OPEN_WIRE_TEST_START (R142). The open-wire schedule starts the test of the next declared input by switching its pull current on. -/
  | openWireTestStart
  /-- OPEN_WIRE_SETTLE_EXPIRY (R143). OW_SETTLE elapses; an urgent conversion is taken, currents change, and at the end the input is judged open or closed. -/
  | openWireSettleExpiry (mv : Int)
  /-- HEARTBEAT_WRITE (R17). Thoevo writes a heartbeat to both Traverse sequencers as an event count. -/
  | heartbeatWrite
  /-- HEARTBEAT_TIMEOUT (R17). A sequencer sees its heartbeat count unchanged for 1 ms, sets HB_LOSS and stops its axes under the fault segment. -/
  | heartbeatTimeout (e : Engine)
  /-- BANK_ARM_CHECK (R161). The sequencer checks an armed bank within 100 µs and accepts it or refuses it with RG_BANK_BAD. -/
  | bankArmCheck (e : Engine)
  /-- HANDOVER_COPY_DONE (R164). The axis block copy to the destination engine completes and the axis's first chain there may run. -/
  | handoverCopyDone (x : Axis)
  /-- RG_SELFTEST_TICK (R170). RG_TEST_PERIOD elapses; the axes are handed over and the engine under test runs its test bank. -/
  | rgSelftestTick
  /-- RG_TEST_DONE (R170). The engine test signature is compared; on a pass the placement is restored, on a fail the engine is marked failed. -/
  | rgTestDone (e : Engine) (signature : BitVec 32)
  /-- SP_MBX_TIMEOUT (R191). No mailbox setpoint arrives for SP_MBX_TIMEOUT and STOP 0x4605 is raised. -/
  | spMbxTimeout (x : Axis)
  /-- FW_EXHAUSTED_TIMEOUT (R181). Field weakening stays at its limit for 100 ms; LIMIT 0x3604 is raised and the speed target is bounded. -/
  | fwExhaustedTimeout (x : Axis)
  /-- OVERSPEED_TIMEOUT (R189). The reported speed exceeds OVERSPEED at every speed part for 1 ms and STOP 0x4607 is raised. -/
  | overspeedTimeout (x : Axis)
  /-- PWM_CMD_PERIOD (R195). A PWM_CMD input period completes and its duty is measured, or the period is judged invalid. -/
  | pwmCmdPeriod (periodNs highNs : Nat)
  /-- PWM_CMD_TIMEOUT (R196). No PWM_CMD edge arrives for PWM_CMD_TIMEOUT and the curve treats it as an input fault. -/
  | pwmCmdTimeout
  /-- CURVE_FILTER_VALID (R196). 5 × CURVE_FILT after the first input result in READY the filtered curve value becomes valid. -/
  | curveFilterValid (x : Axis)
  /-- CURVE_CROSSING (R196). The filtered input crosses CURVE_ON or CURVE_OFF and the curve turns on or off, enabling or disabling the axis with CURVE_AUTO = 1. -/
  | curveCrossing (x : Axis) (value : F32)
  /-- CREST_CONVERGED (R209). The convergence conditions hold for CREST_CONV_T and CREST_CONV sets. -/
  | crestConverged (x : Axis)
  /-- CREST_LOSS (R210). The loss conditions hold for CREST_LOSS_T; CREST_CONV clears and STOP 0x4701 is raised in RUN with CREST_MODE = 1. -/
  | crestLoss (x : Axis)
  /-- CREST_CLAMP_TIMEOUT (R212). A resistance or flux estimate stays at its clamp for 1 s and WARN 0x2702 or 0x2703 is raised. -/
  | crestClampTimeout (x : Axis) (flux : Bool)
  /-- CREST_XCHK_TIMEOUT (R216). The cross-check angle difference exceeds CREST_XCHK_ANG for CREST_XCHK_T; STOP 0x4703 or WARN 0x2704 follows. -/
  | crestXchkTimeout (x : Axis)
  /-- REST_READ_END (R207). CREST_READ_T elapses and θ̂ is set to the d-axis from the fit. -/
  | restReadEnd (x : Axis)
  /-- POLARITY_TEST_END (R208). The four-step polarity test ends; θ̂ is kept, advanced by π, or the test is inconclusive. -/
  | polarityTestEnd (x : Axis)
  /-- MEASURE_END (R223). The back-EMF measurement window ends and the outcome of Table 10.2 selects the start path. -/
  | measureEnd (x : Axis) (m : List LandSample)
  /-- BLOCKED_WAIT_REPEAT (R224). FS_MEAS_T plus 1 ms elapses in BLOCKED_WAIT and the measurement is repeated. -/
  | blockedWaitRepeat (x : Axis) (m : List LandSample)
  /-- FS_CATCH_TIMEOUT (R224). FS_CATCH_TIMEOUT passes in BLOCKED_WAIT; STOP 0x4801 is raised and the axis returns to DISABLED. -/
  | fsCatchTimeout (x : Axis)
  /-- ST_TIMEOUT (R231). Convergence has not come within ST_TIMEOUT and the start attempt fails with reason 1. -/
  | stTimeout (x : Axis)
  /-- ST_RETRY_DELAY_EXPIRY (R231). ST_RETRY_DELAY elapses and the next attempt begins at MEASURE with scaled currents. -/
  | stRetryDelayExpiry (x : Axis)
  /-- ALIGN_PHASE2 (R228). Two thirds of ST_ALIGN_T elapse and the current angle steps by 90 °e at full current. -/
  | alignPhase2 (x : Axis)
  /-- ALIGN_END (R229). The alignment ends at t_a and the ramp starts in the start direction. -/
  | alignEnd (x : Axis)
  /-- START_IDLE_TIMEOUT (R229). The target is still zero at t1 + ST_ALIGN_T + ST_TIMEOUT; gates go off with INFO 0x1805. -/
  | startIdleTimeout (x : Axis)
  /-- RAMP_HANDOFF (R229). The handoff speed is reached with CREST_CONV set and Crest takes over bumplessly. -/
  | rampHandoff (x : Axis)
  /-- MERGE_END (R229). ST_MERGE_T elapses and the d and q references are those of the loops. -/
  | mergeEnd (x : Axis)
  /-- RAMP_STALL (R230). Crest's speed differs from the ramp speed by more than 30 % for 20 ms and the attempt fails with reason 2. -/
  | rampStall (x : Axis)
  /-- STANDSTILL_REACHED (R236). A ramp or quick stop reaches standstill; the brake output switches off and the axis holds position. -/
  | standstillReached (x : Axis)
  /-- HB_ENGAGE_EXPIRY (R236). HB_ENGAGE_T elapses after standstill; gates go off and the axis enters DISABLED. -/
  | hbEngageExpiry (x : Axis)
  /-- STOP_TMAX_EXPIRY (R235). A ramp or quick stop is not at standstill within STOP_TMAX and becomes a coast with WARN 0x2807. -/
  | stopTmaxExpiry (x : Axis)
  /-- STALL_TIMEOUT (R237). The stall conditions hold for STALL_T in RUN and STOP 0x4803 is raised. -/
  | stallTimeout (x : Axis)
  /-- QUAD_COUNT (R244). A change of the sampled A and B pair counts up or down, or counts QERR when both changed. -/
  | quadCount (x : Axis) (a b : Bool) (t stableNs : Nat)
  /-- Z_EDGE (R246). A qualified Z edge references the count, or is checked against FB_Z_TOL. -/
  | zEdge (x : Axis) (rising : Bool) (t stableNs : Nat)
  /-- HALL_EDGE (R248). A Hall state change between adjacent sectors sets or checks the angle offset. -/
  | hallEdge (x : Axis) (h : BitVec 3) (t stableNs : Nat)
  /-- HALL_ILLEGAL_TIMEOUT (R247). An illegal Hall state persists for 1 ms and STOP 0x4911 is raised. -/
  | hallIllegalTimeout (x : Axis)
  /-- SINCOS_SAMPLE_EVENT (R249). At t_b + FB_SC_DELAY sin and cos are sampled, the quarter count is latched and the position is computed. -/
  | sincosSampleEvent (x : Axis) (sin cos : BitVec 16) (quarter : Int)
  /-- SERIAL_FRAME_REQUEST (R251). A serial encoder frame is requested and clocked at FB_SER_RATE. -/
  | serialFrameRequest (x : Axis) (datHigh : Bool)
  /-- SERIAL_FRAME_END (R253). A serial frame completes and is decoded, or judged bad and counted in SER_ERR. -/
  | serialFrameEnd (x : Axis) (started : Bool) (bits : List Bool) (t : Nat)
  /-- FB_STANDSTILL_TIMEOUT (R256). No qualified edge for FB_STANDSTILL_T sets STANDSTILL and holds the reported speed at zero. -/
  | fbStandstillTimeout (x : Axis)
  /-- COMPARE_HIT (R259). The position crosses the compare value; the output pulses, V advances and CMP_HITS increments. -/
  | compareHit (x : Axis) (u : CmpUnit) (t : Nat)
  /-- CAPTURE_EDGE (R261). A capture input edge latches its time and position into the FIFO, or drops with CAP_OVR. -/
  | captureEdge (x : Axis) (inp : CmpUnit) (rising : Bool) (t stableNs : Nat)
  /-- CHOP_SEEN_TIMEOUT (R270). CMP17 is not active within CHOP_SEEN_T of an on-command; a miss is counted and three misses make the chopper faulty. -/
  | chopSeenTimeout (seen : Bool)
  /-- CHOP_RETRY_EXPIRY (R270). The 10 µs chopper off time after a miss ends and the chopper is commanded on again if needed. -/
  | chopRetryExpiry
  /-- CHOP_SHORT_TIMEOUT (R270). CMP17 is active for 10 µs with the chopper commanded off; both axes trip with TRIP 0x5A03. -/
  | chopShortTimeout
  /-- BRAKE_LOAD_TICK (R269). Once per millisecond the braking-load model updates and may raise WARN 0x2A01 or LIMIT 0x3A03. -/
  | brakeLoadTick
  /-- ESCALATION_TIMEOUT (R273). VM_HI stays at or above OV2 throughout ESC_T in E1 and each switching axis is actively shorted or coasted. -/
  | escalationTimeout
  /-- E1_LEAVE_TIMEOUT (R273). The chopper is healthy and VM_HI stays at or below OV1 minus CHOP_HYST for 10 ms; stage E1 ends. -/
  | e1LeaveTimeout
  /-- ACTIVE_SHORT_END (R274). The phase current stays below 1 A for 10 ms, or 2 s elapse; the short ends and the axis becomes DISABLED. -/
  | activeShortEnd (x : Axis) (byTime : Bool)
  /-- FAULT_LOG_WRITE (R282). A fault-log entry is written to MRAM within 10 ms of its event. -/
  | faultLogWrite
  /-- FAULT_N_PULSE_EXPIRY (R281). FAULT_N_PULSE elapses after the latest qualifying raise and FAULT_N is released. -/
  | faultNPulseExpiry
  /-- TH_GRACE_EXPIRY (R291). TH_GRACE elapses without release of the limit threshold and LIMIT 0x3B03 enforces the derating. -/
  | thGraceExpiry (sensor : Fin 21)
  /-- THERMAL_DERATE_TICK (R291). Once per millisecond the enforced thermal limit i_th is recomputed. -/
  | thermalDerateTick
  /-- CASE_ESTIMATE_TICK (R289). Once per millisecond P_EST and T_CASE_EST are computed. -/
  | caseEstimateTick
  /-- REPLACE_TRIGGER (R308). A re-placement trigger makes Cairn write the inactive bank or hand over, changing only the work named. -/
  | replaceTrigger (tr : Trigger) (out : CairnOut)
  /-- REPLACE_LATE (R308). A re-placement is not active within 1 ms of its trigger; WARN 0x2C05 is raised and Cairn retries. -/
  | replaceLate
  /-- XTAL_LOSS (R316). No XTAL_IN edge for 200 ns; the PLLs switch to the RC oscillator and WARN 0x2001 is raised. -/
  | xtalLoss
  /-- PLL_LOCK_LOSS (R316). A PLL or DLL loses lock; both axes trip with TRIP 0x5002 and a relock is attempted. -/
  | pllLockLoss (p : Pll)
  /-- PLL_RELOCK_TIMEOUT (R316). No relock within 10 ms and Summit resets the drive with source 3. -/
  | pllRelockTimeout
  /-- EVENT_CELL_OVERFLOW (R320). An event-cell source counter passes its last capture by 65,536, the sticky flag sets and WARN 0x2003 is raised. -/
  | eventCellOverflow (cell : ColCell)
  /-- ISLAND_WAKE (R323). A request to a gated or unpowered island wakes it and the held word is delivered. -/
  | islandWake (island : Island)
  /-- HSP_FRAME (R328). A host-port frame runs from HSP_CS_N fall to rise; its status byte is driven, and when accepted its writes apply and its read request registers. -/
  | hspFrame (f : HspFrame)
  /-- HSP_FRAME_TIMEOUT (R342). No HSP_SCK edge for 1 ms while HSP_CS_N is low and the frame is discarded with FRAME_ERR. -/
  | hspFrameTimeout
  /-- MBX_COPY_DONE (R339). Thoevo finishes copying a submitted message and the inbox becomes free. -/
  | mbxCopyDone (facts : ReqFacts)
  /-- ETH_FRAME_FORWARD (R364). A frame is forwarded cut-through between RMII ports, or store-and-forward to and from T1S. -/
  | ethFrameForward (f : EthFrame)
  /-- ADDRESS_AGE_EXPIRY (R365). An address-table entry ages out after NET_AGE. -/
  | addressAgeExpiry (mac : BitVec 48)
  /-- ETH_RST_RELEASE (R366). ETH_RST_N is released 10 ms after PD_NET powers up. -/
  | ethRstRelease
  /-- PHY_POLL (R366). Every 10 ms the PHY status is read; a link change raises INFO 0x1D01 and a wrong mode WARN 0x2D08. -/
  | phyPoll (rmii1 rmii2 : PhyStatus)
  /-- T1S_BEACON_LOSS (R367). A PLCA follower sees no beacon for 4 cycles, falls back to CSMA/CD and raises WARN 0x2D0B. -/
  | t1sBeaconLoss
  /-- GPTP_SYNC (R373). A Sync message is processed; the clock is stepped or slewed and synchronisation may be gained. -/
  | gptpSync (offsetNs : Int) (rate : F32) (t : Nat)
  /-- GPTP_ANNOUNCE (R372). An Announce message is received and BMCA selects the slave port. -/
  | gptpAnnounce (slave : SlavePort)
  /-- GPTP_PDELAY (R372). A Pdelay exchange completes and the port may become as-capable. -/
  | gptpPdelay (port : Port) (delayNs : Int) (rateOk : Bool)
  /-- GPTP_RECEIPT_TIMEOUT (R373). A Sync or Announce receipt timeout ends synchronisation; the clock enters holdover with WARN 0x2D03. -/
  | gptpReceiptTimeout
  /-- GATE_LIST_INTERVAL (R370). A gate-list interval ends and the next entry's gate mask applies. -/
  | gateListInterval (port : Port)
  /-- TV_RECEIVE_SET (R378). A type 1 Traverse frame is validated and its control bits and setpoints are taken in. -/
  | tvReceiveSet (f : TvFrame) (t : Nat)
  /-- TV_MAILBOX_REQUEST (R383). A type 3 Traverse frame carries a mailbox request, which is queued, dropped or answered BUSY. -/
  | tvMailboxRequest (f : TvFrame) (waiting : Nat) (facts : ReqFacts) (t : Nat)
  /-- TV_TRANSMIT_WINDOW (R382). A transmit window opens and the latched transmit set is sent, or dropped and counted in TV_TX_LATE. -/
  | tvTransmitWindow (set : Fin 8) (blocked : Bool)
  /-- CAN_SYNC (R389). A SYNC message applies synchronous RPDO data and sends synchronous TPDOs. -/
  | canSync (t : Nat)
  /-- CAN_RPDO (R389). An RPDO is received and its mapped objects are stored or applied. -/
  | canRpdo (n : Fin 8) (data : List (BitVec 8)) (t : Nat)
  /-- CAN_SDO (R393). An SDO request reads or writes a parameter or object, or is aborted. -/
  | canSdo (r : SdoReq)
  /-- CAN_NMT (R388). An NMT command changes the CANopen state or resets the node or communication. -/
  | canNmt (c : NmtCommand) (node : BitVec 8)
  /-- CAN_HEARTBEAT_PRODUCE (R388). The heartbeat producer time elapses and a heartbeat is sent. -/
  | canHeartbeatProduce
  /-- CAN_HEARTBEAT_TIMEOUT (R392). The heartbeat consumer times out; the master is lost and CAN_ABORT_OPT acts. -/
  | canHeartbeatTimeout
  /-- CAN_ERROR_PASSIVE (R387). The controller becomes error-passive and WARN 0x2D06 is raised. -/
  | canErrorPassive
  /-- CAN_BUSOFF (R387). The controller goes bus-off, raises WARN 0x2D07 and increments CAN_BUSOFF_CNT. -/
  | canBusoff
  /-- CAN_BUSOFF_RECOVERY (R387). 128 occurrences of 11 recessive bits are seen and the controller recovers. -/
  | canBusoffRecovery
  /-- XSP_WINDOW_READ (R399). A read of the flash window fetches lines, suspending a running program or erase. -/
  | xspWindowRead (addr : Nat)
  /-- XSP_WINDOW_WRITE (R400). A write into the flash window collects bytes for a page program. -/
  | xspWindowWrite (addr : Nat) (byte : BitVec 8)
  /-- XSP_PAGE_IDLE (R400). No byte arrives for 1 µs and the collected page is programmed. -/
  | xspPageIdle
  /-- XSP_POLL (R400). XSP_POLL_T elapses and the status register is polled until the busy bit clears. -/
  | xspPoll (busy : Bool)
  /-- XSP_OP_TIMEOUT (R401). A program or erase exceeds its timeout; a failure is counted and three in a row mark the flash lost. -/
  | xspOpTimeout
  /-- XSP_ID_CHECK (R401). Every 10 s the flash ID is checked and a missing ID counts a failure. -/
  | xspIdCheck (present : Bool)
  /-- MRAM_SCRUB_TICK (R428). MRAM_SCRUB_PERIOD elapses and a scrub pass reads and corrects areas 2 to 8. -/
  | mramScrubTick (corrected : Nat) (bad : List (Nat × Nat))
  /-- SESSION_IDLE_TIMEOUT (R349). A session has no accepted request for 300 s and closes. -/
  | sessionIdleTimeout (session : Fin 5)
  /-- ROLE_LOCK_EXPIRY (R349). A role's lock time elapses and the role is unlocked. -/
  | roleLockExpiry (r : Role)
  /-- SESSION_OPEN (R349). Opens a session for a role and returns a 16-byte challenge. -/
  | sessionOpen (h : Hdr) (role : BitVec 8)
  /-- SESSION_AUTH (R349). Checks the HMAC response and gives the session its role, or answers AUTH_FAIL and closes it. -/
  | sessionAuth (h : Hdr) (response : BitVec 256)
  /-- SESSION_CLOSE (R349). Closes the session. -/
  | sessionClose (h : Hdr)
  /-- SESSION_INFO (R360). Returns the session's role, open sessions and idle time left. -/
  | sessionInfo (h : Hdr)
  /-- EVENT_MASK (R362). Sets the event mask of the transport. -/
  | eventMask (h : Hdr) (mask : BitVec 8)
  /-- PAR_GET (R353). Returns the stored value of each named parameter with its own result. -/
  | parGet (h : Hdr) (items : List (BitVec 16))
  /-- PAR_SET (R354). Stores parameter values all-or-nothing after checking each item against the amended stored values. -/
  | parSet (h : Hdr) (items : List (BitVec 16 × BitVec 32))
  /-- PAR_INFO (R360). Returns the type, role, effect point, flags and limits of a parameter. -/
  | parInfo (h : Hdr) (index : BitVec 16)
  /-- PAR_COMMIT (R355). Writes the working set to an MRAM parameter bank through its shadow copy. -/
  | parCommit (h : Hdr) (bank flags : BitVec 8)
  /-- PAR_LOAD (R356). Replaces the working set from a bank. -/
  | parLoad (h : Hdr) (bank : BitVec 8)
  /-- PAR_BANKS (R360). Returns the state, sequence and time of the four parameter banks. -/
  | parBanks (h : Hdr)
  /-- PAR_DEFAULTS (R356). Replaces the working set with the defaults. -/
  | parDefaults (h : Hdr)
  /-- STATE_GET (R360). Returns the power state, axis states and fault summary. -/
  | stateGet (h : Hdr)
  /-- PWR_REQ (R53). Requests a power-state transition of Table 3.7, or is refused with STATE_ERR 0x10. -/
  | pwrReq (h : Hdr) (target : BitVec 8)
  /-- ENABLE (R222). Enables the named axes through the start paths, or refuses each with its cause. -/
  | enable (h : Hdr) (mask : BitVec 8)
  /-- DISABLE (R235). Requests a ramp stop of the named axes. -/
  | disable (h : Hdr) (mask : BitVec 8)
  /-- QUICK_STOP (R235). Requests a quick stop of the named axes. -/
  | quickStop (h : Hdr) (mask : BitVec 8)
  /-- FAULT_CLEAR (R278). Clears the latched entries of the named scope whose causes are inactive. -/
  | faultClear (h : Hdr) (scope : BitVec 8) (chopSeen : Bool)
  /-- FAULT_LIST (R276). Returns the active fault list. -/
  | faultList (h : Hdr)
  /-- LEG_SERVICE_BYPASS (R81). Starts a commanded bypass of a leg by ramping its current share to zero. -/
  | legServiceBypass (h : Hdr) (axis leg : BitVec 8)
  /-- LEG_SERVICE_RETURN (R82). Returns a bypassed leg to service in READY after its leg test passes. -/
  | legServiceReturn (h : Hdr) (axis leg : BitVec 8) (m : LegMeasure)
  /-- SW_TRIP (R109). Sets the software-trip Scarp latch of the named axes. -/
  | swTrip (h : Hdr) (mask : BitVec 8)
  /-- SP_SET (R191). Delivers a mailbox setpoint, checked for owner and kind. -/
  | spSet (h : Hdr) (w : SpWords)
  /-- SP_GET (R360). Returns the reference in force. -/
  | spGet (h : Hdr) (axis : BitVec 8)
  /-- CAL_CONV (R139). Starts the calibration of the named converters as a long operation. -/
  | calConv (h : Hdr) (mask : BitVec 16)
  /-- CAL_CONV_DONE (R140). Calibration ends; limits are checked, values stored and suspect marks cleared, and the reply is placed. -/
  | calConvDone (m : List CalMeasure)
  /-- IDENT (R217). Starts motor identification of an axis as a long operation. -/
  | ident (h : Hdr) (axis : BitVec 8)
  /-- IDENT_DONE (R218). Identification ends; the measured values are stored or a failure reason is reported. -/
  | identDone
  /-- ANGLE_OFS (R262). Starts the angle-offset measurement as a long operation. -/
  | angleOfs (h : Hdr) (axis : BitVec 8)
  /-- ANGLE_OFS_DONE (R262). The angle-offset measurement ends and FB_ANGLE_OFS and FB_HALL_OFS are written, unless polarity was inconclusive. -/
  | angleOfsDone
  /-- DECL_WRITE (R297). Stages bytes of a declaration. -/
  | declWrite (h : Hdr) (offset total : BitVec 16) (bytes : List (BitVec 8))
  /-- COMPILE (R299). Starts a full compile of the staged or stored declaration as a long operation. -/
  | compile (h : Hdr) (flash : FlashFind)
  /-- COMPILE_CHECK_ONLY (R299). Compiles the declaration to check it without arming or storing anything. -/
  | compileCheckOnly (h : Hdr) (flash : FlashFind)
  /-- COMPILE_DONE (R299). The compile ends; the new banks are armed and stored, or the rejection report is returned. -/
  | compileDone (out : CairnOut)
  /-- DECL_READ (R360). Returns bytes of the stored declaration. -/
  | declRead (h : Hdr) (offset count : BitVec 16)
  /-- PLACE_INFO (R360). Returns placement details of the selected kind. -/
  | placeInfo (h : Hdr) (kind index : BitVec 8)
  /-- LEDGER (R305). Returns the itemised ledger of the active placement. -/
  | ledger (h : Hdr)
  /-- SEG_STAGE (R360). Stages ops of a user segment without checking them. -/
  | segStage (h : Hdr) (axis hook : BitVec 8) (offset : BitVec 16) (ops : List (BitVec 64))
  /-- SEG_COMMIT (R173). Checks and stores a staged user segment with its init list. -/
  | segCommit (h : Hdr) (axis hook : BitVec 8) (ops : BitVec 16) (init : List (BitVec 16 × BitVec 32))
  /-- SEG_DELETE (R360). Deletes a user segment from the next placement. -/
  | segDelete (h : Hdr) (axis hook : BitVec 8)
  /-- SEG_READ (R360). Returns ops of a stored user segment. -/
  | segRead (h : Hdr) (axis hook : BitVec 8) (offset n : BitVec 16)
  /-- LOG_READ (R282). Returns fault-log entries from a sequence number. -/
  | logRead (h : Hdr) (from_ : BitVec 32) (max : BitVec 8)
  /-- LOG_ERASE (R282). Erases the fault log and records the erase in the audit ring. -/
  | logErase (h : Hdr)
  /-- AUDIT_READ (R425). Returns audit-ring entries from a ring index. -/
  | auditRead (h : Hdr) (index : BitVec 16) (max : BitVec 8)
  /-- FIFO_READ (R259). Returns and removes compare or capture FIFO entries. -/
  | fifoRead (h : Hdr) (axis unit max : BitVec 8)
  /-- STREAM_READ (R302). Returns records of a declared stream. -/
  | streamRead (h : Hdr) (stream : BitVec 8) (from_ : BitVec 32) (max : BitVec 16)
  /-- CNT_READ (R361). Returns the values of the named counters. -/
  | cntRead (h : Hdr) (ids : List (BitVec 16))
  /-- CNT_CLEAR (R361). Clears the named counters. -/
  | cntClear (h : Hdr) (ids : List (BitVec 16))
  /-- CMP_RAW (R103). Returns the raw comparator outputs. -/
  | cmpRaw (h : Hdr)
  /-- CMP_TEST (R115). Repeats the self-test of the named comparators and clears the bits of those that pass. -/
  | cmpTest (h : Hdr) (mask : BitVec 32) (fails : BitVec 24)
  /-- CHOP_TEST (R271). Runs the chopper test at once, or refuses it by VM_HI or CHOP_EN. -/
  | chopTest (h : Hdr) (seen : Bool)
  /-- LEG_TEST (R437). Runs the leg test on one leg of a disabled axis in READY. -/
  | legTest (h : Hdr) (axis leg : BitVec 8) (m : LegMeasure)
  /-- RG_TEST (R170). Requests a self-test of the named engine. -/
  | rgTest (h : Hdr) (engine : BitVec 8)
  /-- COL_FLAGS (R320). Returns the sticky overflow flags and optionally clears them. -/
  | colFlags (h : Hdr) (clear : BitVec 8)
  /-- CONV_ONCE (R129). Issues one urgent conversion and returns its result word. -/
  | convOnce (h : Hdr) (converter channel : BitVec 8) (code : BitVec 16)
  /-- TEST_ACCESS (R424). Opens or closes the test port unless INSTALLER_OPT bars it. -/
  | testAccess (h : Hdr) (opened : BitVec 8)
  /-- OTP_READ (R410). Returns OTP shadow rows with their states. -/
  | otpRead (h : Hdr) (row : BitVec 16) (n : BitVec 8)
  /-- OTP_OVERRIDE (R413). Replaces the shadow of one row for trial until reset. -/
  | otpOverride (h : Hdr) (row : BitVec 16) (data : BitVec 64)
  /-- OTP_BURN (R414). Starts burning OTP rows in request order as a long operation. -/
  | otpBurn (h : Hdr) (rows : List (BitVec 16 × BitVec 64))
  /-- OTP_BURN_DONE (R415). The burn ends; each row's verification result is reported. -/
  | otpBurnDone (senses : List BurnSense)
  /-- OTP_LOCK (R417). Burns the LOCK flag of a region as a long operation. -/
  | otpLock (h : Hdr) (region : BitVec 8)
  /-- OTP_RETIRE (R418). Burns a region's RETIRE flag and selects its class's spare region. -/
  | otpRetire (h : Hdr) (region : BitVec 8)
  /-- OTP_LOCK_DONE (R417). The lock or retire burn ends and the reply is placed. -/
  | otpLockDone
  /-- FW_BEGIN (R360). Starts a firmware upload into the slot not running and invalidates it. -/
  | fwBegin (h : Hdr) (size : BitVec 32)
  /-- FW_DATA (R403). Writes image bytes into staging or the slot. -/
  | fwData (h : Hdr) (offset : BitVec 32) (bytes : List (BitVec 8))
  /-- FW_INSTALL (R403). Starts verification and installation of the uploaded image as a long operation. -/
  | fwInstall (h : Hdr) (flags : BitVec 8)
  /-- FW_INSTALL_DONE (R420). Installation ends with the slot made preferred, or IMG_BAD, and an optional reboot follows. -/
  | fwInstallDone (image : ImageFacts)
  /-- FW_INFO (R360). Returns the state, version and size of both firmware slots. -/
  | fwInfo (h : Hdr)
  /-- MRAM_ERASE (R360). Starts erasing an MRAM region as a long operation. -/
  | mramErase (h : Hdr) (region : BitVec 8)
  /-- MRAM_ERASE_DONE (R357). The MRAM erase ends and the reply is placed. -/
  | mramEraseDone
  /-- REBOOT (R430). Places the reply, commits state and resets the drive with source 5. -/
  | reboot (h : Hdr)
  /-- NET_STATUS (R360). Returns link, PLCA and gPTP status. -/
  | netStatus (h : Hdr)
  /-- MDIO_READ (R360). Reads a PHY register over MDIO. -/
  | mdioRead (h : Hdr) (port phy reg : BitVec 8) (value : BitVec 16)
  /-- MDIO_WRITE (R360). Writes a PHY register over MDIO. -/
  | mdioWrite (h : Hdr) (port phy reg : BitVec 8) (value : BitVec 16)
  /-- PORT_TEST (R438). Places a PHY in MDIO loopback and sends 16 test frames. -/
  | portTest (h : Hdr) (port : BitVec 8) (intact : Nat)
  /-- RESET_N_RELEASE (R430). RESET_N rises after a qualified low and the boot with reset source 2 begins. -/
  | resetNRelease (stableNs : Nat)
  /-- WATCHDOG_SERVICE (R431). Thoevo serves the Summit watchdog, restarting its 100 ms count. -/
  | watchdogService
  /-- WATCHDOG_RESET_DELAY_EXPIRY (R431). STOP_TMAX plus 100 ms elapse after watchdog expiry with an axis still switching, and Summit resets the drive. -/
  | watchdogResetDelayExpiry
  /-- PLL_RELOCK (R316). A PLL or DLL that lost lock relocks within 10 ms, and 0x5002 becomes clearable after 10 ms of held lock. -/
  | pllRelock (p : Pll)
  /-- CAN_HEARTBEAT_RECEIVE (R388). A heartbeat from the monitored node is received and restarts the consumer time of 0x1016. -/
  | canHeartbeatReceive (node : BitVec 8)
  /-- CAN_ERROR_ACTIVE_RETURN (R387). The error counters fall back below the passive limit and the controller returns from error-passive to error-active. -/
  | canErrorActiveReturn
  /-- PLCA_BEACON_RECEIVED (R367). A PLCA beacon is received by a follower that had fallen back to CSMA/CD, and it returns to PLCA. -/
  | plcaBeaconReceived
  /-- ARP_ICMP_REQUEST (R375). An ARP request or ICMP echo request addressed to the drive is received and answered by Thoevo. -/
  | arpIcmpRequest (icmp : Bool) (sender target : BitVec 32) (bytes : Nat)
  /-- GPTP_TRANSMIT_INTERVAL (R372). The Sync, Announce or Pdelay_Req interval of the drive's own gPTP instance elapses and the message is sent. -/
  | gptpTransmitInterval (kind : GptpKind)
  /-- STREAM_RECORD_TICK (R302). A record period of a declared stream elapses; a record is taken and written, or dropped and counted in STREAM_DROP. -/
  | streamRecordTick (stream : Fin 16) (fate : RecordFate)
  /-- TELEMETRY_DRIVE_UPDATE (R340). Every 100 µs the drive block of the telemetry window is replaced whole. -/
  | telemetryDriveUpdate
  /-- ALIGN_RISE_END (R228). ST_ALIGN_RISE elapses in alignment phase 1, the current reaches ST_ALIGN_I and the brake release starts with HB_EN = 1. -/
  | alignRiseEnd (x : Axis)
  /-- T1S_LINE_TEST_DONE (R437). The 10 ms T1S line test ends and BIST_STATUS bit 6 and 0x2006 report an open or shorted pair. -/
  | t1sLineTestDone (fault : Bool)
  /-- FAULT_N_BOOT_PULSE_DELAY (R281). FAULT_N has been released for 1 ms after boot, and the pulses of codes raised during boot begin. -/
  | faultNBootPulseDelay
deriving DecidableEq, Repr

end Sys2Proof
end

