-- ==== Sys2Proof/Decode.lean ====
section
/-!
DEFINITION. The command a table word spells. The table of operations and events gives its rows no bits: no word spells
a command.
-/

namespace Sys2Proof

/-- The command that `nbits` bits `w` spell by the table: none, since no row of it has bits. -/
def decodeTableWord (_nbits _w : Nat) : Option Instr := none

end Sys2Proof
end

