-- ==== Sys2Proof/Config.lean ====
section
/-!
DEFINITION. What the spec leaves open: free values as constants without a body, so that no proof can see one.
-/

namespace Sys2Proof.Config
open Sys2Proof

/-- The k-th free word: a value the spec leaves undefined, taken in the order the drive meets them (log 3). -/
opaque freeWord : Nat → BitVec 32
/-- The 16 random bytes of the k-th challenge (17 R349). -/
opaque challenge : Nat → BitVec 128
/-- Time that passes at the k-th idle step, ns (log 4). -/
opaque idleNs : Nat → Nat
/-- Which of the results its accuracy bound allows an op gives, in ulp from the correctly rounded one, by op code and
operands (07 R149). -/
opaque ulpPick : Nat → F32 → F32 → Int
/-- sin as an engine computes it, within 2^-22 (07 R149). -/
opaque sin : F32 → F32
/-- cos as an engine computes it, within 2^-22 (07 R149). -/
opaque cos : F32 → F32
/-- atan2 (y, x) as an engine computes it, within 2^-21 rad (07 R149). -/
opaque atan2 : F32 → F32 → F32
/-- Words of a ROT or IROT result: op, component, vector and angle (07 R149). -/
opaque rot : Bool → Bool → F32 → F32 → F32 → F32
/-- The engine-test signature Thoevo 4.1 holds for revision C (07 R170). -/
opaque rgSignature : BitVec 32
/-- A low pulse between 500 µs and 1 ms on STO removes gate supply (04 R84): either may occur. -/
opaque stoPulseRemoves : Nat → Bool
/-- The trim the network-lock loop moves to from a phase error in ns, NL_BW and its trim: a proportional-integral loop
whose gains the spec leaves out (05 R100). -/
opaque nlTrim : Int → F32 → Int → Int
/-- What Cairn places at a supervisor word of an axis, whose map the spec leaves out: the index of a run-time parameter, or from
0xFFF0 on a word of the setpoint; by placement, axis and word (07 Table 7.3). -/
opaque supName : BitVec 32 → Nat → Nat → BitVec 16
/-- The flags USR0 to USR2 Thoevo sets for the chain of a boundary, whose meaning Cairn defines; by axis and boundary time
(07 R158). -/
opaque usrFlags : Nat → Nat → BitVec 3
/-- How many events Thoevo has read from an engine's FIFO since the last POST there, by the order of asking: the spec gives no
rate (07 R152). -/
opaque eventsRead : Nat → Nat
/-- The 8 SECDED check bits of a table word; the code is not stated (07 R156). -/
opaque secded : BitVec 64 → BitVec 8
/-- Milliseconds left of a long operation, as Thoevo estimates them (17 Table 17.2). -/
opaque busyMs : Nat → BitVec 16
/-- How much of an offset from the grandmaster, ns, the slewed clock has taken back at a Sync (18 R373): the course of a slew
is not stated. -/
opaque slewNs : Int → Nat → Int
/-- Vendor, product and revision of 0x1018, by sub-index; the spec names only the serial number (18 R388). -/
opaque canIdentity : Nat → BitVec 32
/-- What an NTC reads as with its pad above 3.3 V, where the formula gives no value (13 R287). -/
opaque ntcOver : F32 → F32
/-- What an object shows of a speed or torque outside its width (18 R390). -/
opaque canOver : Int → BitVec 32
/-- The next position of the trapezoid planned in pp mode, whose course in steps of the position part the spec leaves out, by
position, speed, target, profile speed, acceleration, deceleration, all in radians, and the part's period (18 R390). -/
opaque ppPos : Int → BitVec 32 → Int → Rat → Rat → Rat → Rat → Int
/-- Its speed there (18 R390). -/
opaque ppSpeed : Int → BitVec 32 → Int → Rat → Rat → Rat → Rat → BitVec 32
/-- PLCA state byte of NET_STATUS, whose coding the spec leaves out: by CSMA/CD placed, fallen back, beacon seen
(17 Table 17.8). -/
opaque plcaCode : Bool → Bool → Bool → BitVec 8
/-- What the shadow of a BAD row holds: the raw value sensed, by row and the data burned there (20 R410). -/
opaque otpRaw : Nat → BitVec 64 → BitVec 64
/-- Parameter index Cairn reports for a word of an axis's telemetry block: placement, axis, word (16 R340). -/
opaque teleName : BitVec 32 → Nat → Nat → BitVec 16
/-- Channel Cairn maps to a shared-channel view: placement, view (07 Table 7.3). -/
opaque viewChannel : BitVec 32 → Nat → BitVec 8
/-- The digest of a public key is carried by the image; the CRC-32 of an unlisted table is Thoevo's own. -/
opaque tableCrc : List (BitVec 32) → BitVec 32

end Sys2Proof.Config
end

