-- ==== Sys2Proof/Machine/F32.lean ====
section
/-!
DEFINITION. binary32 arithmetic as the engines do it (07 R149): the exact value of a formula over extended rationals,
rounded once to nearest even, subnormals flushed to zero with their sign; comparisons by exact value.
-/

namespace Sys2Proof
open Sys2Proof

/-- Sign bit. -/
def fneg? (x : F32) : Bool := x.getLsbD 31
/-- Biased exponent field. -/
def fexp (x : F32) : Nat := (x.toNat / 2 ^ 23) % 256
/-- Fraction field. -/
def ffrac (x : F32) : Nat := x.toNat % 2 ^ 23
/-- NaN. -/
def fisNan (x : F32) : Bool := fexp x == 255 && ffrac x != 0
/-- Infinity of either sign. -/
def fisInf (x : F32) : Bool := fexp x == 255 && ffrac x == 0
/-- Neither NaN nor infinite. -/
def ffinite (x : F32) : Bool := fexp x != 255
/-- A zero of either sign. -/
def fisZero (x : F32) : Bool := x.toNat % 2 ^ 31 == 0
/-- The default NaN. DESIGN CHOICE (log 11): the spec names no NaN payload. -/
def fnan : F32 := 0x7FC00000
/-- Infinity with a sign. -/
def finf (neg : Bool) : F32 := if neg then 0xFF800000 else 0x7F800000
/-- Zero with a sign. -/
def fzero (neg : Bool) : F32 := if neg then 0x80000000 else 0

/-- The exact value of a finite word, times 2^149. -/
def fscaled (x : F32) : Int :=
  let m : Nat := if fexp x = 0 then ffrac x else (2 ^ 23 + ffrac x) * 2 ^ (fexp x - 1)
  if fneg? x then -(m : Int) else (m : Int)

/-- The exact value of a finite word. -/
def frat (x : F32) : Rat := mkRat (fscaled x) (2 ^ 149)

/-- A subnormal becomes zero, keeping its sign (07 R149). -/
def fflush (x : F32) : F32 := if fexp x = 0 then fzero (fneg? x) else x

/-- Round the magnitude n / d to binary32, nearest even; subnormal results are kept. -/
def froundNat (n d : Nat) : Nat :=
  if n = 0 then 0
  else
    let e0 : Int := (n.log2 : Int) - (d.log2 : Int)
    -- 2^e ≤ n / d < 2^(e+1)
    let e : Int := if (if 0 ≤ e0 then d * 2 ^ e0.toNat ≤ n else d ≤ n * 2 ^ (-e0).toNat) then e0 else e0 - 1
    let u : Int := max e (-126) - 23
    let num := if 0 ≤ u then n else n * 2 ^ (-u).toNat
    let den := if 0 ≤ u then d * 2 ^ u.toNat else d
    let q := num / den
    let r := num % den
    let m := if 2 * r < den then q else if den < 2 * r then q + 1 else q + q % 2
    let bits : Int := if m < 2 ^ 23 then (m : Int) else (u + 150) * 2 ^ 23 + ((m : Int) - 2 ^ 23)
    if bits < 255 * 2 ^ 23 then bits.toNat else 255 * 2 ^ 23

/-- Round an exact value to binary32, nearest even, without flushing. -/
def fofRat (q : Rat) : F32 :=
  let b := BitVec.ofNat 32 (froundNat q.num.natAbs q.den)
  if q.num < 0 then b ||| 0x80000000 else b

/-- n / d as binary32. -/
def fq (n : Int) (d : Nat := 1) : F32 := fofRat (mkRat n d)

/-- Extended reals: exact values with the sign of a zero, infinities, NaN. -/
inductive Ext where
  | nan
  | inf (neg : Bool)
  | fin (q : Rat) (neg : Bool)
deriving DecidableEq, Repr

/-- The value of an operand, subnormals flushed. -/
def toExt (x : F32) : Ext :=
  if fisNan x then .nan else if fisInf x then .inf (fneg? x)
  else let y := fflush x; .fin (frat y) (fneg? y)

/-- Round a formula's value once and flush (07 R149). -/
def fromExt : Ext → F32
  | .nan => fnan
  | .inf n => finf n
  | .fin q n => if q = 0 then fzero n else
      let b := fflush (fofRat q)
      b

def Ext.neg : Ext → Ext
  | .nan => .nan
  | .inf n => .inf (!n)
  | .fin q n => .fin (-q) (!n)

def Ext.add : Ext → Ext → Ext
  | .nan, _ => .nan
  | _, .nan => .nan
  | .inf a, .inf b => if a == b then .inf a else .nan
  | .inf a, .fin _ _ => .inf a
  | .fin _ _, .inf b => .inf b
  | .fin p a, .fin q b => let r := p + q; .fin r (if r = 0 then a && b else decide (r < 0))

def Ext.sub (x y : Ext) : Ext := x.add y.neg

def Ext.isNeg : Ext → Bool
  | .nan => false
  | .inf n => n
  | .fin _ n => n

def Ext.mul : Ext → Ext → Ext
  | .nan, _ => .nan
  | _, .nan => .nan
  | .inf a, .inf b => .inf (a != b)
  | .inf a, .fin q b => if q = 0 then .nan else .inf (a != b)
  | .fin q a, .inf b => if q = 0 then .nan else .inf (a != b)
  | .fin p a, .fin q b => .fin (p * q) (a != b)

def Ext.div : Ext → Ext → Ext
  | .nan, _ => .nan
  | _, .nan => .nan
  | .inf _, .inf _ => .nan
  | .inf a, .fin _ b => .inf (a != b)
  | .fin _ a, .inf b => .fin 0 (a != b)
  | .fin p a, .fin q b => if q = 0 then (if p = 0 then .nan else .inf (a != b)) else .fin (p / q) (a != b)

/-- An exact constant. -/
def Ext.c (q : Rat) : Ext := .fin q (decide (q < 0))

/-- A negated term under the NP and NC bits. -/
def Ext.negIf (b : Bool) (x : Ext) : Ext := if b then x.neg else x

/-- Order of extended reals; false with NaN. -/
def Ext.lt : Ext → Ext → Bool
  | .nan, _ => false
  | _, .nan => false
  | .inf a, .inf b => a && !b
  | .inf a, .fin _ _ => a
  | .fin _ _, .inf b => !b
  | .fin p _, .fin q _ => decide (p < q)
/-- NaN when either is NaN. -/
def Ext.min (x y : Ext) : Ext := match x, y with
  | .nan, _ => .nan | _, .nan => .nan | x, y => if y.lt x then y else x
/-- NaN when either is NaN. -/
def Ext.max (x y : Ext) : Ext := match x, y with
  | .nan, _ => .nan | _, .nan => .nan | x, y => if x.lt y then y else x
/-- Magnitude. -/
def Ext.abs : Ext → Ext | .nan => .nan | .inf _ => .inf false | .fin q _ => .fin (if q < 0 then -q else q) false
/-- min (max x lo) hi. -/
def Ext.clamp (x lo hi : Ext) : Ext := (x.max lo).min hi

/-- The sum, once rounded. -/
def fadd (x y : F32) : F32 := fromExt ((toExt x).add (toExt y))
/-- The difference, once rounded. -/
def fsub (x y : F32) : F32 := fromExt ((toExt x).sub (toExt y))
/-- The product, once rounded. -/
def fmul (x y : F32) : F32 := fromExt ((toExt x).mul (toExt y))
/-- Sign change. -/
def fneg (x : F32) : F32 := x ^^^ 0x80000000
/-- Magnitude. -/
def fabs (x : F32) : F32 := x &&& 0x7FFFFFFF

/-- Order of two words as extended reals; false with a NaN (07 R149). -/
def flt (x y : F32) : Bool :=
  if fisNan x || fisNan y then false
  else if fisInf x then fneg? x && !(fisInf y && fneg? y)
  else if fisInf y then !fneg? y
  else decide (fscaled x < fscaled y)

/-- At most; false with a NaN. -/
def fle (x y : F32) : Bool :=
  if fisNan x || fisNan y then false else !flt y x

/-- Equal values; false with a NaN. -/
def feq (x y : F32) : Bool := fle x y && fle y x

/-- The smaller; NaN when either is NaN (07 R149). -/
def fmin (x y : F32) : F32 := if fisNan x || fisNan y then fnan else if flt y x then y else x
/-- The larger; NaN when either is NaN. -/
def fmax (x y : F32) : F32 := if fisNan x || fisNan y then fnan else if flt x y then y else x
/-- min (max x lo) hi. -/
def fclamp (x lo hi : F32) : F32 := fmin (fmax x lo) hi
/-- Clamp to ±|m|. -/
def fclamps (x m : F32) : F32 := fclamp x (fneg (fabs m)) (fabs m)

/-- Move a finite nonzero word by k ulp in magnitude. -/
def fstep (x : F32) (k : Int) : F32 :=
  let m : Int := (x.toNat % 2 ^ 31 : Nat) + k
  if m < 0x00800000 ∨ 0x7F800000 ≤ m then x else BitVec.ofNat 32 (m.toNat + (if fneg? x then 2 ^ 31 else 0))

/-- A result with an accuracy bound of b ulp: the correctly rounded one, or another the bound admits as
`Config.ulpPick` has it (07 R149; log 12). -/
def fbounded (op b : Nat) (x y r : F32) : F32 :=
  if !ffinite r || fisZero r then r
  else fstep r (max (-(b : Int)) (min (b : Int) (Config.ulpPick op x y)))

/-- The quotient, to 2 ulp (07 R149). -/
def fdiv (x y : F32) : F32 := fbounded 0x0F 2 x y (fromExt ((toExt x).div (toExt y)))
/-- The reciprocal, to 1 ulp. -/
def frcp (x : F32) : F32 := fbounded 0x0C 1 x 0 (fromExt ((Ext.c 1).div (toExt x)))

/-- Bits k − 1 to 0 of the integer root of n, below the bits found. -/
def isqrtGo : Nat → Nat → Nat → Nat
  | 0, _, r => r
  | k + 1, n, r => isqrtGo k n (if (r + 2 ^ k) * (r + 2 ^ k) ≤ n then r + 2 ^ k else r)
/-- The integer root, rounded down. -/
def isqrt (n : Nat) : Nat := isqrtGo (n.log2 / 2 + 1) n 0
/-- Correctly rounded square root of an exact nonnegative value: the integer root of a scaled value, its last bit made
sticky so that one rounding suffices. -/
def fsqrtRat (q : Rat) : F32 :=
  if q ≤ 0 then 0
  else
    -- q × 4^k with at least 60 bits before the point
    let k : Nat := 60 + (q.den.log2 + 1)
    let n := (q.num.natAbs * 4 ^ k) / q.den
    let r := isqrt n
    let sticky := if r * r = n ∧ (q.num.natAbs * 4 ^ k) % q.den = 0 then 2 * r else 2 * r + 1
    fflush (fofRat (mkRat sticky (2 ^ (k + 1))))

/-- Root of an operand, to 1 ulp; NaN below zero. -/
def fsqrt (x : F32) : F32 :=
  match toExt x with
  | .nan => fnan
  | .inf n => if n then fnan else finf false
  | .fin q n => if q = 0 then fzero n else if q < 0 then fnan else fbounded 0x0E 1 x 0 (fsqrtRat q)

/-- √(a² + b²), to 2 ulp. -/
def fmag (a b : F32) : F32 :=
  match ((toExt a).mul (toExt a)).add ((toExt b).mul (toExt b)) with
  | .nan => fnan
  | .inf _ => finf false
  | .fin q _ => fbounded 0x22 2 a b (fsqrtRat q)

/-- 2π/2 to forty digits: exact enough that one rounding to binary32 is the rounding of π's own multiple. -/
def piR : Rat := mkRat 31415926535897932384626433832795028841971 (10 ^ 40)
/-- √3 to forty digits. -/
def sqrt3R : Rat := mkRat 17320508075688772935274463415058723669428 (10 ^ 40)

/-! Elementary functions as exact values to about 2^-60, so that one rounding to binary32 gives their value (log 12). -/

/-- A value on the grid of 2^-80, so that the terms of a series stay short. -/
def onGrid (q : Rat) : Rat := mkRat (q * (2 ^ 80 : Nat)).floor (2 ^ 80)
/-- A polynomial by its coefficients, lowest first. -/
def polyR (x : Rat) : List Rat → Rat
  | [] => 0
  | c :: cs => onGrid (c + x * polyR x cs)
/-- n!. -/
def factR : Nat → Nat
  | 0 => 1
  | n + 1 => (n + 1) * factR n
/-- (−1)^k. -/
def altR (k : Nat) : Int := if k % 2 = 0 then 1 else -1
/-- e^x: the series at x / 2^m, squared m times. -/
def expR (x : Rat) : Rat :=
  let a := if x < 0 then -x else x
  let m := if 64 ≤ a then 12 else a.ceil.toNat.log2 + 2
  let y := polyR (onGrid (x / (2 ^ m : Nat))) ((List.range 20).map (fun k => mkRat 1 (factR k)))
  (List.range m).foldl (fun (z : Rat) _ => onGrid (z * z)) y
/-- ln 2. -/
def ln2R : Rat := mkRat 6931471805599453094172321214581765680755 (10 ^ 40)
/-- ln x for x > 0: k ln 2 and twice the area tangent of (m − 1) / (m + 1). -/
def lnR (x : Rat) : Rat :=
  let k : Int := (x.num.natAbs.log2 : Int) - (x.den.log2 : Int)
  let m := if 0 ≤ k then x / ((2 ^ k.toNat : Nat) : Rat) else x * ((2 ^ (-k).toNat : Nat) : Rat)
  let t := onGrid ((m - 1) / (m + 1))
  onGrid (k * ln2R + 2 * t * polyR (t * t) ((List.range 40).map (fun n => mkRat 1 (2 * n + 1))))

/-- Nearest integer, ties to even, of an exact value. -/
def roundEven (q : Rat) : Int :=
  let f := q.floor
  let r := q - f
  if r < mkRat 1 2 then f else if mkRat 1 2 < r then f + 1 else f + f % 2

/-- Floor of an exact value divided by a positive one, times it, taken away: x mod m. -/
def ratMod (x m : Rat) : Rat := x - m * (x / m).floor

/-- sin of an angle. -/
def sinR (q : Rat) : Rat :=
  let x := onGrid (ratMod (q + piR) (2 * piR) - piR)
  onGrid (x * polyR (x * x) ((List.range 18).map (fun k => mkRat (altR k) (factR (2 * k + 1)))))
/-- cos of an angle. -/
def cosR (q : Rat) : Rat :=
  let x := onGrid (ratMod (q + piR) (2 * piR) - piR)
  polyR (x * x) ((List.range 18).map (fun k => mkRat (altR k) (factR (2 * k))))
/-- arctan of a value of magnitude at most 1/4. -/
def atanSmall (t : Rat) : Rat := onGrid (t * polyR (t * t) ((List.range 18).map (fun k => mkRat (altR k) (2 * k + 1))))
/-- arctan of a value from 0 to 1, by the nearest of arctan 0, 1/2 and 1. -/
def atanUnit (t : Rat) : Rat :=
  if t ≤ mkRat 1 4 then atanSmall t
  else if t ≤ mkRat 3 4 then mkRat 4636476090008061162142562314612144020285 (10 ^ 40) + atanSmall (onGrid ((t - mkRat 1 2) / (1 + t / 2)))
  else piR / 4 + atanSmall (onGrid ((t - 1) / (t + 1)))
/-- The angle of (x, y) with y ≥ 0, not the origin. -/
def angleUp (y x : Rat) : Rat :=
  let ax := if x < 0 then -x else x
  let a := if y ≤ ax then atanUnit (onGrid (y / ax)) else piR / 2 - atanUnit (onGrid (ax / y))
  if x < 0 then piR - a else a
/-- atan2 of exact values; 0 at the origin. -/
def atan2R (y x : Rat) : Rat := if y = 0 ∧ x = 0 then 0 else if y < 0 then -(angleUp (-y) x) else angleUp y x

/-- Wrap into [−π, π), rounded once. -/
def fwrap (x : F32) : F32 :=
  match toExt x with
  | .fin q n => if q = 0 then fzero n else fromExt (Ext.c (ratMod (q + piR) (2 * piR) - piR))
  | _ => fnan

/-- f32 of an integer, rounded once. -/
def fofInt (n : Int) : F32 := fofRat (n : Rat)
/-- An exact value rounded once and flushed. -/
def frnd (q : Rat) : F32 := fflush (fofRat q)
/-- The exact value of a finite word, 0 for the others. -/
def fval (x : F32) : Rat := if ffinite x then frat x else 0
/-- a × b + c, rounded once (MAC). -/
def fmac (a b c : F32) : F32 := fromExt (((toExt a).mul (toExt b)).add (toExt c))
/-- The sign: −1.0 below zero, 1.0 above, 0.0 at zero. -/
def fsign (x : F32) : F32 := if fisZero x then 0 else if fneg? x then 0xBF800000 else 0x3F800000
/-- 1.0. -/
def f1 : F32 := 0x3F800000
/-- Degrees to radians. -/
def fdeg (x : F32) : F32 := frnd (fval x * piR / 180)
/-- Radians to degrees. -/
def ftodeg (x : F32) : F32 := frnd (fval x * 180 / piR)

end Sys2Proof
end

