-- ==== Sys2Proof/Machine/Params.lean ====
section
/-!
DEFINITION. The parameter tables of the chapters as data: index, type, range, default, role and effect point of every
parameter (00 R8, R9; the tables named in each range's docstring), and the look-up over them.
-/

namespace Sys2Proof.Machine
open Sys2Proof

/-- Types of a parameter (00 R8). -/
inductive PType where | u8 | u16 | u32 | i32 | f32
deriving DecidableEq, Repr
/-- What a table lets a writer do (00 R8). -/
inductive PKind where | writable | readOnly | counter
deriving DecidableEq, Repr
/-- Minimum write role in a parameter table. -/
inductive PRole where | operator | installer
deriving DecidableEq, Repr
/-- Effect points (00 Table 0.4). -/
inductive PEffect where | none | immediate | boundary | enable | placement
deriving DecidableEq, Repr
/-- The range column; f32 bounds as words. -/
inductive PRange where
  | f (lo hi : Word)         -- lo to hi
  | fBelow (lo hi : Word)    -- lo to below hi
  | fOff (lo hi : Word)      -- 0, or lo to hi
  | n (lo hi : Nat)
  | i (lo hi : Int)
  | oneOf (vs : List Nat)
  | mask (m : Word)          -- bits outside must be 0
  | any
  | window (signed : Bool)   -- packed window, low code below high code (06 R146)
  | ipMask                   -- ones from bit 31 down (18 R375)
  | ethertype                -- 18 Table 18.11
  | serField                 -- 11 Table 11.4
  | serCrc                   -- 11 Table 11.8
deriving DecidableEq, Repr
/-- One row of a parameter table. -/
structure PDef where
  idx : Nat
  ty : PType
  kind : PKind
  range : PRange
  dflt : Word
  role : PRole
  eff : PEffect
  perAxis : Bool
deriving DecidableEq, Repr

/-! Indices by name. -/
namespace Par
/-- DEV_ID. -/
abbrev devId : Nat := 0x0000
/-- MOD_REV. -/
abbrev modRev : Nat := 0x0001
/-- FW_VER. -/
abbrev fwVer : Nat := 0x0002
/-- UID_LO. -/
abbrev uidLo : Nat := 0x0003
/-- UID_HI. -/
abbrev uidHi : Nat := 0x0004
/-- BOOT_COUNT. -/
abbrev bootCount : Nat := 0x0005
/-- RESET_SRC. -/
abbrev resetSrc : Nat := 0x0006
/-- BOOT_SLOT. -/
abbrev bootSlot : Nat := 0x0007
/-- BOOT_FLAGS. -/
abbrev bootFlags : Nat := 0x0008
/-- BOOT_TIME. -/
abbrev bootTime : Nat := 0x0009
/-- BOOT_WEAK0. -/
abbrev bootWeak0 : Nat := 0x000A
/-- BOOT_WEAK1. -/
abbrev bootWeak1 : Nat := 0x000B
/-- BOOT_WEAK2. -/
abbrev bootWeak2 : Nat := 0x000C
/-- BOOT_WEAK3. -/
abbrev bootWeak3 : Nat := 0x000D
/-- BOOT_WEAK4. -/
abbrev bootWeak4 : Nat := 0x000E
/-- BOOT_WEAK5. -/
abbrev bootWeak5 : Nat := 0x000F
/-- BOOT_WEAK6. -/
abbrev bootWeak6 : Nat := 0x0010
/-- BOOT_WEAK7. -/
abbrev bootWeak7 : Nat := 0x0011
/-- BIST_STATUS. -/
abbrev bistStatus : Nat := 0x0012
/-- PARAM_BANK. -/
abbrev paramBank : Nat := 0x0013
/-- PWR_STATE. -/
abbrev pwrState : Nat := 0x0100
/-- WAKE_SRC. -/
abbrev wakeSrc : Nat := 0x0101
/-- VM_UV. -/
abbrev vmUv : Nat := 0x0102
/-- VM_UV_HYST. -/
abbrev vmUvHyst : Nat := 0x0103
/-- VM_PF. -/
abbrev vmPf : Nat := 0x0104
/-- HSW_PRESENT. -/
abbrev hswPresent : Nat := 0x0105
/-- HSW_SLEW. -/
abbrev hswSlew : Nat := 0x0106
/-- HSW_SOA_TIME. -/
abbrev hswSoaTime : Nat := 0x0107
/-- HSW_RETRY_DELAY. -/
abbrev hswRetryDelay : Nat := 0x0108
/-- HSW_RETRIES. -/
abbrev hswRetries : Nat := 0x0109
/-- HSW_CB_THR. -/
abbrev hswCbThr : Nat := 0x010A
/-- HSW_CB_TIME. -/
abbrev hswCbTime : Nat := 0x010B
/-- HSW_PLUG_DEB. -/
abbrev hswPlugDeb : Nat := 0x010C
/-- OUT5_EN. -/
abbrev out5En : Nat := 0x010D
/-- OUT3_EN. -/
abbrev out3En : Nat := 0x010E
/-- HOLD_NET. -/
abbrev holdNet : Nat := 0x010F
/-- BOOT_TARGET. -/
abbrev bootTarget : Nat := 0x0110
/-- WAKE_EN. -/
abbrev wakeEn : Nat := 0x0111
/-- WAKE_FILT. -/
abbrev wakeFilt : Nat := 0x0112
/-- RESET_FILT. -/
abbrev resetFilt : Nat := 0x0113
/-- CS_FILT. -/
abbrev csFilt : Nat := 0x0114
/-- STAGE_MODE. -/
abbrev stageMode : Nat := 0x0200
/-- DS_SHIFT. -/
abbrev dsShift : Nat := 0x0201
/-- PHASE_LM. -/
abbrev phaseLm : Nat := 0x0202
/-- PHASE_LSIG. -/
abbrev phaseLsig : Nat := 0x0203
/-- PHASE_SAT_OK. -/
abbrev phaseSatOk : Nat := 0x0204
/-- GD_SLEW. -/
abbrev gdSlew : Nat := 0x0205
/-- DT_ADAPT. -/
abbrev dtAdapt : Nat := 0x0206
/-- DT_MIN. -/
abbrev dtMin : Nat := 0x0207
/-- DT_MAX. -/
abbrev dtMax : Nat := 0x0208
/-- DT_MARGIN. -/
abbrev dtMargin : Nat := 0x0209
/-- DT_INIT. -/
abbrev dtInit : Nat := 0x020A
/-- LEG_IMB_WARN. -/
abbrev legImbWarn : Nat := 0x020B
/-- LEG_AUTO_BYPASS. -/
abbrev legAutoBypass : Nat := 0x020C
/-- LEG_BYPASS_RAMP. -/
abbrev legBypassRamp : Nat := 0x020D
/-- LEG_BYPASS_MASK. -/
abbrev legBypassMask : Nat := 0x020E
/-- HB_EN. -/
abbrev hbEn : Nat := 0x020F
/-- HB_PULL_TIME. -/
abbrev hbPullTime : Nat := 0x0210
/-- HB_HOLD_DUTY. -/
abbrev hbHoldDuty : Nat := 0x0211
/-- HB_RELEASE_T. -/
abbrev hbReleaseT : Nat := 0x0212
/-- HB_ENGAGE_T. -/
abbrev hbEngageT : Nat := 0x0213
/-- HB_OPEN_THR. -/
abbrev hbOpenThr : Nat := 0x0214
/-- STO_FILT. -/
abbrev stoFilt : Nat := 0x0215
/-- STO_DISC_TIME. -/
abbrev stoDiscTime : Nat := 0x0216
/-- PHASE_I_CONT. -/
abbrev phaseICont : Nat := 0x0217
/-- PHASE_I_PEAK. -/
abbrev phaseIPeak : Nat := 0x0218
/-- BOOT_REFRESH. -/
abbrev bootRefresh : Nat := 0x0219
/-- PWM_FREQ. -/
abbrev pwmFreq : Nat := 0x0300
/-- PWM_FREQ_ACT. -/
abbrev pwmFreqAct : Nat := 0x0301
/-- CTRL_HALVES. -/
abbrev ctrlHalves : Nat := 0x0302
/-- COMMIT_SEL. -/
abbrev commitSel : Nat := 0x0303
/-- NL_EN. -/
abbrev nlEn : Nat := 0x0304
/-- NL_PHASE_OFS. -/
abbrev nlPhaseOfs : Nat := 0x0305
/-- NL_BW. -/
abbrev nlBw : Nat := 0x0306
/-- NL_SLEW. -/
abbrev nlSlew : Nat := 0x0307
/-- NL_LOCK_CNT. -/
abbrev nlLockCnt : Nat := 0x0308
/-- NL_LOSS_THR. -/
abbrev nlLossThr : Nat := 0x0309
/-- NL_HOLDOVER. -/
abbrev nlHoldover : Nat := 0x030A
/-- NL_STATE. -/
abbrev nlState : Nat := 0x030B
/-- NL_PHASE_ERR. -/
abbrev nlPhaseErr : Nat := 0x030C
/-- OC_THR. -/
abbrev ocThr : Nat := 0x030D
/-- BLANK_LEG. -/
abbrev blankLeg : Nat := 0x030E
/-- PV_WIN. -/
abbrev pvWin : Nat := 0x030F
/-- PV_LEG_SEL. -/
abbrev pvLegSel : Nat := 0x0310
/-- BLANK_BUS. -/
abbrev blankBus : Nat := 0x0311
/-- CHOP_OC_THR. -/
abbrev chopOcThr : Nat := 0x0312
/-- CHOP_SEEN_THR. -/
abbrev chopSeenThr : Nat := 0x0313
/-- BLANK_CHOP. -/
abbrev blankChop : Nat := 0x0314
/-- CMP_TEST_PERIOD. -/
abbrev cmpTestPeriod : Nat := 0x0315
/-- CMP_TEST_FAIL. -/
abbrev cmpTestFail : Nat := 0x0316
/-- SCARP_LATCH. -/
abbrev scarpLatch : Nat := 0x0317
/-- SCARP_FIRST. -/
abbrev scarpFirst : Nat := 0x0318
/-- DUTY_LATE. -/
abbrev dutyLate : Nat := 0x0319
/-- DUTY_CLAMP. -/
abbrev dutyClamp : Nat := 0x031A
/-- TRIP_COUNT. -/
abbrev tripCount : Nat := 0x031B
/-- REF_SEL. -/
abbrev refSel : Nat := 0x0400
/-- REF_EXT_NOM. -/
abbrev refExtNom : Nat := 0x0401
/-- CONV_STATUS. -/
abbrev convStatus : Nat := 0x0402
/-- PROF_N. -/
abbrev profN : Nat := 0x0403
/-- PROF_DELAY. -/
abbrev profDelay : Nat := 0x0404
/-- PROF_SPACING. -/
abbrev profSpacing : Nat := 0x0405
/-- PLAUS_WIN. -/
abbrev plausWin : Nat := 0x0406
/-- PLAUS_CNT. -/
abbrev plausCnt : Nat := 0x0407
/-- CHK_WIN. -/
abbrev chkWin : Nat := 0x0408
/-- VM_XCHK. -/
abbrev vmXchk : Nat := 0x0409
/-- OW_PERIOD. -/
abbrev owPeriod : Nat := 0x040A
/-- OW_SETTLE. -/
abbrev owSettle : Nat := 0x040B
/-- OW_CURRENT. -/
abbrev owCurrent : Nat := 0x040C
/-- OW_HI. -/
abbrev owHi : Nat := 0x040D
/-- OW_LO. -/
abbrev owLo : Nat := 0x040E
/-- PROF_TRIG_OVR. -/
abbrev profTrigOvr : Nat := 0x040F
/-- WIN_NTC0. -/
abbrev winNtc0 : Nat := 0x0410
/-- WIN_NTC1. -/
abbrev winNtc1 : Nat := 0x0411
/-- WIN_SIN. -/
abbrev winSin : Nat := 0x0412
/-- WIN_COS. -/
abbrev winCos : Nat := 0x0413
/-- WIN_AIN0. -/
abbrev winAin0 : Nat := 0x0414
/-- WIN_AIN1. -/
abbrev winAin1 : Nat := 0x0415
/-- WIN_REFEXT. -/
abbrev winRefext : Nat := 0x0416
/-- RG_HOST. -/
abbrev rgHost : Nat := 0x0500
/-- SEQ_MODE. -/
abbrev seqMode : Nat := 0x0501
/-- SEQ_FLAGS. -/
abbrev seqFlags : Nat := 0x0502
/-- RG_OVR. -/
abbrev rgOvr : Nat := 0x0503
/-- RG_CYC_PLACED. -/
abbrev rgCycPlaced : Nat := 0x0504
/-- RG_CYC_MAX. -/
abbrev rgCycMax : Nat := 0x0505
/-- RG_NAN. -/
abbrev rgNan : Nat := 0x0506
/-- USR_EN. -/
abbrev usrEn : Nat := 0x0507
/-- USR_OPS. -/
abbrev usrOps : Nat := 0x0508
/-- USR_NAN. -/
abbrev usrNan : Nat := 0x0509
/-- RG_ECC_CORR. -/
abbrev rgEccCorr : Nat := 0x050A
/-- RG_EVT_DROP. -/
abbrev rgEvtDrop : Nat := 0x050B
/-- RG_TEST_PERIOD. -/
abbrev rgTestPeriod : Nat := 0x050C
/-- RG_TEST_STATUS. -/
abbrev rgTestStatus : Nat := 0x050D
/-- RG_BANK. -/
abbrev rgBank : Nat := 0x050E
/-- CTRL_MODE. -/
abbrev ctrlMode : Nat := 0x0600
/-- SP_SRC. -/
abbrev spSrc : Nat := 0x0601
/-- CUR_LIM. -/
abbrev curLim : Nat := 0x0602
/-- IQ_LIM_POS. -/
abbrev iqLimPos : Nat := 0x0603
/-- IQ_LIM_NEG. -/
abbrev iqLimNeg : Nat := 0x0604
/-- ID_REF. -/
abbrev idRef : Nat := 0x0605
/-- CL_KP_D. -/
abbrev clKpD : Nat := 0x0606
/-- CL_KP_Q. -/
abbrev clKpQ : Nat := 0x0607
/-- CL_KI_D. -/
abbrev clKiD : Nat := 0x0608
/-- CL_KI_Q. -/
abbrev clKiQ : Nat := 0x0609
/-- CL_DECOUPLE. -/
abbrev clDecouple : Nat := 0x060A
/-- MOD_MAX. -/
abbrev modMax : Nat := 0x060B
/-- FW_EN. -/
abbrev fwEn : Nat := 0x060C
/-- FW_THR. -/
abbrev fwThr : Nat := 0x060D
/-- FW_KI. -/
abbrev fwKi : Nat := 0x060E
/-- ID_FW_MIN. -/
abbrev idFwMin : Nat := 0x060F
/-- DS_KP_DIFF. -/
abbrev dsKpDiff : Nat := 0x0610
/-- DS_KI_DIFF. -/
abbrev dsKiDiff : Nat := 0x0611
/-- SPD_KP. -/
abbrev spdKp : Nat := 0x0612
/-- SPD_KI. -/
abbrev spdKi : Nat := 0x0613
/-- BAL_KI. -/
abbrev balKi : Nat := 0x0614
/-- SPD_MAX. -/
abbrev spdMax : Nat := 0x0615
/-- ACC_MAX. -/
abbrev accMax : Nat := 0x0616
/-- DEC_MAX. -/
abbrev decMax : Nat := 0x0617
/-- OVERSPEED. -/
abbrev overspeed : Nat := 0x0618
/-- LOAD_J. -/
abbrev loadJ : Nat := 0x0619
/-- AFF_GAIN. -/
abbrev affGain : Nat := 0x061A
/-- POS_KP. -/
abbrev posKp : Nat := 0x061B
/-- VFF_GAIN. -/
abbrev vffGain : Nat := 0x061C
/-- FOLLOW_ERR_MAX. -/
abbrev followErrMax : Nat := 0x061D
/-- SP_OFFSET. -/
abbrev spOffset : Nat := 0x061E
/-- SP_INTERP. -/
abbrev spInterp : Nat := 0x061F
/-- SP_HOLD_CNT. -/
abbrev spHoldCnt : Nat := 0x0620
/-- SP_STOP_CNT. -/
abbrev spStopCnt : Nat := 0x0621
/-- SP_MBX_TIMEOUT. -/
abbrev spMbxTimeout : Nat := 0x0622
/-- SP_MISSED. -/
abbrev spMissed : Nat := 0x0623
/-- CURVE_IN. -/
abbrev curveIn : Nat := 0x0624
/-- CURVE_AUTO. -/
abbrev curveAuto : Nat := 0x0625
/-- CURVE_ON. -/
abbrev curveOn : Nat := 0x0626
/-- CURVE_OFF. -/
abbrev curveOff : Nat := 0x0627
/-- CURVE_FILT. -/
abbrev curveFilt : Nat := 0x0628
/-- CURVE_NPTS. -/
abbrev curveNpts : Nat := 0x0629
/-- PWM_CMD_FILT. -/
abbrev pwmCmdFilt : Nat := 0x062A
/-- PWM_CMD_TIMEOUT. -/
abbrev pwmCmdTimeout : Nat := 0x062B
/-- CTRL_STATUS. -/
abbrev ctrlStatus : Nat := 0x062C
/-- CL_DELAY. -/
abbrev clDelay : Nat := 0x062D
/-- CUR_NO_POINT. -/
abbrev curNoPoint : Nat := 0x062E
/-- CURVE_X0. -/
abbrev curveX0 : Nat := 0x0630
/-- CURVE_Y0. -/
abbrev curveY0 : Nat := 0x0631
/-- CURVE_X1. -/
abbrev curveX1 : Nat := 0x0632
/-- CURVE_Y1. -/
abbrev curveY1 : Nat := 0x0633
/-- CURVE_X2. -/
abbrev curveX2 : Nat := 0x0634
/-- CURVE_Y2. -/
abbrev curveY2 : Nat := 0x0635
/-- CURVE_X3. -/
abbrev curveX3 : Nat := 0x0636
/-- CURVE_Y3. -/
abbrev curveY3 : Nat := 0x0637
/-- CURVE_X4. -/
abbrev curveX4 : Nat := 0x0638
/-- CURVE_Y4. -/
abbrev curveY4 : Nat := 0x0639
/-- CURVE_X5. -/
abbrev curveX5 : Nat := 0x063A
/-- CURVE_Y5. -/
abbrev curveY5 : Nat := 0x063B
/-- CURVE_X6. -/
abbrev curveX6 : Nat := 0x063C
/-- CURVE_Y6. -/
abbrev curveY6 : Nat := 0x063D
/-- CURVE_X7. -/
abbrev curveX7 : Nat := 0x063E
/-- CURVE_Y7. -/
abbrev curveY7 : Nat := 0x063F
/-- CURVE_X8. -/
abbrev curveX8 : Nat := 0x0640
/-- CURVE_Y8. -/
abbrev curveY8 : Nat := 0x0641
/-- CURVE_X9. -/
abbrev curveX9 : Nat := 0x0642
/-- CURVE_Y9. -/
abbrev curveY9 : Nat := 0x0643
/-- CURVE_X10. -/
abbrev curveX10 : Nat := 0x0644
/-- CURVE_Y10. -/
abbrev curveY10 : Nat := 0x0645
/-- CURVE_X11. -/
abbrev curveX11 : Nat := 0x0646
/-- CURVE_Y11. -/
abbrev curveY11 : Nat := 0x0647
/-- CURVE_X12. -/
abbrev curveX12 : Nat := 0x0648
/-- CURVE_Y12. -/
abbrev curveY12 : Nat := 0x0649
/-- CURVE_X13. -/
abbrev curveX13 : Nat := 0x064A
/-- CURVE_Y13. -/
abbrev curveY13 : Nat := 0x064B
/-- CURVE_X14. -/
abbrev curveX14 : Nat := 0x064C
/-- CURVE_Y14. -/
abbrev curveY14 : Nat := 0x064D
/-- CURVE_X15. -/
abbrev curveX15 : Nat := 0x064E
/-- CURVE_Y15. -/
abbrev curveY15 : Nat := 0x064F
/-- CREST_MODE. -/
abbrev crestMode : Nat := 0x0700
/-- MOT_POLE_PAIRS. -/
abbrev motPolePairs : Nat := 0x0701
/-- MOT_RS. -/
abbrev motRs : Nat := 0x0702
/-- MOT_LD. -/
abbrev motLd : Nat := 0x0703
/-- MOT_LQ. -/
abbrev motLq : Nat := 0x0704
/-- MOT_PSI. -/
abbrev motPsi : Nat := 0x0705
/-- MOT_LS. -/
abbrev motLs : Nat := 0x0706
/-- MOT_M. -/
abbrev motM : Nat := 0x0707
/-- MOT_W_RATED. -/
abbrev motWRated : Nat := 0x0708
/-- MOT_T_REF. -/
abbrev motTRef : Nat := 0x0709
/-- CREST_SAL_EN. -/
abbrev crestSalEn : Nat := 0x070A
/-- CREST_SAL_MIN. -/
abbrev crestSalMin : Nat := 0x070B
/-- CREST_FIT_TAU. -/
abbrev crestFitTau : Nat := 0x070C
/-- CREST_EXC_MIN. -/
abbrev crestExcMin : Nat := 0x070D
/-- CREST_XSAT. -/
abbrev crestXsat : Nat := 0x070E
/-- CREST_PLL_BW. -/
abbrev crestPllBw : Nat := 0x070F
/-- CREST_FLUX_TAU. -/
abbrev crestFluxTau : Nat := 0x0710
/-- CREST_CONV_ERR. -/
abbrev crestConvErr : Nat := 0x0711
/-- CREST_CONV_T. -/
abbrev crestConvT : Nat := 0x0712
/-- CREST_LOSS_ERR. -/
abbrev crestLossErr : Nat := 0x0713
/-- CREST_LOSS_T. -/
abbrev crestLossT : Nat := 0x0714
/-- CREST_READ_I. -/
abbrev crestReadI : Nat := 0x0715
/-- CREST_READ_T. -/
abbrev crestReadT : Nat := 0x0716
/-- CREST_POL_I. -/
abbrev crestPolI : Nat := 0x0717
/-- CREST_POL_MIN. -/
abbrev crestPolMin : Nat := 0x0718
/-- CREST_R_TAU. -/
abbrev crestRTau : Nat := 0x0719
/-- CREST_PSI_TAU. -/
abbrev crestPsiTau : Nat := 0x071A
/-- CREST_XCHK_ANG. -/
abbrev crestXchkAng : Nat := 0x071B
/-- CREST_XCHK_T. -/
abbrev crestXchkT : Nat := 0x071C
/-- CREST_XCHK_ACT. -/
abbrev crestXchkAct : Nat := 0x071D
/-- IDENT_SPIN. -/
abbrev identSpin : Nat := 0x071E
/-- CREST_STATUS. -/
abbrev crestStatus : Nat := 0x071F
/-- CREST_SALIENCY. -/
abbrev crestSaliency : Nat := 0x0720
/-- CREST_EXC. -/
abbrev crestExc : Nat := 0x0721
/-- CREST_RS_EST. -/
abbrev crestRsEst : Nat := 0x0722
/-- CREST_PSI_EST. -/
abbrev crestPsiEst : Nat := 0x0723
/-- CREST_T_WIND. -/
abbrev crestTWind : Nat := 0x0724
/-- CREST_T_MAG. -/
abbrev crestTMag : Nat := 0x0725
/-- CREST_W_EST. -/
abbrev crestWEst : Nat := 0x0726
/-- CREST_XCHK_MEAN. -/
abbrev crestXchkMean : Nat := 0x0727
/-- IDENT_STATUS. -/
abbrev identStatus : Nat := 0x0728
/-- CREST_LOST_CNT. -/
abbrev crestLostCnt : Nat := 0x0729
/-- AX_STATE. -/
abbrev axState : Nat := 0x0800
/-- ST_METHOD. -/
abbrev stMethod : Nat := 0x0801
/-- FS_MEAS_T. -/
abbrev fsMeasT : Nat := 0x0802
/-- FS_CATCH. -/
abbrev fsCatch : Nat := 0x0803
/-- FS_REV_EN. -/
abbrev fsRevEn : Nat := 0x0804
/-- FS_CATCH_TIMEOUT. -/
abbrev fsCatchTimeout : Nat := 0x0805
/-- ST_TIMEOUT. -/
abbrev stTimeout : Nat := 0x0806
/-- ST_RETRIES. -/
abbrev stRetries : Nat := 0x0807
/-- ST_RETRY_DELAY. -/
abbrev stRetryDelay : Nat := 0x0808
/-- ST_ALIGN_ANG. -/
abbrev stAlignAng : Nat := 0x0809
/-- ST_ALIGN_I. -/
abbrev stAlignI : Nat := 0x080A
/-- ST_ALIGN_RISE. -/
abbrev stAlignRise : Nat := 0x080B
/-- ST_ALIGN_T. -/
abbrev stAlignT : Nat := 0x080C
/-- ST_RAMP_I. -/
abbrev stRampI : Nat := 0x080D
/-- ST_RAMP_ACC. -/
abbrev stRampAcc : Nat := 0x080E
/-- ST_W_HANDOFF. -/
abbrev stWHandoff : Nat := 0x080F
/-- ST_MERGE_T. -/
abbrev stMergeT : Nat := 0x0810
/-- STOP_DEC. -/
abbrev stopDec : Nat := 0x0811
/-- STOP_I_QUICK. -/
abbrev stopIQuick : Nat := 0x0812
/-- STOP_KIND_FAULT. -/
abbrev stopKindFault : Nat := 0x0813
/-- STOP_W_ZERO. -/
abbrev stopWZero : Nat := 0x0814
/-- STOP_TMAX. -/
abbrev stopTmax : Nat := 0x0815
/-- STALL_W. -/
abbrev stallW : Nat := 0x0816
/-- STALL_T. -/
abbrev stallT : Nat := 0x0817
/-- STALL_I_FRAC. -/
abbrev stallIFrac : Nat := 0x0818
/-- ST_ATTEMPTS. -/
abbrev stAttempts : Nat := 0x0819
/-- ST_LAST_FAIL. -/
abbrev stLastFail : Nat := 0x081A
/-- FB_SRC. -/
abbrev fbSrc : Nat := 0x0900
/-- FB_DIR. -/
abbrev fbDir : Nat := 0x0901
/-- FB_HALL_USE. -/
abbrev fbHallUse : Nat := 0x0902
/-- FB_QEP_LINES. -/
abbrev fbQepLines : Nat := 0x0903
/-- FB_Z_MODE. -/
abbrev fbZMode : Nat := 0x0904
/-- FB_Z_TOL. -/
abbrev fbZTol : Nat := 0x0905
/-- FB_QEP_FILT. -/
abbrev fbQepFilt : Nat := 0x0906
/-- FB_HALL_FILT. -/
abbrev fbHallFilt : Nat := 0x0907
/-- FB_HALL_OFS. -/
abbrev fbHallOfs : Nat := 0x0908
/-- FB_HALL_REV. -/
abbrev fbHallRev : Nat := 0x0909
/-- FB_HALL_TOL. -/
abbrev fbHallTol : Nat := 0x090A
/-- FB_ANGLE_OFS. -/
abbrev fbAngleOfs : Nat := 0x090B
/-- FB_SC_PERIODS. -/
abbrev fbScPeriods : Nat := 0x090C
/-- FB_SC_DELAY. -/
abbrev fbScDelay : Nat := 0x090D
/-- FB_SC_AMIN. -/
abbrev fbScAmin : Nat := 0x090E
/-- FB_SC_AMAX. -/
abbrev fbScAmax : Nat := 0x090F
/-- FB_SER_RATE. -/
abbrev fbSerRate : Nat := 0x0910
/-- FB_SER_TMO. -/
abbrev fbSerTmo : Nat := 0x0911
/-- FB_SER_LINEDLY. -/
abbrev fbSerLinedly : Nat := 0x0912
/-- FB_SER_LAT. -/
abbrev fbSerLat : Nat := 0x0913
/-- FB_SER_DELAY. -/
abbrev fbSerDelay : Nat := 0x0914
/-- FB_SER_DIV. -/
abbrev fbSerDiv : Nat := 0x0915
/-- FB_SER_ERRMAX. -/
abbrev fbSerErrmax : Nat := 0x0916
/-- FB_SER_CFG. -/
abbrev fbSerCfg : Nat := 0x0917
/-- FB_SER_CRC. -/
abbrev fbSerCrc : Nat := 0x0918
/-- FB_SER_FIELD0. -/
abbrev fbSerField0 : Nat := 0x0919
/-- FB_SER_FIELD1. -/
abbrev fbSerField1 : Nat := 0x091A
/-- FB_SER_FIELD2. -/
abbrev fbSerField2 : Nat := 0x091B
/-- FB_SER_FIELD3. -/
abbrev fbSerField3 : Nat := 0x091C
/-- FB_SER_FIELD4. -/
abbrev fbSerField4 : Nat := 0x091D
/-- FB_SER_FIELD5. -/
abbrev fbSerField5 : Nat := 0x091E
/-- FB_SER_FIELD6. -/
abbrev fbSerField6 : Nat := 0x091F
/-- FB_SER_FIELD7. -/
abbrev fbSerField7 : Nat := 0x0920
/-- FB_JUMP_MAX. -/
abbrev fbJumpMax : Nat := 0x0921
/-- FB_STANDSTILL_T. -/
abbrev fbStandstillT : Nat := 0x0922
/-- FB_SPD_WIN. -/
abbrev fbSpdWin : Nat := 0x0923
/-- FB_SPD_N1. -/
abbrev fbSpdN1 : Nat := 0x0924
/-- FB_SPD_N2. -/
abbrev fbSpdN2 : Nat := 0x0925
/-- FB_SMP_GRID. -/
abbrev fbSmpGrid : Nat := 0x0926
/-- FB_TERM. -/
abbrev fbTerm : Nat := 0x0927
/-- EMU_EN. -/
abbrev emuEn : Nat := 0x0928
/-- EMU_NUM. -/
abbrev emuNum : Nat := 0x0929
/-- EMU_DEN. -/
abbrev emuDen : Nat := 0x092A
/-- EMU_Z_OFS. -/
abbrev emuZOfs : Nat := 0x092B
/-- CMP_CFG0. -/
abbrev cmpCfg0 : Nat := 0x0930
/-- CMP_VAL_FRAC0. -/
abbrev cmpValFrac0 : Nat := 0x0931
/-- CMP_VAL_TURN0. -/
abbrev cmpValTurn0 : Nat := 0x0932
/-- CMP_STEP0. -/
abbrev cmpStep0 : Nat := 0x0933
/-- CMP_N0. -/
abbrev cmpN0 : Nat := 0x0934
/-- CMP_PULSE0. -/
abbrev cmpPulse0 : Nat := 0x0935
/-- CMP_HITS0. -/
abbrev cmpHits0 : Nat := 0x0936
/-- CMP_OVR0. -/
abbrev cmpOvr0 : Nat := 0x0937
/-- CMP_CFG1. -/
abbrev cmpCfg1 : Nat := 0x0938
/-- CMP_VAL_FRAC1. -/
abbrev cmpValFrac1 : Nat := 0x0939
/-- CMP_VAL_TURN1. -/
abbrev cmpValTurn1 : Nat := 0x093A
/-- CMP_STEP1. -/
abbrev cmpStep1 : Nat := 0x093B
/-- CMP_N1. -/
abbrev cmpN1 : Nat := 0x093C
/-- CMP_PULSE1. -/
abbrev cmpPulse1 : Nat := 0x093D
/-- CMP_HITS1. -/
abbrev cmpHits1 : Nat := 0x093E
/-- CMP_OVR1. -/
abbrev cmpOvr1 : Nat := 0x093F
/-- CAP_CFG0. -/
abbrev capCfg0 : Nat := 0x0940
/-- CAP_CFG1. -/
abbrev capCfg1 : Nat := 0x0941
/-- CAP_FILT. -/
abbrev capFilt : Nat := 0x0942
/-- CAP_OVR. -/
abbrev capOvr : Nat := 0x0943
/-- FB_STATUS. -/
abbrev fbStatus : Nat := 0x0948
/-- FB_POS_FRAC. -/
abbrev fbPosFrac : Nat := 0x0949
/-- FB_POS_TURN. -/
abbrev fbPosTurn : Nat := 0x094A
/-- FB_SPEED. -/
abbrev fbSpeed : Nat := 0x094B
/-- QERR. -/
abbrev qerr : Nat := 0x094C
/-- HALL_ERR. -/
abbrev hallErr : Nat := 0x094D
/-- Z_ERR. -/
abbrev zErr : Nat := 0x094E
/-- SER_ERR. -/
abbrev serErr : Nat := 0x094F
/-- OV1. -/
abbrev ov1 : Nat := 0x0A00
/-- OV2. -/
abbrev ov2 : Nat := 0x0A01
/-- OV3. -/
abbrev ov3 : Nat := 0x0A02
/-- CHOP_HYST. -/
abbrev chopHyst : Nat := 0x0A03
/-- CHOP_EN. -/
abbrev chopEn : Nat := 0x0A04
/-- BRK_R. -/
abbrev brkR : Nat := 0x0A05
/-- BRK_P_CONT. -/
abbrev brkPCont : Nat := 0x0A06
/-- BRK_TAU. -/
abbrev brkTau : Nat := 0x0A07
/-- CHOP_MIN_ON. -/
abbrev chopMinOn : Nat := 0x0A08
/-- CHOP_SEEN_T. -/
abbrev chopSeenT : Nat := 0x0A09
/-- REGEN_P_MAX. -/
abbrev regenPMax : Nat := 0x0A0A
/-- ESC_T. -/
abbrev escT : Nat := 0x0A0B
/-- ASC_I_DECL. -/
abbrev ascIDecl : Nat := 0x0A0C
/-- BRK_LOAD. -/
abbrev brkLoad : Nat := 0x0A0D
/-- BUS_STATUS. -/
abbrev busStatus : Nat := 0x0A0E
/-- VM_HI. -/
abbrev vmHi : Nat := 0x0A0F
/-- CHOP_ON_COUNT. -/
abbrev chopOnCount : Nat := 0x0A10
/-- FAULT_N_LEVEL. -/
abbrev faultNLevel : Nat := 0x0A11
/-- FAULT_N_PULSE. -/
abbrev faultNPulse : Nat := 0x0A12
/-- FAULT_N_PULSE_CLS. -/
abbrev faultNPulseCls : Nat := 0x0A13
/-- FAULT_ACTIVE_N. -/
abbrev faultActiveN : Nat := 0x0A14
/-- FAULT_TOP. -/
abbrev faultTop : Nat := 0x0A15
/-- LOG_SEQ. -/
abbrev logSeq : Nat := 0x0A16
/-- TJ_WARN. -/
abbrev tjWarn : Nat := 0x0B00
/-- TJ_LIMIT. -/
abbrev tjLimit : Nat := 0x0B01
/-- TJ_STOP. -/
abbrev tjStop : Nat := 0x0B02
/-- TJ_TRIP. -/
abbrev tjTrip : Nat := 0x0B03
/-- TH_HYST. -/
abbrev thHyst : Nat := 0x0B04
/-- TH_REARM. -/
abbrev thRearm : Nat := 0x0B05
/-- TH_AUTO_REARM. -/
abbrev thAutoRearm : Nat := 0x0B06
/-- TH_GRACE. -/
abbrev thGrace : Nat := 0x0B07
/-- TH_DERATE_MIN. -/
abbrev thDerateMin : Nat := 0x0B08
/-- TH_STOP_T. -/
abbrev thStopT : Nat := 0x0B09
/-- TW_WARN. -/
abbrev twWarn : Nat := 0x0B0A
/-- TW_LIMIT. -/
abbrev twLimit : Nat := 0x0B0B
/-- TW_STOP. -/
abbrev twStop : Nat := 0x0B0C
/-- TW_SRC. -/
abbrev twSrc : Nat := 0x0B0D
/-- NTC_R25. -/
abbrev ntcR25 : Nat := 0x0B0E
/-- NTC_BETA. -/
abbrev ntcBeta : Nat := 0x0B0F
/-- NTC_RPU. -/
abbrev ntcRpu : Nat := 0x0B10
/-- T_CASE_EST. -/
abbrev tCaseEst : Nat := 0x0B11
/-- P_EST. -/
abbrev pEst : Nat := 0x0B12
/-- T_WIND. -/
abbrev tWind : Nat := 0x0B13
/-- TH_STATUS. -/
abbrev thStatus : Nat := 0x0B14
/-- T_MAX. -/
abbrev tMax : Nat := 0x0B15
/-- LEDGER_BUDGET. -/
abbrev ledgerBudget : Nat := 0x0C00
/-- LEDGER_TOTAL. -/
abbrev ledgerTotal : Nat := 0x0C01
/-- LEDGER_LOAD. -/
abbrev ledgerLoad : Nat := 0x0C02
/-- CAIRN_STATUS. -/
abbrev cairnStatus : Nat := 0x0C03
/-- DECL_ID. -/
abbrev declId : Nat := 0x0C04
/-- PLACE_ID. -/
abbrev placeId : Nat := 0x0C05
/-- CAIRN_LAST_REJECT. -/
abbrev cairnLastReject : Nat := 0x0C06
/-- REPLACE_COUNT. -/
abbrev replaceCount : Nat := 0x0C07
/-- REPLACE_T_MAX. -/
abbrev replaceTMax : Nat := 0x0C08
/-- STREAM_DROP. -/
abbrev streamDrop : Nat := 0x0C09
/-- SRAM_RING_FREE. -/
abbrev sramRingFree : Nat := 0x0C0A
/-- MRAM_STREAM_FREE. -/
abbrev mramStreamFree : Nat := 0x0C0B
/-- NET_PORT_EN. -/
abbrev netPortEn : Nat := 0x0D00
/-- NET_MAC_HI. -/
abbrev netMacHi : Nat := 0x0D01
/-- NET_MAC_LO. -/
abbrev netMacLo : Nat := 0x0D02
/-- IP_ADDR. -/
abbrev ipAddr : Nat := 0x0D03
/-- IP_MASK. -/
abbrev ipMask : Nat := 0x0D04
/-- IP_GW. -/
abbrev ipGw : Nat := 0x0D05
/-- TV_UDP_PORT. -/
abbrev tvUdpPort : Nat := 0x0D06
/-- TV_ETHERTYPE. -/
abbrev tvEthertype : Nat := 0x0D07
/-- TV_VID. -/
abbrev tvVid : Nat := 0x0D08
/-- TV_PCP. -/
abbrev tvPcp : Nat := 0x0D09
/-- TV_REQ_SYNC. -/
abbrev tvReqSync : Nat := 0x0D0A
/-- TV_RX_SET. -/
abbrev tvRxSet : Nat := 0x0D0B
/-- TV_TX_WORDS. -/
abbrev tvTxWords : Nat := 0x0D0C
/-- GPTP_PRIO1. -/
abbrev gptpPrio1 : Nat := 0x0D0D
/-- GPTP_PRIO2. -/
abbrev gptpPrio2 : Nat := 0x0D0E
/-- GPTP_LOG_SYNC. -/
abbrev gptpLogSync : Nat := 0x0D0F
/-- GPTP_LOG_PDELAY. -/
abbrev gptpLogPdelay : Nat := 0x0D10
/-- GPTP_SYNC_THR. -/
abbrev gptpSyncThr : Nat := 0x0D11
/-- GPTP_STATE. -/
abbrev gptpState : Nat := 0x0D12
/-- RMII1_RX_LAT. -/
abbrev rmii1RxLat : Nat := 0x0D13
/-- RMII1_TX_LAT. -/
abbrev rmii1TxLat : Nat := 0x0D14
/-- RMII2_RX_LAT. -/
abbrev rmii2RxLat : Nat := 0x0D15
/-- RMII2_TX_LAT. -/
abbrev rmii2TxLat : Nat := 0x0D16
/-- NET_AGE. -/
abbrev netAge : Nat := 0x0D17
/-- T1S_PLCA_ID. -/
abbrev t1sPlcaId : Nat := 0x0D18
/-- T1S_PLCA_CNT. -/
abbrev t1sPlcaCnt : Nat := 0x0D19
/-- T1S_PLCA_TO. -/
abbrev t1sPlcaTo : Nat := 0x0D1A
/-- T1S_PLCA_BURST. -/
abbrev t1sPlcaBurst : Nat := 0x0D1B
/-- TV_RX_ERR. -/
abbrev tvRxErr : Nat := 0x0D1C
/-- TV_TX_LATE. -/
abbrev tvTxLate : Nat := 0x0D1D
/-- NET_HOST_DROP. -/
abbrev netHostDrop : Nat := 0x0D1E
/-- RMII_PHYAD. -/
abbrev rmiiPhyad : Nat := 0x0D1F
/-- CAN_EN. -/
abbrev canEn : Nat := 0x0D20
/-- CAN_NODE. -/
abbrev canNode : Nat := 0x0D21
/-- CAN_NBR. -/
abbrev canNbr : Nat := 0x0D22
/-- CAN_DBR. -/
abbrev canDbr : Nat := 0x0D23
/-- CAN_NSP. -/
abbrev canNsp : Nat := 0x0D24
/-- CAN_DSP. -/
abbrev canDsp : Nat := 0x0D25
/-- CAN_ROLE. -/
abbrev canRole : Nat := 0x0D26
/-- CAN_POS_BITS. -/
abbrev canPosBits : Nat := 0x0D27
/-- CAN_I_RATED. -/
abbrev canIRated : Nat := 0x0D28
/-- CAN_ABORT_OPT. -/
abbrev canAbortOpt : Nat := 0x0D29
/-- CAN_STATUS. -/
abbrev canStatus : Nat := 0x0D2A
/-- CAN_BUSOFF_CNT. -/
abbrev canBusoffCnt : Nat := 0x0D2B
/-- PORT_ERR. -/
abbrev portErr : Nat := 0x0D2C
/-- OTP_STATUS. -/
abbrev otpStatus : Nat := 0x0E00
/-- KEY_STATUS. -/
abbrev keyStatus : Nat := 0x0E01
/-- INSTALLER_OPT. -/
abbrev installerOpt : Nat := 0x0E02
/-- ROLE_LOCK. -/
abbrev roleLock : Nat := 0x0E03
/-- AUDIT_SEQ. -/
abbrev auditSeq : Nat := 0x0E04
/-- MRAM_SCRUB_PERIOD. -/
abbrev mramScrubPeriod : Nat := 0x0E05
/-- MRAM_CORR. -/
abbrev mramCorr : Nat := 0x0E06
/-- MRAM_LOST. -/
abbrev mramLost : Nat := 0x0E07
/-- XSP_EN. -/
abbrev xspEn : Nat := 0x0F00
/-- XSP_LANES. -/
abbrev xspLanes : Nat := 0x0F01
/-- XSP_DIV. -/
abbrev xspDiv : Nat := 0x0F02
/-- XSP_MARGIN. -/
abbrev xspMargin : Nat := 0x0F03
/-- XSP_STREAM_SIZE. -/
abbrev xspStreamSize : Nat := 0x0F04
/-- XSP_STAGE. -/
abbrev xspStage : Nat := 0x0F05
/-- XSP_POLL_T. -/
abbrev xspPollT : Nat := 0x0F06
/-- XSP_STATUS. -/
abbrev xspStatus : Nat := 0x0F07
/-- XSP_JEDEC_ID. -/
abbrev xspJedecId : Nat := 0x0F08
/-- XSP_CAPACITY. -/
abbrev xspCapacity : Nat := 0x0F09
/-- XSP_CLK_ACT. -/
abbrev xspClkAct : Nat := 0x0F0A
/-- XSP_RATE_MAX. -/
abbrev xspRateMax : Nat := 0x0F0B
/-- XSP_ERR. -/
abbrev xspErr : Nat := 0x0F0C
end Par

/-- Rows of the 0x0000 range. -/
def parTable0 : List PDef := [
  ⟨0x0000, .u32, .readOnly, .any, 0x7502, .operator, .none, false⟩,
  ⟨0x0001, .u8, .readOnly, .any, 3, .operator, .none, false⟩,
  ⟨0x0002, .u32, .readOnly, .any, 0x40100, .operator, .none, false⟩,
  ⟨0x0003, .u32, .readOnly, .any, 0, .operator, .none, false⟩,
  ⟨0x0004, .u32, .readOnly, .any, 0, .operator, .none, false⟩,
  ⟨0x0005, .u32, .readOnly, .any, 0, .operator, .none, false⟩,
  ⟨0x0006, .u8, .readOnly, .any, 0, .operator, .none, false⟩,
  ⟨0x0007, .u8, .readOnly, .any, 0, .operator, .none, false⟩,
  ⟨0x0008, .u16, .readOnly, .any, 0, .operator, .none, false⟩,
  ⟨0x0009, .f32, .readOnly, .any, 0x00000000, .operator, .none, false⟩,
  ⟨0x000A, .u16, .readOnly, .any, 0xFFFF, .operator, .none, false⟩,
  ⟨0x000B, .u16, .readOnly, .any, 0xFFFF, .operator, .none, false⟩,
  ⟨0x000C, .u16, .readOnly, .any, 0xFFFF, .operator, .none, false⟩,
  ⟨0x000D, .u16, .readOnly, .any, 0xFFFF, .operator, .none, false⟩,
  ⟨0x000E, .u16, .readOnly, .any, 0xFFFF, .operator, .none, false⟩,
  ⟨0x000F, .u16, .readOnly, .any, 0xFFFF, .operator, .none, false⟩,
  ⟨0x0010, .u16, .readOnly, .any, 0xFFFF, .operator, .none, false⟩,
  ⟨0x0011, .u16, .readOnly, .any, 0xFFFF, .operator, .none, false⟩,
  ⟨0x0012, .u16, .readOnly, .any, 0, .operator, .none, false⟩,
  ⟨0x0013, .u8, .readOnly, .any, 0xFF, .operator, .none, false⟩]

/-- Rows of the 0x0100 range. -/
def parTable1 : List PDef := [
  ⟨0x0100, .u8, .readOnly, .any, 0, .operator, .none, false⟩,
  ⟨0x0101, .u8, .readOnly, .any, 0, .operator, .none, false⟩,
  ⟨0x0102, .f32, .writable, .f 0x41F00000 0x42100000, 0x42040000, .installer, .immediate, false⟩,
  ⟨0x0103, .f32, .writable, .f 0x3F800000 0x40C00000, 0x40400000, .installer, .immediate, false⟩,
  ⟨0x0104, .f32, .writable, .f 0x41C00000 0x41F00000, 0x41E00000, .installer, .immediate, false⟩,
  ⟨0x0105, .u8, .writable, .oneOf [0, 1], 1, .installer, .immediate, false⟩,
  ⟨0x0106, .f32, .writable, .f 0x3F000000 0x40A00000, 0x3F800000, .installer, .immediate, false⟩,
  ⟨0x0107, .f32, .writable, .f 0x40A00000 0x43FA0000, 0x43480000, .installer, .immediate, false⟩,
  ⟨0x0108, .f32, .writable, .f 0x3DCCCCCD 0x41200000, 0x3F800000, .installer, .immediate, false⟩,
  ⟨0x0109, .u8, .writable, .n 0 7, 3, .installer, .immediate, false⟩,
  ⟨0x010A, .f32, .writable, .f 0x41C80000 0x42C80000, 0x42480000, .installer, .immediate, false⟩,
  ⟨0x010B, .f32, .writable, .f 0x41200000 0x461C4000, 0x43FA0000, .installer, .immediate, false⟩,
  ⟨0x010C, .f32, .writable, .f 0x3F800000 0x42C80000, 0x41200000, .installer, .immediate, false⟩,
  ⟨0x010D, .u8, .writable, .mask 0x3, 1, .installer, .immediate, false⟩,
  ⟨0x010E, .u8, .writable, .mask 0x3, 1, .installer, .immediate, false⟩,
  ⟨0x010F, .u8, .writable, .oneOf [0, 1], 0, .installer, .immediate, false⟩,
  ⟨0x0110, .u8, .writable, .oneOf [0, 1, 2], 0, .installer, .immediate, false⟩,
  ⟨0x0111, .u8, .writable, .mask 0x7, 7, .installer, .immediate, false⟩,
  ⟨0x0112, .u16, .writable, .n 1 0x3E8, 0x64, .installer, .immediate, false⟩,
  ⟨0x0113, .u16, .writable, .n 1 0x3E8, 0x64, .installer, .immediate, false⟩,
  ⟨0x0114, .u16, .writable, .n 1 0x3E8, 1, .installer, .immediate, false⟩]

/-- Rows of the 0x0200 range. -/
def parTable2 : List PDef := [
  ⟨0x0200, .u8, .writable, .oneOf [0, 1], 0, .installer, .placement, true⟩,
  ⟨0x0201, .u8, .writable, .oneOf [0, 30], 0, .installer, .placement, true⟩,
  ⟨0x0202, .f32, .writable, .f 0x41200000 0x43FA0000, 0x42200000, .installer, .placement, true⟩,
  ⟨0x0203, .f32, .writable, .f 0x3E4CCCCD 0x40A00000, 0x3F800000, .installer, .placement, true⟩,
  ⟨0x0204, .u8, .writable, .oneOf [0, 1], 0, .installer, .immediate, true⟩,
  ⟨0x0205, .u8, .writable, .n 0 3, 2, .installer, .enable, true⟩,
  ⟨0x0206, .u8, .writable, .oneOf [0, 1], 1, .installer, .enable, true⟩,
  ⟨0x0207, .f32, .writable, .f 0x40400000 0x42480000, 0x40800000, .installer, .enable, true⟩,
  ⟨0x0208, .f32, .writable, .f 0x41200000 0x42C80000, 0x42200000, .installer, .enable, true⟩,
  ⟨0x0209, .f32, .writable, .f 0x00000000 0x41200000, 0x3F800000, .installer, .enable, true⟩,
  ⟨0x020A, .f32, .writable, .f 0x40400000 0x42C80000, 0x41A00000, .installer, .enable, true⟩,
  ⟨0x020B, .f32, .writable, .f 0x3F000000 0x41200000, 0x40000000, .installer, .immediate, true⟩,
  ⟨0x020C, .u8, .writable, .oneOf [0, 1], 0, .installer, .immediate, true⟩,
  ⟨0x020D, .f32, .writable, .f 0x3F000000 0x42480000, 0x40000000, .installer, .immediate, true⟩,
  ⟨0x020E, .u8, .readOnly, .any, 0, .operator, .none, true⟩,
  ⟨0x020F, .u8, .writable, .oneOf [0, 1], 0, .installer, .enable, true⟩,
  ⟨0x0210, .f32, .writable, .f 0x41200000 0x447A0000, 0x42C80000, .installer, .immediate, true⟩,
  ⟨0x0211, .f32, .writable, .f 0x41A00000 0x42C80000, 0x42480000, .installer, .immediate, true⟩,
  ⟨0x0212, .f32, .writable, .f 0x00000000 0x447A0000, 0x43160000, .installer, .enable, true⟩,
  ⟨0x0213, .f32, .writable, .f 0x00000000 0x447A0000, 0x43480000, .installer, .enable, true⟩,
  ⟨0x0214, .f32, .writable, .f 0x41200000 0x43FA0000, 0x42480000, .installer, .immediate, true⟩,
  ⟨0x0215, .u16, .writable, .n 1 0x3E8, 0x64, .installer, .immediate, false⟩,
  ⟨0x0216, .f32, .writable, .f 0x3F800000 0x447A0000, 0x42C80000, .installer, .immediate, false⟩,
  ⟨0x0217, .f32, .readOnly, .any, 0x00000000, .operator, .none, true⟩,
  ⟨0x0218, .f32, .readOnly, .any, 0x00000000, .operator, .none, true⟩,
  ⟨0x0219, .u32, .counter, .any, 0, .operator, .immediate, true⟩]

/-- Rows of the 0x0300 range. -/
def parTable3 : List PDef := [
  ⟨0x0300, .f32, .writable, .f 0x41A00000 0x43480000, 0x42C80000, .installer, .placement, true⟩,
  ⟨0x0301, .f32, .readOnly, .any, 0x00000000, .operator, .none, true⟩,
  ⟨0x0302, .u8, .writable, .n 1 0x10, 2, .installer, .placement, true⟩,
  ⟨0x0303, .u8, .writable, .oneOf [1, 2, 3], 2, .installer, .placement, true⟩,
  ⟨0x0304, .u8, .writable, .oneOf [0, 1], 0, .installer, .immediate, true⟩,
  ⟨0x0305, .f32, .writable, .fBelow 0x00000000 0x43C80000, 0x00000000, .installer, .immediate, true⟩,
  ⟨0x0306, .f32, .writable, .f 0x3F800000 0x42C80000, 0x41200000, .installer, .immediate, true⟩,
  ⟨0x0307, .f32, .writable, .f 0x42480000 0x44FA0000, 0x43FA0000, .installer, .immediate, true⟩,
  ⟨0x0308, .u16, .writable, .n 0x10 0x1000, 0x100, .installer, .immediate, true⟩,
  ⟨0x0309, .f32, .writable, .f 0x42200000 0x447A0000, 0x42C80000, .installer, .immediate, true⟩,
  ⟨0x030A, .f32, .writable, .f 0x3C23D70A 0x42700000, 0x3F800000, .installer, .immediate, true⟩,
  ⟨0x030B, .u8, .readOnly, .any, 0, .operator, .none, true⟩,
  ⟨0x030C, .f32, .readOnly, .any, 0x00000000, .operator, .none, true⟩,
  ⟨0x030D, .f32, .writable, .f 0x41200000 0x423C0000, 0x42340000, .installer, .immediate, true⟩,
  ⟨0x030E, .f32, .writable, .f 0x42700000 0x43FA0000, 0x42C80000, .installer, .placement, true⟩,
  ⟨0x030F, .f32, .writable, .f 0x40400000 0x41200000, 0x40A00000, .installer, .immediate, true⟩,
  ⟨0x0310, .u8, .writable, .mask 0x7, 0, .installer, .immediate, true⟩,
  ⟨0x0311, .f32, .writable, .f 0x42700000 0x43FA0000, 0x42A00000, .installer, .placement, false⟩,
  ⟨0x0312, .f32, .writable, .f 0x41A00000 0x42400000, 0x42300000, .installer, .immediate, false⟩,
  ⟨0x0313, .f32, .writable, .f 0x3F000000 0x40A00000, 0x3F800000, .installer, .immediate, false⟩,
  ⟨0x0314, .f32, .writable, .f 0x42700000 0x43FA0000, 0x42C80000, .installer, .placement, false⟩,
  ⟨0x0315, .f32, .writable, .fOff 0x3DCCCCCD 0x42700000, 0x3F800000, .installer, .immediate, false⟩,
  ⟨0x0316, .u32, .readOnly, .any, 0, .operator, .none, false⟩,
  ⟨0x0317, .u32, .readOnly, .any, 0, .operator, .none, false⟩,
  ⟨0x0318, .u8, .readOnly, .any, 0xFF, .operator, .none, true⟩,
  ⟨0x0319, .u32, .counter, .any, 0, .operator, .immediate, true⟩,
  ⟨0x031A, .u32, .counter, .any, 0, .operator, .immediate, true⟩,
  ⟨0x031B, .u32, .counter, .any, 0, .operator, .immediate, true⟩]

/-- Rows of the 0x0400 range. -/
def parTable4 : List PDef := [
  ⟨0x0400, .u8, .writable, .oneOf [0, 1, 2], 0, .installer, .placement, true⟩,
  ⟨0x0401, .f32, .writable, .f 0x4019999A 0x40533333, 0x40200000, .installer, .placement, false⟩,
  ⟨0x0402, .u16, .readOnly, .any, 0x8000, .operator, .none, true⟩,
  ⟨0x0403, .u8, .writable, .n 1 0x10, 8, .installer, .placement, true⟩,
  ⟨0x0404, .f32, .writable, .f 0x00000000 0x47C35000, 0x43160000, .installer, .placement, true⟩,
  ⟨0x0405, .f32, .writable, .f 0x437A0000 0x47435000, 0x43FA0000, .installer, .placement, true⟩,
  ⟨0x0406, .u16, .writable, .n 0x10 0x1000, 0xC8, .installer, .immediate, false⟩,
  ⟨0x0407, .u8, .writable, .n 1 0x40, 4, .installer, .immediate, false⟩,
  ⟨0x0408, .u16, .writable, .n 4 0x200, 0x20, .installer, .immediate, false⟩,
  ⟨0x0409, .f32, .writable, .f 0x3F000000 0x41200000, 0x40000000, .installer, .immediate, false⟩,
  ⟨0x040A, .f32, .writable, .fOff 0x41200000 0x461C4000, 0x42C80000, .installer, .placement, false⟩,
  ⟨0x040B, .f32, .writable, .f 0x3DCCCCCD 0x41A00000, 0x3F800000, .installer, .placement, false⟩,
  ⟨0x040C, .u8, .writable, .oneOf [0, 1], 0, .installer, .immediate, false⟩,
  ⟨0x040D, .f32, .writable, .f 0x40200000 0x40533333, 0x40400000, .installer, .immediate, false⟩,
  ⟨0x040E, .f32, .writable, .f 0x00000000 0x3F4CCCCD, 0x3E99999A, .installer, .immediate, false⟩,
  ⟨0x040F, .u32, .counter, .any, 0, .operator, .immediate, true⟩,
  ⟨0x0410, .u32, .writable, .window false, 0xA666028F, .installer, .immediate, true⟩,
  ⟨0x0411, .u32, .writable, .window false, 0xA666028F, .installer, .immediate, true⟩,
  ⟨0x0412, .u32, .writable, .window true, 0x4CCCB334, .installer, .immediate, true⟩,
  ⟨0x0413, .u32, .writable, .window true, 0x4CCCB334, .installer, .immediate, true⟩,
  ⟨0x0414, .u32, .writable, .window false, 0xA666028F, .installer, .immediate, false⟩,
  ⟨0x0415, .u32, .writable, .window false, 0xA666028F, .installer, .immediate, false⟩,
  ⟨0x0416, .u32, .writable, .window false, 0xAB8575C3, .installer, .immediate, false⟩]

/-- Rows of the 0x0500 range. -/
def parTable5 : List PDef := [
  ⟨0x0500, .u8, .readOnly, .any, 0xFF, .operator, .none, true⟩,
  ⟨0x0501, .u8, .readOnly, .any, 0, .operator, .none, true⟩,
  ⟨0x0502, .u16, .readOnly, .any, 0, .operator, .none, true⟩,
  ⟨0x0503, .u32, .counter, .any, 0, .operator, .immediate, true⟩,
  ⟨0x0504, .u16, .readOnly, .any, 0, .operator, .none, true⟩,
  ⟨0x0505, .u16, .counter, .any, 0, .operator, .immediate, true⟩,
  ⟨0x0506, .u32, .counter, .any, 0, .operator, .immediate, true⟩,
  ⟨0x0507, .u8, .writable, .mask 0xF, 0, .installer, .placement, true⟩,
  ⟨0x0508, .u16, .readOnly, .any, 0, .operator, .none, true⟩,
  ⟨0x0509, .u32, .counter, .any, 0, .operator, .immediate, true⟩,
  ⟨0x050A, .u32, .counter, .any, 0, .operator, .immediate, false⟩,
  ⟨0x050B, .u32, .counter, .any, 0, .operator, .immediate, false⟩,
  ⟨0x050C, .f32, .writable, .fOff 0x41200000 0x47A8C000, 0x00000000, .installer, .immediate, false⟩,
  ⟨0x050D, .u8, .readOnly, .any, 0, .operator, .none, false⟩,
  ⟨0x050E, .u8, .readOnly, .any, 0, .operator, .none, false⟩]

/-- Rows of the 0x0600 range. -/
def parTable6_0 : List PDef := [
  ⟨0x0600, .u8, .writable, .oneOf [0, 1, 2], 1, .operator, .boundary, true⟩,
  ⟨0x0601, .u8, .writable, .oneOf [0, 1, 2, 3], 0, .installer, .enable, true⟩,
  ⟨0x0602, .f32, .writable, .f 0x00000000 0x428C0000, 0x41200000, .installer, .boundary, true⟩,
  ⟨0x0603, .f32, .writable, .f 0x00000000 0x428C0000, 0x428C0000, .installer, .boundary, true⟩,
  ⟨0x0604, .f32, .writable, .f 0x00000000 0x428C0000, 0x428C0000, .installer, .boundary, true⟩,
  ⟨0x0605, .f32, .writable, .f 0xC20C0000 0x00000000, 0x00000000, .installer, .boundary, true⟩,
  ⟨0x0606, .f32, .writable, .f 0x00000000 0x42C80000, 0x3F000000, .installer, .boundary, true⟩,
  ⟨0x0607, .f32, .writable, .f 0x00000000 0x42C80000, 0x3F000000, .installer, .boundary, true⟩,
  ⟨0x0608, .f32, .writable, .f 0x00000000 0x49742400, 0x447A0000, .installer, .boundary, true⟩,
  ⟨0x0609, .f32, .writable, .f 0x00000000 0x49742400, 0x447A0000, .installer, .boundary, true⟩,
  ⟨0x060A, .u8, .writable, .mask 0x7, 7, .installer, .placement, true⟩,
  ⟨0x060B, .f32, .writable, .f 0x3F000000 0x3F800000, 0x3F75C28F, .installer, .boundary, true⟩,
  ⟨0x060C, .u8, .writable, .oneOf [0, 1], 1, .installer, .placement, true⟩,
  ⟨0x060D, .f32, .writable, .f 0x3F4CCCCD 0x3F7D70A4, 0x3F6B851F, .installer, .boundary, true⟩,
  ⟨0x060E, .f32, .writable, .f 0x00000000 0x49742400, 0x44FA0000, .installer, .boundary, true⟩,
  ⟨0x060F, .f32, .writable, .f 0xC28C0000 0x00000000, 0xC1200000, .installer, .boundary, true⟩,
  ⟨0x0610, .f32, .writable, .f 0x00000000 0x42C80000, 0x3E4CCCCD, .installer, .boundary, true⟩,
  ⟨0x0611, .f32, .writable, .f 0x00000000 0x49742400, 0x43FA0000, .installer, .boundary, true⟩,
  ⟨0x0612, .f32, .writable, .f 0x00000000 0x447A0000, 0x3DCCCCCD, .installer, .boundary, true⟩,
  ⟨0x0613, .f32, .writable, .f 0x00000000 0x49742400, 0x40A00000, .installer, .boundary, true⟩,
  ⟨0x0614, .f32, .writable, .f 0x00000000 0x42C80000, 0x40000000, .installer, .boundary, true⟩,
  ⟨0x0615, .f32, .writable, .f 0x00000000 0x44FA0000, 0x43960000, .installer, .boundary, true⟩,
  ⟨0x0616, .f32, .writable, .f 0x3F800000 0x49742400, 0x461C4000, .installer, .boundary, true⟩,
  ⟨0x0617, .f32, .writable, .f 0x3F800000 0x49742400, 0x461C4000, .installer, .boundary, true⟩,
  ⟨0x0618, .f32, .writable, .f 0x3F800000 0x45098000, 0x43A50000, .installer, .boundary, true⟩,
  ⟨0x0619, .f32, .writable, .f 0x33D6BF95 0x41200000, 0x38D1B717, .installer, .boundary, true⟩,
  ⟨0x061A, .f32, .writable, .f 0x00000000 0x40000000, 0x3F800000, .installer, .boundary, true⟩,
  ⟨0x061B, .f32, .writable, .f 0x00000000 0x459C4000, 0x42480000, .installer, .boundary, true⟩,
  ⟨0x061C, .f32, .writable, .f 0x00000000 0x40000000, 0x3F800000, .installer, .boundary, true⟩,
  ⟨0x061D, .f32, .writable, .fOff 0x3A83126F 0x447A0000, 0x3F800000, .installer, .boundary, true⟩,
  ⟨0x061E, .f32, .writable, .f 0x00000000 0x45FA0000, 0x00000000, .installer, .boundary, true⟩,
  ⟨0x061F, .u8, .writable, .oneOf [0, 1], 1, .installer, .enable, true⟩,
  ⟨0x0620, .u8, .writable, .n 1 0xFE, 3, .installer, .immediate, true⟩,
  ⟨0x0621, .u8, .writable, .n 2 0xFF, 8, .installer, .immediate, true⟩,
  ⟨0x0622, .f32, .writable, .fOff 0x3F800000 0x476A6000, 0x00000000, .installer, .immediate, true⟩,
  ⟨0x0623, .u32, .counter, .any, 0, .operator, .immediate, true⟩,
  ⟨0x0624, .u8, .writable, .oneOf [0, 1], 0, .installer, .enable, true⟩,
  ⟨0x0625, .u8, .writable, .oneOf [0, 1], 0, .installer, .enable, true⟩,
  ⟨0x0626, .f32, .writable, .f 0x00000000 0x40533333, 0x3F800000, .installer, .enable, true⟩,
  ⟨0x0627, .f32, .writable, .f 0x00000000 0x40533333, 0x3F4CCCCD, .installer, .enable, true⟩]

/-- Rows of the 0x0600 range. -/
def parTable6_1 : List PDef := [
  ⟨0x0628, .f32, .writable, .f 0x3F800000 0x447A0000, 0x41A00000, .installer, .enable, true⟩,
  ⟨0x0629, .u8, .writable, .n 2 0x10, 2, .installer, .enable, true⟩,
  ⟨0x062A, .u16, .writable, .n 1 0x3E8, 0x64, .installer, .immediate, false⟩,
  ⟨0x062B, .f32, .writable, .f 0x3F800000 0x447A0000, 0x42C80000, .installer, .immediate, false⟩,
  ⟨0x062C, .u16, .readOnly, .any, 0, .operator, .none, true⟩,
  ⟨0x062D, .f32, .readOnly, .any, 0x00000000, .operator, .none, true⟩,
  ⟨0x062E, .u32, .counter, .any, 0, .operator, .immediate, true⟩,
  ⟨0x0630, .f32, .writable, .f 0x00000000 0x40533333, 0x3F4CCCCD, .installer, .enable, true⟩,
  ⟨0x0631, .f32, .writable, .f 0xC4FA0000 0x44FA0000, 0x00000000, .installer, .enable, true⟩,
  ⟨0x0632, .f32, .writable, .f 0x00000000 0x40533333, 0x40533333, .installer, .enable, true⟩,
  ⟨0x0633, .f32, .writable, .f 0xC4FA0000 0x44FA0000, 0x42C80000, .installer, .enable, true⟩,
  ⟨0x0634, .f32, .writable, .f 0x00000000 0x40533333, 0x00000000, .installer, .enable, true⟩,
  ⟨0x0635, .f32, .writable, .f 0xC4FA0000 0x44FA0000, 0x00000000, .installer, .enable, true⟩,
  ⟨0x0636, .f32, .writable, .f 0x00000000 0x40533333, 0x00000000, .installer, .enable, true⟩,
  ⟨0x0637, .f32, .writable, .f 0xC4FA0000 0x44FA0000, 0x00000000, .installer, .enable, true⟩,
  ⟨0x0638, .f32, .writable, .f 0x00000000 0x40533333, 0x00000000, .installer, .enable, true⟩,
  ⟨0x0639, .f32, .writable, .f 0xC4FA0000 0x44FA0000, 0x00000000, .installer, .enable, true⟩,
  ⟨0x063A, .f32, .writable, .f 0x00000000 0x40533333, 0x00000000, .installer, .enable, true⟩,
  ⟨0x063B, .f32, .writable, .f 0xC4FA0000 0x44FA0000, 0x00000000, .installer, .enable, true⟩,
  ⟨0x063C, .f32, .writable, .f 0x00000000 0x40533333, 0x00000000, .installer, .enable, true⟩,
  ⟨0x063D, .f32, .writable, .f 0xC4FA0000 0x44FA0000, 0x00000000, .installer, .enable, true⟩,
  ⟨0x063E, .f32, .writable, .f 0x00000000 0x40533333, 0x00000000, .installer, .enable, true⟩,
  ⟨0x063F, .f32, .writable, .f 0xC4FA0000 0x44FA0000, 0x00000000, .installer, .enable, true⟩,
  ⟨0x0640, .f32, .writable, .f 0x00000000 0x40533333, 0x00000000, .installer, .enable, true⟩,
  ⟨0x0641, .f32, .writable, .f 0xC4FA0000 0x44FA0000, 0x00000000, .installer, .enable, true⟩,
  ⟨0x0642, .f32, .writable, .f 0x00000000 0x40533333, 0x00000000, .installer, .enable, true⟩,
  ⟨0x0643, .f32, .writable, .f 0xC4FA0000 0x44FA0000, 0x00000000, .installer, .enable, true⟩,
  ⟨0x0644, .f32, .writable, .f 0x00000000 0x40533333, 0x00000000, .installer, .enable, true⟩,
  ⟨0x0645, .f32, .writable, .f 0xC4FA0000 0x44FA0000, 0x00000000, .installer, .enable, true⟩,
  ⟨0x0646, .f32, .writable, .f 0x00000000 0x40533333, 0x00000000, .installer, .enable, true⟩,
  ⟨0x0647, .f32, .writable, .f 0xC4FA0000 0x44FA0000, 0x00000000, .installer, .enable, true⟩,
  ⟨0x0648, .f32, .writable, .f 0x00000000 0x40533333, 0x00000000, .installer, .enable, true⟩,
  ⟨0x0649, .f32, .writable, .f 0xC4FA0000 0x44FA0000, 0x00000000, .installer, .enable, true⟩,
  ⟨0x064A, .f32, .writable, .f 0x00000000 0x40533333, 0x00000000, .installer, .enable, true⟩,
  ⟨0x064B, .f32, .writable, .f 0xC4FA0000 0x44FA0000, 0x00000000, .installer, .enable, true⟩,
  ⟨0x064C, .f32, .writable, .f 0x00000000 0x40533333, 0x00000000, .installer, .enable, true⟩,
  ⟨0x064D, .f32, .writable, .f 0xC4FA0000 0x44FA0000, 0x00000000, .installer, .enable, true⟩,
  ⟨0x064E, .f32, .writable, .f 0x00000000 0x40533333, 0x00000000, .installer, .enable, true⟩,
  ⟨0x064F, .f32, .writable, .f 0xC4FA0000 0x44FA0000, 0x00000000, .installer, .enable, true⟩]

/-- All rows of the 0x0600 range. -/
def parTable6 : List PDef := parTable6_0 ++ parTable6_1

/-- Rows of the 0x0700 range. -/
def parTable7_0 : List PDef := [
  ⟨0x0700, .u8, .writable, .oneOf [0, 1, 2], 0, .installer, .placement, true⟩,
  ⟨0x0701, .u8, .writable, .n 1 0x40, 4, .installer, .placement, true⟩,
  ⟨0x0702, .f32, .writable, .f 0x3A83126F 0x41200000, 0x3DCCCCCD, .installer, .placement, true⟩,
  ⟨0x0703, .f32, .writable, .f 0x3F800000 0x461C4000, 0x42480000, .installer, .placement, true⟩,
  ⟨0x0704, .f32, .writable, .f 0x3F800000 0x461C4000, 0x42700000, .installer, .placement, true⟩,
  ⟨0x0705, .f32, .writable, .f 0x38D1B717 0x3F800000, 0x3BA3D70A, .installer, .placement, true⟩,
  ⟨0x0706, .f32, .writable, .f 0x3F800000 0x461C4000, 0x42480000, .installer, .placement, true⟩,
  ⟨0x0707, .f32, .writable, .f 0x00000000 0x461C4000, 0x00000000, .installer, .placement, true⟩,
  ⟨0x0708, .f32, .writable, .f 0x3F800000 0x44FA0000, 0x43960000, .installer, .placement, true⟩,
  ⟨0x0709, .f32, .writable, .f 0xC2200000 0x43160000, 0x41C80000, .installer, .immediate, true⟩,
  ⟨0x070A, .u8, .writable, .oneOf [0, 1], 1, .installer, .placement, true⟩,
  ⟨0x070B, .f32, .writable, .f 0x3F828F5C 0x40000000, 0x3F866666, .installer, .enable, true⟩,
  ⟨0x070C, .f32, .writable, .f 0x3F000000 0x42C80000, 0x40A00000, .installer, .boundary, true⟩,
  ⟨0x070D, .f32, .writable, .f 0x3DCCCCCD 0x41200000, 0x3F000000, .installer, .boundary, true⟩,
  ⟨0x070E, .f32, .writable, .f 0xC0000000 0x40000000, 0x00000000, .installer, .boundary, true⟩,
  ⟨0x070F, .f32, .writable, .f 0x41200000 0x44FA0000, 0x43960000, .installer, .boundary, true⟩,
  ⟨0x0710, .f32, .writable, .f 0x3F800000 0x447A0000, 0x41A00000, .installer, .boundary, true⟩,
  ⟨0x0711, .f32, .writable, .f 0x3F800000 0x41F00000, 0x40A00000, .installer, .immediate, true⟩,
  ⟨0x0712, .f32, .writable, .f 0x3F000000 0x42C80000, 0x40000000, .installer, .immediate, true⟩,
  ⟨0x0713, .f32, .writable, .f 0x40A00000 0x42B40000, 0x41A00000, .installer, .immediate, true⟩,
  ⟨0x0714, .f32, .writable, .f 0x3DCCCCCD 0x42C80000, 0x3F800000, .installer, .immediate, true⟩,
  ⟨0x0715, .f32, .writable, .f 0x3F000000 0x420C0000, 0x40A00000, .installer, .enable, true⟩,
  ⟨0x0716, .f32, .writable, .f 0x3F800000 0x42480000, 0x40A00000, .installer, .enable, true⟩,
  ⟨0x0717, .f32, .writable, .f 0x3F800000 0x428C0000, 0x41700000, .installer, .enable, true⟩,
  ⟨0x0718, .f32, .writable, .f 0x3F000000 0x41A00000, 0x40000000, .installer, .enable, true⟩,
  ⟨0x0719, .f32, .writable, .f 0x3DCCCCCD 0x42C80000, 0x40000000, .installer, .immediate, true⟩,
  ⟨0x071A, .f32, .writable, .f 0x3F800000 0x447A0000, 0x41A00000, .installer, .immediate, true⟩,
  ⟨0x071B, .f32, .writable, .f 0x40000000 0x42B40000, 0x41700000, .installer, .immediate, true⟩,
  ⟨0x071C, .f32, .writable, .f 0x3F800000 0x447A0000, 0x41200000, .installer, .immediate, true⟩,
  ⟨0x071D, .u8, .writable, .oneOf [0, 1], 1, .installer, .immediate, true⟩,
  ⟨0x071E, .u8, .writable, .oneOf [0, 1], 0, .installer, .immediate, true⟩,
  ⟨0x071F, .u16, .readOnly, .any, 0, .operator, .none, true⟩,
  ⟨0x0720, .f32, .readOnly, .any, 0x00000000, .operator, .none, true⟩,
  ⟨0x0721, .f32, .readOnly, .any, 0x00000000, .operator, .none, true⟩,
  ⟨0x0722, .f32, .readOnly, .any, 0x00000000, .operator, .none, true⟩,
  ⟨0x0723, .f32, .readOnly, .any, 0x00000000, .operator, .none, true⟩,
  ⟨0x0724, .f32, .readOnly, .any, 0x00000000, .operator, .none, true⟩,
  ⟨0x0725, .f32, .readOnly, .any, 0x00000000, .operator, .none, true⟩,
  ⟨0x0726, .f32, .readOnly, .any, 0x00000000, .operator, .none, true⟩,
  ⟨0x0727, .f32, .readOnly, .any, 0x00000000, .operator, .none, true⟩]

/-- Rows of the 0x0700 range. -/
def parTable7_1 : List PDef := [
  ⟨0x0728, .u8, .readOnly, .any, 0, .operator, .none, true⟩,
  ⟨0x0729, .u32, .counter, .any, 0, .operator, .immediate, true⟩]

/-- All rows of the 0x0700 range. -/
def parTable7 : List PDef := parTable7_0 ++ parTable7_1

/-- Rows of the 0x0800 range. -/
def parTable8 : List PDef := [
  ⟨0x0800, .u8, .readOnly, .any, 0, .operator, .none, true⟩,
  ⟨0x0801, .u8, .writable, .oneOf [0, 1, 2], 0, .installer, .enable, true⟩,
  ⟨0x0802, .f32, .writable, .fOff 0x3F800000 0x41A00000, 0x40000000, .installer, .enable, true⟩,
  ⟨0x0803, .f32, .writable, .f 0x40000000 0x42480000, 0x40A00000, .installer, .enable, true⟩,
  ⟨0x0804, .u8, .writable, .oneOf [0, 1], 1, .installer, .enable, true⟩,
  ⟨0x0805, .f32, .writable, .f 0x3DCCCCCD 0x44160000, 0x41200000, .installer, .enable, true⟩,
  ⟨0x0806, .f32, .writable, .f 0x40A00000 0x459C4000, 0x42480000, .installer, .enable, true⟩,
  ⟨0x0807, .u8, .writable, .n 0 3, 3, .installer, .enable, true⟩,
  ⟨0x0808, .f32, .writable, .f 0x41200000 0x461C4000, 0x43FA0000, .installer, .enable, true⟩,
  ⟨0x0809, .f32, .writable, .fBelow 0x00000000 0x43B40000, 0x00000000, .installer, .enable, true⟩,
  ⟨0x080A, .f32, .writable, .f 0x3F000000 0x428C0000, 0x40A00000, .installer, .enable, true⟩,
  ⟨0x080B, .f32, .writable, .f 0x3F800000 0x42C80000, 0x41A00000, .installer, .enable, true⟩,
  ⟨0x080C, .f32, .writable, .f 0x41F00000 0x459C4000, 0x43960000, .installer, .enable, true⟩,
  ⟨0x080D, .f32, .writable, .f 0x3F000000 0x428C0000, 0x40A00000, .installer, .enable, true⟩,
  ⟨0x080E, .f32, .writable, .f 0x3F800000 0x47C35000, 0x43480000, .installer, .enable, true⟩,
  ⟨0x080F, .f32, .writable, .f 0x41000000 0x42480000, 0x41200000, .installer, .enable, true⟩,
  ⟨0x0810, .f32, .writable, .f 0x3F800000 0x43480000, 0x41A00000, .installer, .enable, true⟩,
  ⟨0x0811, .f32, .writable, .f 0x3F800000 0x49742400, 0x461C4000, .installer, .boundary, true⟩,
  ⟨0x0812, .f32, .writable, .f 0x3F000000 0x428C0000, 0x41A00000, .installer, .boundary, true⟩,
  ⟨0x0813, .u8, .writable, .oneOf [0, 1], 0, .installer, .immediate, true⟩,
  ⟨0x0814, .f32, .writable, .f 0x3C23D70A 0x42480000, 0x3F000000, .installer, .immediate, true⟩,
  ⟨0x0815, .f32, .writable, .f 0x3D4CCCCD 0x42700000, 0x40000000, .installer, .immediate, true⟩,
  ⟨0x0816, .f32, .writable, .f 0x3DCCCCCD 0x42C80000, 0x40000000, .installer, .immediate, true⟩,
  ⟨0x0817, .f32, .writable, .f 0x41200000 0x461C4000, 0x43FA0000, .installer, .immediate, true⟩,
  ⟨0x0818, .f32, .writable, .f 0x41200000 0x42C80000, 0x42B40000, .installer, .immediate, true⟩,
  ⟨0x0819, .u32, .counter, .any, 0, .operator, .immediate, true⟩,
  ⟨0x081A, .u8, .readOnly, .any, 0, .operator, .none, true⟩]

/-- Rows of the 0x0900 range. -/
def parTable9_0 : List PDef := [
  ⟨0x0900, .u8, .writable, .n 0 5, 0, .installer, .placement, true⟩,
  ⟨0x0901, .u8, .writable, .oneOf [0, 1], 0, .installer, .placement, true⟩,
  ⟨0x0902, .u8, .writable, .oneOf [0, 1], 0, .installer, .placement, true⟩,
  ⟨0x0903, .u32, .writable, .n 1 0x100000, 0x400, .installer, .placement, true⟩,
  ⟨0x0904, .u8, .writable, .oneOf [0, 1], 0, .installer, .placement, true⟩,
  ⟨0x0905, .u8, .writable, .n 1 0x10, 2, .installer, .immediate, true⟩,
  ⟨0x0906, .u16, .writable, .n 1 0x3E8, 1, .installer, .immediate, true⟩,
  ⟨0x0907, .u16, .writable, .n 1 0x3E8, 0x64, .installer, .immediate, true⟩,
  ⟨0x0908, .f32, .writable, .fBelow 0x00000000 0x43B40000, 0x00000000, .installer, .boundary, true⟩,
  ⟨0x0909, .u8, .writable, .oneOf [0, 1], 0, .installer, .placement, true⟩,
  ⟨0x090A, .f32, .writable, .f 0x40A00000 0x42700000, 0x41A00000, .installer, .immediate, true⟩,
  ⟨0x090B, .f32, .writable, .fBelow 0x00000000 0x43B40000, 0x00000000, .installer, .boundary, true⟩,
  ⟨0x090C, .u32, .writable, .n 1 0x10000, 0x800, .installer, .placement, true⟩,
  ⟨0x090D, .f32, .writable, .f 0x00000000 0x47435000, 0x00000000, .installer, .placement, true⟩,
  ⟨0x090E, .f32, .writable, .f 0x3DCCCCCD 0x3F000000, 0x3E99999A, .installer, .immediate, true⟩,
  ⟨0x090F, .f32, .writable, .f 0x3F000000 0x3F99999A, 0x3F333333, .installer, .immediate, true⟩,
  ⟨0x0910, .f32, .writable, .f 0x3DCCCCCD 0x41200000, 0x3F800000, .installer, .placement, true⟩,
  ⟨0x0911, .f32, .writable, .f 0x3F800000 0x42C80000, 0x41A00000, .installer, .placement, true⟩,
  ⟨0x0912, .u8, .writable, .n 0 0xA0, 0, .installer, .placement, true⟩,
  ⟨0x0913, .f32, .writable, .f 0x00000000 0x42C80000, 0x00000000, .installer, .placement, true⟩,
  ⟨0x0914, .f32, .writable, .f 0x00000000 0x42C80000, 0x00000000, .installer, .placement, true⟩,
  ⟨0x0915, .u8, .writable, .n 1 0x10, 1, .installer, .placement, true⟩,
  ⟨0x0916, .u8, .writable, .n 1 0x10, 3, .installer, .immediate, true⟩,
  ⟨0x0917, .u8, .writable, .mask 0xF, 3, .installer, .placement, true⟩,
  ⟨0x0918, .u32, .writable, .serCrc, 0, .installer, .placement, true⟩,
  ⟨0x0919, .u32, .writable, .serField, 0, .installer, .placement, true⟩,
  ⟨0x091A, .u32, .writable, .serField, 0, .installer, .placement, true⟩,
  ⟨0x091B, .u32, .writable, .serField, 0, .installer, .placement, true⟩,
  ⟨0x091C, .u32, .writable, .serField, 0, .installer, .placement, true⟩,
  ⟨0x091D, .u32, .writable, .serField, 0, .installer, .placement, true⟩,
  ⟨0x091E, .u32, .writable, .serField, 0, .installer, .placement, true⟩,
  ⟨0x091F, .u32, .writable, .serField, 0, .installer, .placement, true⟩,
  ⟨0x0920, .u32, .writable, .serField, 0, .installer, .placement, true⟩,
  ⟨0x0921, .f32, .writable, .fOff 0x3A83126F 0x41200000, 0x3DCCCCCD, .installer, .immediate, true⟩,
  ⟨0x0922, .f32, .writable, .f 0x40A00000 0x447A0000, 0x42480000, .installer, .immediate, true⟩,
  ⟨0x0923, .u8, .writable, .n 1 0x40, 8, .installer, .placement, true⟩,
  ⟨0x0924, .u8, .writable, .n 1 0x3F, 4, .installer, .placement, true⟩,
  ⟨0x0925, .u8, .writable, .n 2 0x40, 0x10, .installer, .placement, true⟩,
  ⟨0x0926, .u32, .writable, .n 1 0x1000000, 0x100000, .installer, .placement, true⟩,
  ⟨0x0927, .u8, .writable, .mask 0x3, 3, .installer, .placement, true⟩]

/-- Rows of the 0x0900 range. -/
def parTable9_1 : List PDef := [
  ⟨0x0928, .u8, .writable, .mask 0x3, 0, .installer, .placement, true⟩,
  ⟨0x0929, .u16, .writable, .n 1 0xFFFF, 1, .installer, .placement, true⟩,
  ⟨0x092A, .u32, .writable, .n 1 0xFFFFFFFF, 0x10, .installer, .placement, true⟩,
  ⟨0x092B, .u32, .writable, .any, 0, .installer, .placement, true⟩,
  ⟨0x0930, .u8, .writable, .mask 0x7, 0, .operator, .immediate, true⟩,
  ⟨0x0931, .u32, .writable, .any, 0, .operator, .immediate, true⟩,
  ⟨0x0932, .i32, .writable, .any, 0, .operator, .immediate, true⟩,
  ⟨0x0933, .u32, .writable, .n 1 0xFFFFFFFF, 0x100000, .operator, .immediate, true⟩,
  ⟨0x0934, .u32, .writable, .any, 0, .operator, .immediate, true⟩,
  ⟨0x0935, .f32, .writable, .f 0x3DCCCCCD 0x447A0000, 0x41200000, .operator, .immediate, true⟩,
  ⟨0x0936, .u32, .counter, .any, 0, .operator, .immediate, true⟩,
  ⟨0x0937, .u32, .counter, .any, 0, .operator, .immediate, true⟩,
  ⟨0x0938, .u8, .writable, .mask 0x7, 0, .operator, .immediate, true⟩,
  ⟨0x0939, .u32, .writable, .any, 0, .operator, .immediate, true⟩,
  ⟨0x093A, .i32, .writable, .any, 0, .operator, .immediate, true⟩,
  ⟨0x093B, .u32, .writable, .n 1 0xFFFFFFFF, 0x100000, .operator, .immediate, true⟩,
  ⟨0x093C, .u32, .writable, .any, 0, .operator, .immediate, true⟩,
  ⟨0x093D, .f32, .writable, .f 0x3DCCCCCD 0x447A0000, 0x41200000, .operator, .immediate, true⟩,
  ⟨0x093E, .u32, .counter, .any, 0, .operator, .immediate, true⟩,
  ⟨0x093F, .u32, .counter, .any, 0, .operator, .immediate, true⟩,
  ⟨0x0940, .u8, .writable, .oneOf [0, 1, 2, 3], 0, .operator, .immediate, true⟩,
  ⟨0x0941, .u8, .writable, .n 0 3, 0, .operator, .immediate, true⟩,
  ⟨0x0942, .u16, .writable, .n 1 0x3E8, 0xA, .installer, .immediate, true⟩,
  ⟨0x0943, .u32, .counter, .any, 0, .operator, .immediate, true⟩,
  ⟨0x0948, .u16, .readOnly, .any, 0x10, .operator, .none, true⟩,
  ⟨0x0949, .u32, .readOnly, .any, 0, .operator, .none, true⟩,
  ⟨0x094A, .i32, .readOnly, .any, 0, .operator, .none, true⟩,
  ⟨0x094B, .f32, .readOnly, .any, 0x00000000, .operator, .none, true⟩,
  ⟨0x094C, .u32, .counter, .any, 0, .operator, .immediate, true⟩,
  ⟨0x094D, .u32, .counter, .any, 0, .operator, .immediate, true⟩,
  ⟨0x094E, .u32, .counter, .any, 0, .operator, .immediate, true⟩,
  ⟨0x094F, .u32, .counter, .any, 0, .operator, .immediate, true⟩]

/-- All rows of the 0x0900 range. -/
def parTable9 : List PDef := parTable9_0 ++ parTable9_1

/-- Rows of the 0x0A00 range. -/
def parTableA : List PDef := [
  ⟨0x0A00, .f32, .writable, .f 0x42980000 0x42AA0000, 0x42A00000, .installer, .immediate, false⟩,
  ⟨0x0A01, .f32, .writable, .f 0x42A00000 0x42B80000, 0x42B00000, .installer, .immediate, false⟩,
  ⟨0x0A02, .f32, .writable, .f 0x42AA0000 0x42BE0000, 0x42BC0000, .installer, .immediate, false⟩,
  ⟨0x0A03, .f32, .writable, .f 0x3F000000 0x40A00000, 0x40000000, .installer, .immediate, false⟩,
  ⟨0x0A04, .u8, .writable, .oneOf [0, 1], 1, .installer, .immediate, false⟩,
  ⟨0x0A05, .f32, .writable, .f 0x40166666 0x42C80000, 0x40966666, .installer, .immediate, false⟩,
  ⟨0x0A06, .f32, .writable, .f 0x3F800000 0x44FA0000, 0x42480000, .installer, .immediate, false⟩,
  ⟨0x0A07, .f32, .writable, .f 0x3F800000 0x44160000, 0x41F00000, .installer, .immediate, false⟩,
  ⟨0x0A08, .f32, .writable, .f 0x3F800000 0x447A0000, 0x41A00000, .installer, .immediate, false⟩,
  ⟨0x0A09, .f32, .writable, .f 0x3F800000 0x42C80000, 0x41200000, .installer, .immediate, false⟩,
  ⟨0x0A0A, .f32, .writable, .f 0x00000000 0x459C4000, 0x44FA0000, .installer, .boundary, true⟩,
  ⟨0x0A0B, .f32, .writable, .f 0x3DCCCCCD 0x41200000, 0x3F000000, .installer, .immediate, false⟩,
  ⟨0x0A0C, .f32, .writable, .fOff 0x3F800000 0x43480000, 0x00000000, .installer, .immediate, true⟩,
  ⟨0x0A0D, .f32, .readOnly, .any, 0x00000000, .operator, .none, false⟩,
  ⟨0x0A0E, .u16, .readOnly, .any, 0, .operator, .none, false⟩,
  ⟨0x0A0F, .f32, .readOnly, .any, 0x00000000, .operator, .none, false⟩,
  ⟨0x0A10, .u32, .counter, .any, 0, .operator, .immediate, false⟩,
  ⟨0x0A11, .u8, .writable, .n 2 6, 4, .installer, .immediate, false⟩,
  ⟨0x0A12, .f32, .writable, .fOff 0x3F800000 0x447A0000, 0x41200000, .installer, .immediate, false⟩,
  ⟨0x0A13, .u8, .writable, .n 1 6, 2, .installer, .immediate, false⟩,
  ⟨0x0A14, .u8, .readOnly, .any, 0, .operator, .none, false⟩,
  ⟨0x0A15, .u16, .readOnly, .any, 0, .operator, .none, false⟩,
  ⟨0x0A16, .u32, .readOnly, .any, 0, .operator, .none, false⟩]

/-- Rows of the 0x0B00 range. -/
def parTableB : List PDef := [
  ⟨0x0B00, .f32, .writable, .f 0x42B40000 0x43020000, 0x42E60000, .installer, .immediate, false⟩,
  ⟨0x0B01, .f32, .writable, .f 0x42C80000 0x43110000, 0x43070000, .installer, .immediate, false⟩,
  ⟨0x0B02, .f32, .writable, .f 0x42DC0000 0x431B0000, 0x43160000, .installer, .immediate, false⟩,
  ⟨0x0B03, .f32, .writable, .f 0x43020000 0x43200000, 0x43200000, .installer, .immediate, false⟩,
  ⟨0x0B04, .f32, .writable, .f 0x3F800000 0x41A00000, 0x40A00000, .installer, .immediate, false⟩,
  ⟨0x0B05, .f32, .writable, .f 0x42700000 0x43020000, 0x42F00000, .installer, .immediate, false⟩,
  ⟨0x0B06, .u8, .writable, .oneOf [0, 1], 0, .installer, .immediate, false⟩,
  ⟨0x0B07, .f32, .writable, .f 0x00000000 0x459C4000, 0x43480000, .installer, .immediate, false⟩,
  ⟨0x0B08, .f32, .writable, .f 0x3DCCCCCD 0x3F800000, 0x3E4CCCCD, .installer, .immediate, false⟩,
  ⟨0x0B09, .f32, .writable, .f 0x41200000 0x461C4000, 0x42C80000, .installer, .immediate, false⟩,
  ⟨0x0B0A, .f32, .writable, .f 0x42700000 0x43340000, 0x43020000, .installer, .immediate, true⟩,
  ⟨0x0B0B, .f32, .writable, .f 0x428C0000 0x433E0000, 0x430C0000, .installer, .immediate, true⟩,
  ⟨0x0B0C, .f32, .writable, .f 0x42A00000 0x43480000, 0x431B0000, .installer, .immediate, true⟩,
  ⟨0x0B0D, .u8, .writable, .mask 0x7, 0, .installer, .placement, true⟩,
  ⟨0x0B0E, .f32, .writable, .f 0x42C80000 0x49742400, 0x461C4000, .installer, .immediate, true⟩,
  ⟨0x0B0F, .f32, .writable, .f 0x447A0000 0x45BB8000, 0x4556B000, .installer, .immediate, true⟩,
  ⟨0x0B10, .f32, .writable, .f 0x42C80000 0x49742400, 0x461C4000, .installer, .immediate, true⟩,
  ⟨0x0B11, .f32, .readOnly, .any, 0x00000000, .operator, .none, false⟩,
  ⟨0x0B12, .f32, .readOnly, .any, 0x00000000, .operator, .none, false⟩,
  ⟨0x0B13, .f32, .readOnly, .any, 0x00000000, .operator, .none, true⟩,
  ⟨0x0B14, .u16, .readOnly, .any, 0, .operator, .none, true⟩,
  ⟨0x0B15, .f32, .readOnly, .any, 0x00000000, .operator, .none, false⟩]

/-- Rows of the 0x0C00 range. -/
def parTableC : List PDef := [
  ⟨0x0C00, .f32, .writable, .f 0x42480000 0x43160000, 0x43160000, .installer, .immediate, false⟩,
  ⟨0x0C01, .f32, .readOnly, .any, 0x00000000, .operator, .none, false⟩,
  ⟨0x0C02, .f32, .readOnly, .any, 0x00000000, .operator, .none, false⟩,
  ⟨0x0C03, .u16, .readOnly, .any, 0, .operator, .none, false⟩,
  ⟨0x0C04, .u32, .readOnly, .any, 0, .operator, .none, false⟩,
  ⟨0x0C05, .u32, .readOnly, .any, 0, .operator, .none, false⟩,
  ⟨0x0C06, .u8, .readOnly, .any, 0, .operator, .none, false⟩,
  ⟨0x0C07, .u32, .counter, .any, 0, .operator, .immediate, false⟩,
  ⟨0x0C08, .f32, .counter, .any, 0x00000000, .operator, .immediate, false⟩,
  ⟨0x0C09, .u32, .counter, .any, 0, .operator, .immediate, false⟩,
  ⟨0x0C0A, .u32, .readOnly, .any, 0x40000, .operator, .none, false⟩,
  ⟨0x0C0B, .u32, .readOnly, .any, 0x20000, .operator, .none, false⟩]

/-- Rows of the 0x0D00 range. -/
def parTableD_0 : List PDef := [
  ⟨0x0D00, .u8, .writable, .mask 0x7, 3, .installer, .placement, false⟩,
  ⟨0x0D01, .u32, .readOnly, .any, 0, .operator, .none, false⟩,
  ⟨0x0D02, .u32, .readOnly, .any, 0, .operator, .none, false⟩,
  ⟨0x0D03, .u32, .writable, .any, 0, .installer, .immediate, false⟩,
  ⟨0x0D04, .u32, .writable, .ipMask, 0xFFFFFF00, .installer, .immediate, false⟩,
  ⟨0x0D05, .u32, .writable, .any, 0, .installer, .immediate, false⟩,
  ⟨0x0D06, .u16, .writable, .n 0x400 0xFFFF, 0xBE6E, .installer, .immediate, false⟩,
  ⟨0x0D07, .u16, .writable, .ethertype, 0, .installer, .immediate, false⟩,
  ⟨0x0D08, .u16, .writable, .n 0 0xFFE, 0, .installer, .immediate, false⟩,
  ⟨0x0D09, .u8, .writable, .n 0 7, 6, .installer, .immediate, false⟩,
  ⟨0x0D0A, .u8, .writable, .oneOf [0, 1], 1, .installer, .immediate, false⟩,
  ⟨0x0D0B, .u8, .writable, .n 0 7, 0, .installer, .enable, true⟩,
  ⟨0x0D0C, .u8, .writable, .n 0 0x7F, 0, .installer, .placement, true⟩,
  ⟨0x0D0D, .u8, .writable, .n 0 0xFF, 0xFF, .installer, .immediate, false⟩,
  ⟨0x0D0E, .u8, .writable, .n 0 0xFF, 0xF8, .installer, .immediate, false⟩,
  ⟨0x0D0F, .i32, .writable, .i (-7) (0), 0xFFFFFFFB, .installer, .immediate, false⟩,
  ⟨0x0D10, .i32, .writable, .i (-5) (3), 0xFFFFFFFD, .installer, .immediate, false⟩,
  ⟨0x0D11, .f32, .writable, .f 0x41A00000 0x461C4000, 0x42C80000, .installer, .immediate, false⟩,
  ⟨0x0D12, .u8, .readOnly, .any, 0, .operator, .none, false⟩,
  ⟨0x0D13, .f32, .writable, .f 0x00000000 0x447A0000, 0x00000000, .installer, .immediate, false⟩,
  ⟨0x0D14, .f32, .writable, .f 0x00000000 0x447A0000, 0x00000000, .installer, .immediate, false⟩,
  ⟨0x0D15, .f32, .writable, .f 0x00000000 0x447A0000, 0x00000000, .installer, .immediate, false⟩,
  ⟨0x0D16, .f32, .writable, .f 0x00000000 0x447A0000, 0x00000000, .installer, .immediate, false⟩,
  ⟨0x0D17, .f32, .writable, .f 0x41200000 0x447A0000, 0x43960000, .installer, .immediate, false⟩,
  ⟨0x0D18, .u8, .writable, .n 0 255, 0xFF, .installer, .placement, false⟩,
  ⟨0x0D19, .u8, .writable, .n 1 0xFF, 8, .installer, .placement, false⟩,
  ⟨0x0D1A, .u8, .writable, .n 1 0xFF, 0x20, .installer, .placement, false⟩,
  ⟨0x0D1B, .u8, .writable, .n 0 0xFF, 0, .installer, .placement, false⟩,
  ⟨0x0D1C, .u32, .counter, .any, 0, .operator, .immediate, false⟩,
  ⟨0x0D1D, .u32, .counter, .any, 0, .operator, .immediate, false⟩,
  ⟨0x0D1E, .u32, .counter, .any, 0, .operator, .immediate, false⟩,
  ⟨0x0D1F, .u16, .writable, .mask 0x1F1F, 0x201, .installer, .placement, false⟩,
  ⟨0x0D20, .u8, .writable, .oneOf [0, 1], 0, .installer, .placement, false⟩,
  ⟨0x0D21, .u8, .writable, .n 1 0x7F, 1, .installer, .placement, false⟩,
  ⟨0x0D22, .u16, .writable, .oneOf [125, 250, 500, 800, 1000], 0x1F4, .installer, .placement, false⟩,
  ⟨0x0D23, .u16, .writable, .oneOf [0, 1000, 2000, 4000, 5000, 8000], 0, .installer, .placement, false⟩,
  ⟨0x0D24, .f32, .writable, .f 0x42700000 0x42B40000, 0x42A00000, .installer, .placement, false⟩,
  ⟨0x0D25, .f32, .writable, .f 0x42480000 0x42B40000, 0x428C0000, .installer, .placement, false⟩,
  ⟨0x0D26, .u8, .writable, .oneOf [1, 2], 1, .installer, .immediate, false⟩,
  ⟨0x0D27, .u8, .writable, .n 8 0x18, 0x10, .installer, .enable, false⟩]

/-- Rows of the 0x0D00 range. -/
def parTableD_1 : List PDef := [
  ⟨0x0D28, .f32, .writable, .f 0x3DCCCCCD 0x428C0000, 0x41200000, .installer, .immediate, true⟩,
  ⟨0x0D29, .u8, .writable, .n 0 3, 1, .installer, .immediate, true⟩,
  ⟨0x0D2A, .u8, .readOnly, .any, 0, .operator, .none, false⟩,
  ⟨0x0D2B, .u32, .counter, .any, 0, .operator, .immediate, false⟩,
  ⟨0x0D2C, .u32, .counter, .any, 0, .operator, .immediate, false⟩]

/-- All rows of the 0x0D00 range. -/
def parTableD : List PDef := parTableD_0 ++ parTableD_1

/-- Rows of the 0x0E00 range. -/
def parTableE : List PDef := [
  ⟨0x0E00, .u32, .readOnly, .any, 0x800, .operator, .none, false⟩,
  ⟨0x0E01, .u16, .readOnly, .any, 0, .operator, .none, false⟩,
  ⟨0x0E02, .u32, .readOnly, .any, 0, .operator, .none, false⟩,
  ⟨0x0E03, .u8, .readOnly, .any, 0, .operator, .none, false⟩,
  ⟨0x0E04, .u32, .readOnly, .any, 0, .operator, .none, false⟩,
  ⟨0x0E05, .f32, .writable, .fOff 0x3F800000 0x43280000, 0x41C00000, .installer, .immediate, false⟩,
  ⟨0x0E06, .u32, .counter, .any, 0, .operator, .immediate, false⟩,
  ⟨0x0E07, .u32, .counter, .any, 0, .operator, .immediate, false⟩]

/-- Rows of the 0x0F00 range. -/
def parTableF : List PDef := [
  ⟨0x0F00, .u8, .writable, .oneOf [0, 1], 0, .installer, .placement, false⟩,
  ⟨0x0F01, .u8, .writable, .oneOf [0, 1, 4, 8], 0, .installer, .placement, false⟩,
  ⟨0x0F02, .u8, .writable, .n 0xC 0x40, 0xC, .installer, .placement, false⟩,
  ⟨0x0F03, .f32, .writable, .f 0x3F800000 0x40800000, 0x40000000, .installer, .placement, false⟩,
  ⟨0x0F04, .u16, .writable, .n 0 0xFF, 0, .installer, .placement, false⟩,
  ⟨0x0F05, .u8, .writable, .oneOf [0, 1], 0, .installer, .immediate, false⟩,
  ⟨0x0F06, .f32, .writable, .f 0x3F000000 0x42C80000, 0x40000000, .installer, .immediate, false⟩,
  ⟨0x0F07, .u16, .readOnly, .any, 0, .operator, .none, false⟩,
  ⟨0x0F08, .u32, .readOnly, .any, 0, .operator, .none, false⟩,
  ⟨0x0F09, .u32, .readOnly, .any, 0, .operator, .none, false⟩,
  ⟨0x0F0A, .f32, .readOnly, .any, 0x00000000, .operator, .none, false⟩,
  ⟨0x0F0B, .f32, .readOnly, .any, 0x00000000, .operator, .none, false⟩,
  ⟨0x0F0C, .u32, .counter, .any, 0, .operator, .immediate, false⟩]

/-- The table of a range (00 Table 0.4a). -/
def parTable : Nat → List PDef
  | 0 => parTable0
  | 1 => parTable1
  | 2 => parTable2
  | 3 => parTable3
  | 4 => parTable4
  | 5 => parTable5
  | 6 => parTable6
  | 7 => parTable7
  | 8 => parTable8
  | 9 => parTable9
  | 10 => parTableA
  | 11 => parTableB
  | 12 => parTableC
  | 13 => parTableD
  | 14 => parTableE
  | 15 => parTableF
  | _ => []

/-- The row of an index without its axis bit. -/
def parDef (i : Nat) : Option PDef := (parTable (i / 256)).find? (fun d => d.idx == i)

/-- Every row of every table. -/
def parAll : List PDef := (List.range 16).flatMap parTable

/-- The default of an address (axis bit included); 0 where no row names it. -/
def parDefault (a : Nat) : Word := match parDef (a % 0x8000) with | some d => d.dflt | none => 0

end Sys2Proof.Machine
end

