-- ==== Sys2Proof/Machine/State.lean ====
section
/-!
DEFINITION. The state of the CL7502 as plain data: every register, queue, buffer, counter, mode and pin the spec
gives the block, each with the chapter and rule that name it and, as its default, its value after reset.
A field marked `DC n` has a reset value the spec does not give (assumption log row n).
-/

namespace Sys2Proof.Machine
open Sys2Proof

/-- Reasons to stop with a fault. The spec describes what the drive does on every row of the command table, so
no command of this block ends in a fault: the type has no constructor, and a fault outcome cannot occur (safe). -/
inductive Fault
deriving DecidableEq, Repr

/-- Reasons to refuse a command. -/
inductive Refusal where
  /-- Raised only by an arm of `exec` whose command has no meaning yet. Safe: the machine stops. -/
  | notModelled (mnemonic : String)
deriving DecidableEq, Repr

/-- Values for the two axes (01 R12). -/
structure Two (α : Type) where
  a : α
  b : α
deriving DecidableEq, Repr

/-- Values for the six legs of an axis, in the order U1, U2, V1, V2, W1, W2 (01 R12, R13). -/
structure Six (α : Type) where
  u1 : α
  u2 : α
  v1 : α
  v2 : α
  w1 : α
  w2 : α
deriving DecidableEq, Repr

/-- Phases of the hot-swap controller (03 R44 to R47, R56). -/
inductive HswPhase where
  | outside      -- input outside the plug window, or Summit off: waiting for its next entry
  | debounce     -- HSW_PLUG_DEB running
  | ramp         -- VM slope regulated, SOA timer running
  | decayWait    -- VM exceeds the input by more than 1.0 V; SOA timer running
  | on           -- after power good, HSW_G fully on (charge pump in STANDBY by request)
  | retryWait    -- HSW_RETRY_DELAY running after a failed attempt
  | latched      -- STOP 0x4106 recorded: no more attempts
  | noFet        -- STOP 0x410A: neither a MOSFET pair nor the strap
  | undeclared   -- STOP 0x410D: MOSFET pair found with HSW_PRESENT = 0
  | strapped     -- strap confirmed: controller absent, input and VM are one node
deriving DecidableEq, Repr

/-- A supply output, V5_OUT or V3_OUT (03 R43). -/
structure OutPin where
  /-- The output is switched on (R43). -/
  on : Bool := false
  /-- Switched off by the overload of R43, until its enable is written or READY is entered. -/
  overloaded : Bool := false
deriving DecidableEq, Repr

/-- A code Summit holds while Thoevo does not run, logged at the next boot (03 R45, R48, R58). -/
structure HeldCode where
  code : BitVec 16
  scope : BitVec 8
  detail : BitVec 32
deriving DecidableEq, Repr

/-- Summit: supply watch, hot-swap controller, wake logic, watchdog (PD_SUM; chapter 03, 21). -/
structure Summit where
  /-- Summit runs: the higher of input and VM rose through 12 V and did not fall below 6 V (03 R39). -/
  on : Bool := false
  /-- Voltage at HSW_SNS_P in mV, the "input" pin (03 R40). DC 2 -/
  inMv : Nat := 0
  /-- Voltage at the VM lands in mV (03 R40). DC 2 -/
  vmMv : Nat := 0
  /-- Phase of the hot-swap controller (03 R44). -/
  hsw : HswPhase := .outside
  /-- HSW_G is driven: the MOSFETs ramp or conduct (03 R44). -/
  hswG : Bool := false
  /-- HSW_PRESENT as Summit holds it (03 R47, R60). -/
  present : Bool := true
  /-- Failed connection attempts in a row (03 R45). -/
  fails : Nat := 0
  /-- The current excursion above 75 V already raised 0x2104 (03 R44 Table 3.3). -/
  ovRaised : Bool := false
  /-- The integrated buck runs (03 R42). -/
  buck : Bool := false
  /-- The power-fail commit runs (03 R48). -/
  pfCommit : Bool := false
  /-- STANDBY was entered through the power-fail sequence, and the link has not been reconnected since: the VM-return wake
  is armed (03 R56). -/
  pfStandby : Bool := false
  /-- The input has fallen below VM_PF since the power-fail sequence began (03 R56). -/
  fellBelowPf : Bool := false
  /-- COMMIT_OK recorded by Summit (03 R48). -/
  commitOk : Bool := false
  /-- A boot was abandoned or a power fail ran: 0x5103 is logged at the next boot (03 R48, R58). -/
  held : List HeldCode := []
  /-- WAKE_SRC, PAR 0x0101 (03 R55, R60). -/
  wakeSrc : BitVec 8 := 0
  /-- Wake events latched while STANDBY is being entered or a commit runs, by their bits of WAKE_SRC (03 R58). -/
  wakeLatched : BitVec 8 := 0
  /-- V5_OUT (03 R43). -/
  out5 : OutPin := {}
  /-- V3_OUT (03 R43). -/
  out3 : OutPin := {}
  /-- RESET_N is low and qualified: the drive is held in reset (21 R430). -/
  resetLow : Bool := false
  /-- RESET_N was qualified during the power-fail commit and acts after it (03 R50). -/
  resetPending : Bool := false
  /-- RESET_N was released again while it waits for the power-fail commit (03 R50). -/
  resetReleased : Bool := false
  /-- RESET_N was released while the buck had no supply: the boot of source 2 begins at power good (21 R430, Table 21.1). -/
  resetBoot : Bool := false
  /-- The watchdog expired while an axis switched and its reset waits (21 R431). -/
  wdogWait : Bool := false
  /-- Services of the watchdog since Summit started (21 R431): the 100 ms count restarts at each. -/
  wdogServed : Nat := 0
deriving DecidableEq, Repr

/-- The states of 03 Table 3.6 as the machine holds them; RUN is READY with an axis switching. -/
inductive PwrBase where | off | standby | hold | ready
deriving DecidableEq, Repr

/-- Power state and boot (chapters 03 and 21). -/
structure Pwr where
  /-- The state of 03 Table 3.6 (R52); RUN is READY while an axis switches. -/
  base : PwrBase := .off
  /-- The SAFE overlay, PWR_STATE bit 7 (03 R52, R57). -/
  safe : Bool := false
  /-- NO_PLACEMENT, PWR_STATE bit 6 (03 R54). -/
  noPlacement : Bool := false
  /-- A boot runs, with its reset source; none when Thoevo runs or the drive is off (21 R430, R432). -/
  boot : Option (BitVec 8) := none
  /-- RESET_SRC, PAR 0x0010: the cause of the latest boot (21 Table 21.1). -/
  resetSrc : BitVec 8 := 0
  /-- Stamp at which the boot began, ns: log times are boot-relative while gPTP is unsynchronised (12 Table 12.7). -/
  bootAt : Nat := 0
  /-- READY has been entered since the boot: the first-READY self-tests ran (21 R432). -/
  firstReadyDone : Bool := false
deriving DecidableEq, Repr

/-- One conversion table of a converter (06 R125 to R128). -/
structure ConvTable where
  /-- TRIG of the header word (Table 6.4, 6.6). -/
  trig : BitVec 4 := 0
  /-- DIV of the header word (Table 6.4). -/
  div : BitVec 4 := 0
  /-- DELAY of the header word in 250 ps ticks (Table 6.4). -/
  delay : BitVec 24 := 0
  /-- The entry words, last one with LAST (Table 6.5). -/
  entries : List (BitVec 32) := []
  /-- Triggers since the last accepted one, for DIV (R127). -/
  divCount : Nat := 0
  /-- Run count of the table (R127). -/
  runs : Nat := 0
  /-- The table waits for another triggered table of its converter (R127). -/
  pendingRun : Bool := false
  /-- Entries still to convert in the running sequence, or in the present pass of a continuous table; empty when the table is
  not running (R127, R128). -/
  todo : List (BitVec 32) := []
  /-- Tick at which the next entry of the running or pending sequence takes its hold (R127). -/
  holdAt : Nat := 0
  /-- Tick of the last trigger event the table saw (R126). -/
  trigAt : Option Nat := none
  /-- TRIG_OVR of this table, 16 bits saturating (R130, Table 6.11). -/
  trigOvr : BitVec 16 := 0
deriving DecidableEq, Repr

/-- Calibration values of one converter and its shunt chain, stored in MRAM (06 R139, R140). -/
structure CalVals where
  /-- Core offset in LSB. DC 2 -/
  coreOfs : F32 := 0
  /-- Core gain correction, a fraction. DC 2 -/
  coreGain : F32 := 0
  /-- Shunt offset in A. DC 2 -/
  shuntOfs : F32 := 0
  /-- Shunt gain correction, a fraction. DC 2 -/
  shuntGain : F32 := 0
deriving DecidableEq, Repr

/-- One SAR converter: CV k serves leg k (01 R13, chapter 06). -/
structure Converter where
  /-- Marked suspect (R133, R134); the mark is stored in MRAM. -/
  suspect : Bool := false
  /-- Out of service: in calibration or test (R139, Table 6.13). -/
  outOfService : Bool := false
  /-- TBL0 to TBL3 (R125). -/
  tables : List ConvTable := [{}, {}, {}, {}]
  /-- The 256-word result RAM, by RSLOT, rising; unlisted words are 0 (R121, Table 6.5). -/
  results : List (Nat × BitVec 32) := []
  /-- The urgent slot (R129). -/
  urgent : Option (Fin 10) := none
  /-- Tick at which the urgent conversion takes its hold (R129). -/
  urgAt : Nat := 0
  /-- The result word of the latest urgent conversion (R129, CONV_ONCE). -/
  urgentResult : BitVec 32 := 0
  /-- URG_ABORT (R145). -/
  urgAbort : BitVec 16 := 0
  /-- URG_DROP (R145). -/
  urgDrop : BitVec 16 := 0
  /-- PLAUS_MISMATCH (R145). -/
  plausMismatch : BitVec 16 := 0
  /-- CAL_COUNT (R145). -/
  calCount : BitVec 16 := 0
  /-- Calibration values in force (R139). -/
  cal : CalVals := {}
deriving DecidableEq, Repr

/-- One leg: dead-times, edge sensor, duties, bypass (chapters 04 and 05). -/
structure LegSt where
  /-- Dead-time of the next rising edge, in 250 ps ticks (04 R71). DC 2 -/
  dtRise : Nat := 80
  /-- Dead-time of the next falling edge, in 250 ps ticks (04 R71). DC 2 -/
  dtFall : Nat := 80
  /-- EDGE_MISS counter (04 R73). -/
  edgeMiss : BitVec 32 := 0
  /-- Missing edges in a row (04 R73). -/
  missRun : Nat := 0
  /-- Edges seen in a row, for clearing the mark (04 R73). -/
  seenRun : Nat := 0
  /-- The leg is marked edge-suspect (04 R73). -/
  edgeSuspect : Bool := false
  /-- Commanded high-side state at the end of the half-periods laid out so far (05 R96). -/
  hi : Bool := false
  /-- Commanded transitions of the periods at hand, newest first: tick, dead-time applied in ticks, the high side turns on
  (05 R96, R106). -/
  trans : List (Nat × Nat × Bool) := []
  /-- Switch-node crossings of the periods at hand, newest first: tick, rising (04 R71, R73). -/
  edges : List (Nat × Bool) := []
  /-- Edge port: rising crossing instant in ticks from the carrier start (04 switch-node edge sensing). -/
  riseAt : Nat := 0
  /-- Edge port: falling crossing instant in ticks. -/
  fallAt : Nat := 0
  /-- Edge port: the rising edge came before the complementary gate turned on. -/
  riseSoft : Bool := false
  /-- Edge port: the falling edge came before the complementary gate turned on. -/
  fallSoft : Bool := false
  /-- Duty fraction committed in the PWM domain (05 R95, 01 R22). DC 6 -/
  duty : F32 := 0x3F000000
  /-- Compare value D of the current half-period, in ticks (05 R95). -/
  cmp : Nat := 0
  /-- Mean current of the latest profile, A (08 R186). -/
  iMean : F32 := 0
  /-- Periods in a row with a mean above 0.5 A while bypassed (08 R186). -/
  bypassRun : Nat := 0
  /-- Sum of the squared means since the last millisecond tick, A² (13 R289). -/
  sqSum : F32 := 0
  /-- Sum of the magnitudes of the means since the last millisecond tick, A (13 R289). -/
  absSum : F32 := 0
  /-- Periods in these sums (13 R289). -/
  sumN : Nat := 0
  /-- Window of R77: per millisecond, the square of the leg rms current in A², newest first, 20 s long. -/
  i2Window : List F32 := []
  /-- The leg's bootstrap supply is below its recovery level (04 R69, 05 R112). -/
  bootLow : Bool := false
  /-- Stamp at which it fell below 4.5 V, ns (04 R69). -/
  bootLowAt : Nat := 0
  /-- The leg's converter (01 R13). -/
  cv : Converter := {}
deriving DecidableEq, Repr

/-- What a leg bypass is doing (04 R80, R81). -/
inductive BypassPhase where
  | none
  | ramp (l : Leg)     -- commanded bypass: LEG_BYPASS_RAMP runs
  | atSwap (l : Leg)   -- the ramp ended: gates off and derated placement at the next boundary
deriving DecidableEq, Repr

/-- Phase of a holding-brake output (04 R88, R89). -/
inductive BrakePhase where | off | pull | hold
deriving DecidableEq, Repr

/-- Holding-brake output and leg bypass of an axis (chapter 04). -/
structure StageSt where
  /-- Output phase of HB_x (R88). -/
  brake : BrakePhase := .off
  /-- HB_RELEASE_T runs: motion setpoints are not accepted yet (R89). -/
  releaseWait : Bool := false
  /-- HB_ENGAGE_T runs after standstill (R89, 10 R236). -/
  engageWait : Bool := false
  /-- The 5 ms hold of the brake output after a trip runs (R89). -/
  tripHold : Bool := false
  /-- LEG_BYPASS_MASK, stored in MRAM (R78, R82). -/
  bypassMask : BitVec 6 := 0
  /-- Commanded bypass in progress (R81). -/
  bypass : BypassPhase := .none
  /-- Stamp at which its ramp started, ns (R81). -/
  bypassFrom : Nat := 0
  /-- Stamp at which the bypass took effect, ns (08 R186). -/
  bypassAt : Nat := 0
  /-- The axis was in RUN when it tripped: an automatic bypass restarts it (R80). -/
  autoBypass : Bool := false
  /-- PHASE_I_CONT, A rms (R76). DC 5 -/
  iCont : F32 := 0x41C80000
  /-- PHASE_I_PEAK, A (R76). DC 5 -/
  iPeak : F32 := 0x428C0000
  /-- The I²t limit of R77 is in force. -/
  i2tLimit : Bool := false
  /-- BOOT_REFRESH counter (R68). -/
  bootRefresh : BitVec 32 := 0
  /-- Sum of i_x1 − i_x2 over the current 100 ms block, phases U, V, W, A (R64). -/
  imbU : F32 := 0
  /-- Sum for phase V (R64). -/
  imbV : F32 := 0
  /-- Sum for phase W (R64). -/
  imbW : F32 := 0
  /-- Periods summed in the block (R64). -/
  imbN : Nat := 0
  /-- 0x2201 stands raised for phases U, V, W: bit 0, 1, 2 (R64). -/
  imbRaised : BitVec 3 := 0
  /-- VGD of this axis is present: its gate domain is powered and no STO input removes it (R67, R83). -/
  vgdOn : Bool := false
deriving DecidableEq, Repr

/-- The safe-torque-off path (chapter 04). STO_FB is computed from it. -/
structure Sto where
  /-- STO1_N holds its switch open (R83). DC 2 -/
  in1Low : Bool := false
  /-- STO2_N holds its switch open (R83). DC 2 -/
  in2Low : Bool := false
  /-- A discrepancy was found: enable is refused until both inputs were high together for 1 ms (R86). -/
  discrepancy : Bool := false
  /-- Both inputs have been high together for 1 ms since the last removal or discrepancy (R86). -/
  highSeen : Bool := true
deriving DecidableEq, Repr

/-- Network lock states, NL_STATE 0 to 4 (05 Table 5.1). -/
inductive NlState where | off | wait | acquire | locked | holdover
deriving DecidableEq, Repr

/-- PWM timebase of an axis (chapter 05). -/
structure Pwm where
  /-- The timebase runs (R93). -/
  running : Bool := false
  /-- Half-period H in ticks of the placed carrier (R91). -/
  h : Nat := 0
  /-- Trim of the half-periods by network lock, in units of 2^-16 tick (R100). -/
  trim : Int := 0
  /-- Slew of each half-period of this period while gates switch in ACQUIRE, in units of 2^-16 tick (R100). -/
  slew : Int := 0
  /-- Fraction carried by the accumulator of the half-period lengths, in units of 2^-16 tick (R100). -/
  frac : Int := 0
  /-- Tick of the commit point handled last, in ticks of 250 ps of the drive's time (R91, R94). -/
  carAt : Nat := 0
  /-- Extremes of c1, newest first, up to the next commit point: tick, and whether it is a peak (R91, R92). -/
  exts : List (Nat × Bool) := []
  /-- The first selected extreme since the start of the timebase has come (R94). -/
  counting : Bool := false
  /-- Half-periods since the last boundary (R94). -/
  halfN : Nat := 0
  /-- The commit point handled last is a period boundary whose period has not been started (R94). -/
  boundaryDue : Bool := false
  /-- Tick of the last period boundary (01 Table 1.4). -/
  perAt : Nat := 0
  /-- Tick of the boundary before it: the period completed last began there (01 R20). -/
  lastPer : Nat := 0
  /-- Network lock state (R99). -/
  nl : NlState := .off
  /-- NL_PHASE_ERR in ns (R99). -/
  phaseErr : F32 := 0
  /-- Consecutive boundaries with |e| at or below 20 ns (R99). -/
  lockRun : Nat := 0
  /-- Consecutive boundaries with |e| above NL_LOSS_THR (R99). -/
  lossRun : Nat := 0
  /-- Gates of the axis switch: at least one switch not held off (R93, 03 R52). -/
  switching : Bool := false
  /-- The start path asked for gates on at the commit point that brings the first duty set (10). -/
  gateArm : Bool := false
  /-- All low-side gates on: active short (12 R274). -/
  shorted : Bool := false
  /-- A whole duty set that has crossed and waits for a commit point (01 R22). -/
  crossed : Option (List F32) := none
  /-- The duty set the engine wrote reaches the PWM domain only after this commit point (01 R22). -/
  crossedLate : Bool := false
  /-- The waiting set missed its boundary: it commits at the next commit point (01 R22). -/
  crossedHeld : Bool := false
  /-- DUTY_LATE (01 R22). -/
  dutyLate : BitVec 32 := 0
  /-- DUTY_CLAMP (R95). -/
  dutyClamp : BitVec 32 := 0
  /-- TRIP_COUNT (Table 5.9). -/
  tripCount : BitVec 32 := 0
  /-- SCARP_FIRST, 0xFF none (R111). -/
  scarpFirst : BitVec 8 := 0xFF
  /-- Tick at which that source tripped the axis (R111). -/
  tripTick : Nat := 0
deriving DecidableEq, Repr

/-- The Scarp trip network and its comparators (chapter 05). -/
structure Scarp where
  /-- SCARP_LATCH (R109). -/
  latch : BitVec 32 := 0
  /-- Levels of the 32 trip sources: raw comparator outputs and digital inputs (R103, R109, R112). -/
  raw : BitVec 32 := 0
  /-- BLANK_HIT of CMP0 to CMP23, saturating at 255 (R108). -/
  blankHit : List (BitVec 8) := List.replicate 24 0
  /-- CMP_TEST_FAIL (R115). -/
  testFail : BitVec 32 := 0
  /-- Tick of the latest trip input (R111). -/
  tick : Nat := 0
  /-- The comparator the next periodic self-test takes (R114). -/
  nextTest : Fin 24 := 0
deriving DecidableEq, Repr

/-- Plausibility state of one ordinary channel, pair × 8 + channel − 1 (06 R132, R133). -/
structure Plaus where
  /-- The latest rescaled code and whether it came from converter k + 6. -/
  last : Option (Bool × Rat) := none
  /-- The code before it. -/
  prev : Option (Bool × Rat) := none
  /-- Mismatches in a row (R133). -/
  run : Nat := 0
  /-- PLAUS_CNT was reached: arbitration of this channel is due (R133). -/
  arbitrate : Bool := false
  /-- Stamp of the last 0x2402 for this channel, in ns (Table 6.8). -/
  warnedAt : Option Nat := none
deriving DecidableEq, Repr

/-- The external analog inputs in pad order (06 R141, R142): SIN and COS of an axis share one open-wire test. -/
inductive ExtIn where | sinA | cosA | sinB | cosB | ntcA0 | ntcA1 | ntcB0 | ntcB1 | ain0 | ain1 | refExt
deriving DecidableEq, Repr

/-- Monitoring state of one external input (06 R141 to R143). -/
structure ExtSt where
  /-- Consecutive results with WIN (R141). -/
  winRun : Nat := 0
  /-- WIN_COUNT (R145). -/
  winCount : BitVec 16 := 0
  /-- OW_DETECT (R145). -/
  owDetect : BitVec 8 := 0
  /-- Found open at its last test (R143). -/
  opened : Bool := false
  /-- Latest code of the input, kept while a test runs (R142). -/
  code : BitVec 16 := 0
deriving DecidableEq, Repr

/-- Step of the open-wire test that runs (06 Table 6.10). -/
inductive OwStep where
  | idle
  | first  (i : ExtIn)              -- pull-up on, waiting for V_up or V_1
  | second (i : ExtIn) (up : Int)   -- pull-down on, waiting for V_dn or V_2; the first value in mV
  | rest   (i : ExtIn)              -- currents off, last OW_SETTLE
deriving DecidableEq, Repr

/-- Drive-level conversion state (chapter 06). -/
structure ConvDrive where
  /-- The 48 shared channels (R132). -/
  plaus : List Plaus := List.replicate 48 {}
  /-- The eleven external inputs in pad order (R141). -/
  ext : List ExtSt := List.replicate 11 {}
  /-- The open-wire test (R142). -/
  ow : OwStep := .idle
  /-- Position of the next input to test in the list of tested inputs (R142). -/
  owNext : Nat := 0
  /-- FOOTHILL of CONV_STATUS (R144). -/
  foothill : Bool := false
  /-- Latest calibrated result of the 48 shared channels in SI units, and whether it carried WIN, OPEN, SUSPECT or REF_NOK
  (R118, R120; 07 Table 7.3). DC 2 -/
  si : List (F32 × Bool) := List.replicate 48 (0, false)
  /-- Periods of timer 0 and timer 1 in ns; 0 while a timer stands (R126, R144). -/
  timers : Nat × Nat := (0, 0)
  /-- Converters whose accepted calibration waits for their urgent conversion (R130, R139). -/
  calWait : BitVec 12 := 0
  /-- Converters of the second phase of the calibration that runs (R139). -/
  calNext : BitVec 12 := 0
  /-- Stamp of the start of its first phase, ns (R139). -/
  calAt : Nat := 0
deriving DecidableEq, Repr

/-- Per-axis conversion state (chapter 06). -/
structure ConvAxis where
  /-- REF_OK, CONV_STATUS bit 15 (R137). -/
  refOk : Bool := true
  /-- The reference placed for the axis, as REF_SEL (R136). -/
  refSel : BitVec 8 := 0
  /-- The latest CHK ½ code and its stamp in ns, for settling (R137). -/
  chkLast : Option (BitVec 16 × Nat) := none
  /-- A reference change waits for REF_OK (R138). -/
  refWait : Bool := false
  /-- PROF_TRIG_OVR (R130, R145). -/
  profTrigOvr : BitVec 32 := 0
  /-- The profile being sampled: leg index × 16 + i, calibrated current in A and result word (R121 to R123). -/
  profNow : List (Nat × F32 × BitVec 32) := []
  /-- Tick of the boundary that started it (R122). -/
  profAt : Nat := 0
  /-- Period count at that boundary (R121). -/
  profRun : Nat := 0
  /-- The profile sequence of this period is not complete (R130). -/
  profBusy : Bool := false
  /-- The profile block that crossed to the engine at the last boundary (R124). -/
  profile : List (Nat × F32 × BitVec 32) := []
deriving DecidableEq, Repr

/-- One Ridge engine with its Traverse sequencer (chapter 07). -/
structure EngineSt where
  /-- The active bank: 0 or 1, RG_BANK (R162, Table 7.13). -/
  active : Bool := false
  /-- Bank 0 (R156). -/
  bank0 : BankImage := {}
  /-- Bank 1 (R156). -/
  bank1 : BankImage := {}
  /-- Thoevo armed the inactive bank and its check is due (R161). -/
  armed : Bool := false
  /-- The check passed: a swap is pending (R162, RG_BANK). -/
  swapPending : Bool := false
  /-- The last arm was refused with RG_BANK_BAD (R161). -/
  bankBad : Bool := false
  /-- The last arm was refused with RG_SWAP_BUSY (R161, R165). -/
  swapRefused : Bool := false
  /-- SECDED check bits of the op words and directory entries of bank 0, generated at write (R156). -/
  check0 : List (BitVec 8) := []
  /-- Those of bank 1 (R156). -/
  check1 : List (BitVec 8) := []
  /-- Event FIFO, oldest first, at most 16: event code and value (R152, R155). -/
  events : List (BitVec 8 × BitVec 32) := []
  /-- Drops of the current second: stamps in ns (R155). -/
  dropStamps : List Nat := []
  /-- State file: user private words and words written by init lists, by address, rising; unlisted words are 0 (R148). DC 7 -/
  file : List (Nat × BitVec 32) := []
  /-- Corrections of the current second: stamps in ns (R169). -/
  eccStamps : List Nat := []
  /-- Heartbeat count the sequencer has seen (01 R17, 15 R320). -/
  heartbeat : BitVec 16 := 0
  /-- Marked failed by the self-test, kept in MRAM (R170). -/
  failed : Bool := false
  /-- Out for its self-test (R170). -/
  underTest : Bool := false
deriving DecidableEq, Repr

/-- Drive-level Ridge registers (chapter 07). -/
structure RidgeDrive where
  /-- Ridge A (R147). -/
  rga : EngineSt := {}
  /-- Ridge B (R147). -/
  rgb : EngineSt := {}
  /-- RG_ECC_CORR: [31:16] RGB, [15:0] RGA (R169). -/
  eccCorr : BitVec 32 := 0
  /-- RG_EVT_DROP (R155). -/
  evtDrop : BitVec 32 := 0
  /-- The last engine test was skipped: RG_TEST_STATUS bit 2 (R170). -/
  testSkipped : Bool := false
  /-- The engine the next periodic test takes (R170). DC 2 -/
  nextTest : Engine := .rga
  /-- Axes moved away for the running test, to be handed back (R170). -/
  testMoved : List Axis := []
  /-- Hand-over under way: the axis, until its swap (R164). -/
  handover : Option Axis := none
  /-- RG_HANDOVER_LATE was returned to Cairn (R164). -/
  handoverLate : Bool := false
  /-- The boundary of the handed-over axis waits for the copy (R164). -/
  copyPending : Bool := false
deriving DecidableEq, Repr

/-- Sequencer modes (07 Table 7.4). -/
inductive SeqMode where | idle | start | run | ident | fault
deriving DecidableEq, Repr

/-- Per-axis sequencer state (chapter 07). -/
structure SeqSt where
  /-- The axis is placed, and on which engine: RG_HOST (R175). -/
  host : Option Engine := none
  /-- The last mode Thoevo wrote (R159). -/
  written : SeqMode := .idle
  /-- The mode selected at the last boundary, SEQ_MODE (R159). -/
  mode : SeqMode := .idle
  /-- The sampled flags, SEQ_FLAGS (R158). -/
  flags : BitVec 16 := 0
  /-- TRIP has crossed to the sequencer (05 R111). -/
  trip : Bool := false
  /-- HB_LOSS (01 R17). -/
  hbLoss : Bool := false
  /-- RG_FAULT (01 R23, R169). -/
  rgFault : Bool := false
  /-- A bank swap or a mode change makes the next chain the first (R158). -/
  first : Bool := false
  /-- USR0 to USR2 (R158). DC 2 -/
  usr : BitVec 3 := 0
  /-- Periods since the swap (R159). -/
  periods : Nat := 0
  /-- Speed parts run since the swap (R159). -/
  speedRuns : Nat := 0
  /-- The chain of the running period has started and not ended (01 R23). -/
  chainBusy : Bool := false
  /-- The chain waits for the other axis's chain or for a hand-over copy (R157, R164). -/
  chainQueued : Bool := false
  /-- Overruns in a row (01 R23). -/
  overruns : Nat := 0
  /-- The sequencer stopped dispatching after an error in the FAULT chain (R169). -/
  dead : Bool := false
  /-- RG_OVR (01 R23). -/
  rgOvr : BitVec 32 := 0
  /-- RG_CYC_MAX (R168). -/
  cycMax : BitVec 16 := 0
  /-- RG_NAN (R149). -/
  nan : BitVec 32 := 0
  /-- USR_NAN (R174). -/
  usrNan : BitVec 32 := 0
  /-- Stamp of the last 0x2502, ns (R174). -/
  usrNanAt : Option Nat := none
  /-- The duty set the running chain will deliver at its end (01 R20, R22). -/
  duty : Option (List F32) := none
  /-- Telemetry words the running chain delivers at its end (R152; 16 R340). -/
  tele : List (Nat × BitVec 32) := []
  /-- The NaN flag of the running chain (R149). -/
  nanFlag : Bool := false
  /-- The first chain on a new bank writes the init list (R163). -/
  initPending : Bool := false
deriving DecidableEq, Repr

/-- A setpoint: iq in A, ω in rad/s, or a position, with its feed-forwards (08 Table 8.1). -/
structure Setpoint where
  /-- Kind: 0 torque, 1 speed, 2 position, as CTRL_MODE. -/
  kind : BitVec 8 := 1
  /-- Torque or speed value. -/
  value : F32 := 0
  /-- Position fraction. -/
  frac : BitVec 32 := 0
  /-- Position turns. -/
  turns : BitVec 32 := 0
  /-- Velocity feed-forward, rad/s. -/
  vff : F32 := 0
  /-- Torque feed-forward, A. -/
  tff : F32 := 0
deriving DecidableEq, Repr

/-- Setpoint intake of an axis (08 R190 to R194). -/
structure SpSt where
  /-- SP_SRC the last enable brought into force (R190). DC 2 -/
  src : BitVec 8 := 0
  /-- CTRL_MODE in force (R177). -/
  mode : BitVec 8 := 1
  /-- A CTRL_MODE change waits for the first boundary with the speed part due (R177). -/
  modePending : Option (BitVec 8) := none
  /-- Setpoint written, visible at the next boundary (R153, R191). -/
  shadow : Option Setpoint := none
  /-- Cyclic setpoints received, each to apply at the boundary at or after this time of the drive in ns (R191). -/
  cyclic : List (Nat × Setpoint) := []
  /-- Instants of the cycles of a Traverse set for which a setpoint came last, newest first (R193). -/
  got : List Nat := []
  /-- Instant of the cycle of a Traverse set that is judged next (R193). -/
  nextDue : Option Nat := none
  /-- Last setpoint received since the axis entered DISABLED, kept until acceptance (10 R238). -/
  kept : Option Setpoint := none
  /-- Setpoints are accepted (10 Table 10.3 to 10.5). -/
  accepted : Bool := false
  /-- The setpoint in force (R191). -/
  now : Setpoint := {}
  /-- The position setpoint before the one in force and the boundary time it was applied, for SP_INTERP (R192). -/
  prevPos : Option (Int × Nat) := none
  /-- Consecutive missed cycles (R193). -/
  missRun : Nat := 0
  /-- SP_MISSED (R193). -/
  missed : BitVec 32 := 0
  /-- SP_HOLD, CTRL_STATUS bit 8 (Table 8.4). -/
  hold : Bool := false
  /-- A new setpoint became visible at this boundary, SP_NEW (07 R158). -/
  isNew : Bool := false
  /-- Filtered curve input x (R195). -/
  curveX : F32 := 0
  /-- A first input result was taken since READY (R196). -/
  curveSeen : Bool := false
  /-- The filtered value is valid (R196). -/
  curveValid : Bool := false
  /-- An upward crossing of CURVE_ON may turn the curve on (Table 8.6). -/
  curveArmed : Bool := false
  /-- The curve is on, CTRL_STATUS bit 7 (R196). -/
  curveOn : Bool := false
  /-- The input is faulted (R196). -/
  curveFault : Bool := false
  /-- Latest PWM_CMD duty of the axis's input, a fraction (R195). -/
  curveIn : F32 := 0
deriving DecidableEq, Repr

/-- State of the control loops of an axis (chapter 08). -/
structure CtlSt where
  /-- Current integrators x_d, x_q (R180). -/
  xd : F32 := 0
  /-- x_q (R180). -/
  xq : F32 := 0
  /-- Δ integrators (R185). -/
  xdDiff : F32 := 0
  /-- Δ integrator of q (R185). -/
  xqDiff : F32 := 0
  /-- Field-weakening state id_fw (R181). -/
  idFw : F32 := 0
  /-- Balance states b of U, V, W (R184). -/
  balU : F32 := 0
  /-- b of V (R184). -/
  balV : F32 := 0
  /-- b of W (R184). -/
  balW : F32 := 0
  /-- w_ref (R187). -/
  wRef : F32 := 0
  /-- w_ref of the previous speed part (R187). -/
  wRefPrev : F32 := 0
  /-- acc_ref (R187). -/
  accRef : F32 := 0
  /-- Speed integrator x_s (R187). -/
  xs : F32 := 0
  /-- Last w_tgt of the position part (R188). -/
  wTgt : F32 := 0
  /-- pos_err of the last position part (R188). -/
  posErr : F32 := 0
  /-- Position reference as turns × 2^32 + fraction (R177, R188, R192). -/
  posRef : Int := 0
  /-- iq reference of the speed part before the current part (R187). -/
  iqRef : F32 := 0
  /-- id reference in force (R181). -/
  idRef : F32 := 0
  /-- Measured i_d, i_q of the last chain (R179). -/
  id : F32 := 0
  /-- i_q (R179). -/
  iq : F32 := 0
  /-- Voltages u_d, u_q of the last chain (R180). -/
  ud : F32 := 0
  /-- u_q (R180). -/
  uq : F32 := 0
  /-- |pos_err| grew from the position part before the last one (10 R237). -/
  errGrows : Bool := false
  /-- Consecutive position parts beyond FOLLOW_ERR_MAX (R189). -/
  followRun : Nat := 0
  /-- Torque-mode stops: the axis runs in speed mode for a ramp stop (10 Table 10.8). -/
  stopRef : F32 := 0
  /-- The speed target is bounded to this |ω| by the LIMIT of R181. -/
  fwBound : Option F32 := none
  /-- CTRL_STATUS bits 0 to 4 (R180 to R187). -/
  status : BitVec 16 := 0
  /-- The speed part before the current part clamped its iq reference (R183). -/
  iqClamped : Bool := false
  /-- CUR_NO_POINT (R178). -/
  noPoint : BitVec 32 := 0
  /-- Periods in a row without a usable point, per leg (R178). -/
  noPointRun : List Nat := [0, 0, 0, 0, 0, 0]
  /-- The duties that applied in the period the edge words describe (R182). DC 6 -/
  dutyApplied : List F32 := List.replicate 6 0x3F000000
  /-- θ_b of the last chain, rad (R179). -/
  theta : F32 := 0
  /-- ω_e of the last chain, rad/s (R179). -/
  we : F32 := 0
deriving DecidableEq, Repr

/-- Steps of a motor measurement (09 Table 9.5; 11 R262), in their order. -/
inductive IdentStep where
  | zero | readA | readB | polarity | star | spin | down | ended
deriving DecidableEq, Repr

/-- What the steps of identification have left (09 R218, R219). -/
structure IdentRun where
  /-- The step of the last chain. -/
  step : IdentStep := .zero
  /-- g11, g12, g22 of the rest read along α, in the stationary frame. -/
  a11 : F32 := 0
  /-- g12. -/
  a12 : F32 := 0
  /-- g22. -/
  a22 : F32 := 0
  /-- g11, g12, g22 of the rest read along β. -/
  b11 : F32 := 0
  /-- g12. -/
  b12 : F32 := 0
  /-- g22. -/
  b22 : F32 := 0
  /-- ḡ of the rest read with star 2 at zero current. -/
  gStar : F32 := 0
  /-- Sum of E · i over the periods of both reads, W. -/
  eSum : F32 := 0
  /-- Sum of |i|² over them, A². -/
  iSum : F32 := 0
  /-- Leg ripple at the end of the reads, A peak-to-peak (04 R66). -/
  ripple : F32 := 0
  /-- Sum of |fx| over the 500 ms of the spin, Wb. -/
  fxSum : F32 := 0
  /-- Chains summed in it. -/
  fxN : Nat := 0
  /-- Speed target of the spin, mechanical rad/s. -/
  spinTo : F32 := 0
  /-- 20 % of rated speed was reached at this stamp, ns. -/
  reached : Option Nat := none
  /-- The spin failed: not reached within 2 s, or CREST_CONV lost (Table 9.6 reason 6). -/
  spinFail : Bool := false
deriving DecidableEq, Repr

/-- Crest observer of an axis (chapter 09). -/
structure CrestSt where
  /-- Observer angle θ̂, rad (R204). -/
  th : F32 := 0
  /-- Observer electrical speed, rad/s (R204). -/
  we : F32 := 0
  /-- Fit sums p11, p12, p22, q11, q12, q21, q22 (R200). -/
  p11 : F32 := 0
  /-- p12 (R200). -/
  p12 : F32 := 0
  /-- p22 (R200). -/
  p22 : F32 := 0
  /-- q11 (R200). -/
  q11 : F32 := 0
  /-- q12 (R200). -/
  q12 : F32 := 0
  /-- q21 (R200). -/
  q21 : F32 := 0
  /-- q22 (R200). -/
  q22 : F32 := 0
  /-- g11, g12, g22 of the latest fit (R200). -/
  g11 : F32 := 0
  /-- g12 (R200). -/
  g12 : F32 := 0
  /-- g22 (R200). -/
  g22 : F32 := 0
  /-- E of the latest fit in dq (R200). -/
  eD : F32 := 0
  /-- E_q (R200). -/
  eQ : F32 := 0
  /-- Flux state λ, αβ (R203). -/
  lamA : F32 := 0
  /-- λ_β (R203). -/
  lamB : F32 := 0
  /-- fx, αβ (R203). -/
  fxA : F32 := 0
  /-- fx_β (R203). -/
  fxB : F32 := 0
  /-- Tracker error e of the last chain, rad (R204). -/
  err : F32 := 0
  /-- Blend weight w of the last chain (R204). -/
  w : F32 := 0
  /-- Polarity is known, CREST_STATUS bit 5. -/
  polarity : Bool := false
  /-- CREST_CONV, bit 0 (R209). -/
  conv : Bool := false
  /-- The saliency part is in hold, bit 4 (R206). -/
  hold : Bool := false
  /-- The saliency part is off until the next enable because of R215. -/
  salOff : Bool := false
  /-- The saliency fit is paused, bit 7 (R215). -/
  paused : Bool := false
  /-- Resistance estimate at its clamp, bit 8 (R212). -/
  rsClamp : Bool := false
  /-- Flux estimate at its clamp, bit 9 (R212). -/
  psiClamp : Bool := false
  /-- Cross-check disagrees, bit 10 (R216). -/
  xchk : Bool := false
  /-- The latest cross-check difference d, rad (R216). -/
  xchkD : F32 := 0
  /-- CREST_XCHK_MEAN, °e (R216). -/
  xchkMean : F32 := 0
  /-- Boundaries in a row with |d| beyond CREST_XCHK_ANG (R216). -/
  xchkOver : Bool := false
  /-- CREST_SALIENCY (R198, R201). -/
  saliency : F32 := 0
  /-- CREST_EXC, A (R200). -/
  exc : F32 := 0
  /-- CREST_RS_EST, Ω (R212). -/
  rsEst : F32 := 0
  /-- CREST_PSI_EST, Wb (R212). -/
  psiEst : F32 := 0
  /-- CREST_T_WIND, °C (R213). -/
  tWind : F32 := 0
  /-- CREST_T_MAG, °C (R213). -/
  tMag : F32 := 0
  /-- CREST_LOST_CNT (R210). -/
  lostCnt : BitVec 32 := 0
  /-- Relative position counted from the first convergence, turns × 2^32 + fraction (R211). -/
  pos : Int := 0
  /-- The relative position has started since the enable (R211). -/
  posStarted : Bool := false
  /-- IDENT_STATUS (R218, R219). -/
  identStatus : BitVec 8 := 0
  /-- 0x2701 was raised since the enable (R215). -/
  salWarned : Bool := false
  /-- g₊ of the polarity test: the d-axis entry of the fit over the last 1 ms of its positive pulse (R208). -/
  gPlus : F32 := 0
  /-- g₋, of its negative pulse (R208). -/
  gMinus : F32 := 0
  /-- What the identification has measured so far (R218). -/
  ident : IdentRun := {}
deriving DecidableEq, Repr

/-- AX_STATE 0 to 12 (10 Table 10.1). -/
inductive AxState where
  | disabled | measure | blockedWait | read | polarity | align | ramp | converge | release | run | stopping
  | retryWait | activeShort
deriving DecidableEq, Repr

/-- Stop kinds in order of strength (10 Table 10.8). -/
inductive StopKind where | ramp | quick | coast | activeShort | sto
deriving DecidableEq, Repr

/-- Start paths (10 R224, R225). -/
inductive StartPath where | sensor | flying | saliency | align
deriving DecidableEq, Repr

/-- Start and stop sequencing of an axis (chapter 10). -/
structure StartSt where
  /-- AX_STATE (R221). -/
  ax : AxState := .disabled
  /-- The start path chosen (R224, R225). -/
  path : StartPath := .sensor
  /-- Retry k of the attempt under way (R231). -/
  retry : Nat := 0
  /-- Start direction s is negative (R228). -/
  dirNeg : Bool := false
  /-- The target at t0 was zero: either rotation is forward (R224). -/
  anyDir : Bool := true
  /-- The catch's angle waits for its extrapolation to the first boundary (R226). -/
  seeded : Bool := false
  /-- Alignment in phase 2 (R228). -/
  phase2 : Bool := false
  /-- The 135 °e step was made (R228). -/
  stepped : Bool := false
  /-- ST_ALIGN_RISE elapsed (R228). -/
  risen : Bool := false
  /-- The alignment ended: the ramp runs, or waits for a nonzero target (R229). -/
  alignDone : Bool := false
  /-- Angle φ of the open-loop vector, rad (R228, R229). -/
  phi : F32 := 0
  /-- Open-loop mechanical speed of the vector, rad/s (R229). -/
  wRamp : F32 := 0
  /-- Stamp at which the alignment or ramp started, ns (R228). -/
  t0 : Nat := 0
  /-- Rotation seen by the flux part in the alignment, rad (R228). -/
  turned : F32 := 0
  /-- The merge of R229 runs, from this stamp, ns. -/
  merge : Option Nat := none
  /-- d and q references at the start of the merge (R229). -/
  mergeD : F32 := 0
  /-- q reference at the start of the merge (R229). -/
  mergeQ : F32 := 0
  /-- A flying start braking a backward rotor through zero (R226). -/
  backward : Bool := false
  /-- The stop under way is the ramp at DEC_MAX of a curve that turned off (08 R196). -/
  curveStop : Bool := false
  /-- An open-loop crossing of zero is under way (R226, R233). -/
  crossing : Bool := false
  /-- The stop under way (R235). -/
  stop : Option StopKind := none
  /-- Gates go off at the next boundary: coast, failed attempt, stronger stop (R231, R235). -/
  gateOffNext : Bool := false
  /-- After the gates go off at the boundary the axis waits in RETRY_WAIT (R231). -/
  retryNext : Bool := false
  /-- The reason of the failed attempt (R231). -/
  failReason : BitVec 8 := 0
  /-- ST_ATTEMPTS (R231). -/
  attempts : BitVec 32 := 0
  /-- ST_LAST_FAIL (R231). -/
  lastFail : BitVec 8 := 0
  /-- Half-wave position of the rest read, in control periods (09 R207). -/
  readPos : Nat := 0
  /-- A leg test runs on this leg (21 R437). -/
  legTest : Option Leg := none
deriving DecidableEq, Repr

/-- One position-compare unit (11 R259). -/
structure CmpSt where
  /-- Armed (R259). -/
  armed : Bool := false
  /-- Compare value V, turns × 2^32 + fraction (R259). -/
  v : Int := 0
  /-- The position, before FB_DIR, from which the latest motion is judged for a crossing (R259). -/
  origin : Int := 0
  /-- End stamps of the output pulses issued and not ended, oldest first, ns, at most 16 (R259, R260). -/
  ends : List Nat := []
  /-- CMP_HITS (R259). -/
  hits : BitVec 32 := 0
  /-- CMP_OVR (R260). -/
  ovr : BitVec 32 := 0
  /-- Stamp of the last 0x2907, ns (R260). -/
  warnedAt : Option Nat := none
  /-- Hit FIFO, oldest first, at most 16: position, gPTP time, unsynchronised (R259). -/
  fifo : List (Int × Nat × Bool) := []
deriving DecidableEq, Repr

/-- One capture input (11 R261). -/
structure CapSt where
  /-- Capture FIFO, oldest first, at most 16: position, gPTP time, unsynchronised (R261). -/
  fifo : List (Int × Nat × Bool) := []
  /-- Stamp of the latest capture, ns, for the 100 ns merge (R261). -/
  last : Option Nat := none
  /-- Captures of a sampled source whose position the next sample gives, oldest first: stamp, gPTP time, unsynchronised (R261). -/
  wait : List (Nat × Nat × Bool) := []
deriving DecidableEq, Repr

/-- Feedback interface of an axis (chapter 11). -/
structure FbSt where
  /-- Position as turns × 2^32 + fraction before FB_DIR (01 R4, R242). DC 2 -/
  pos : Int := 0
  /-- Quarter-period count q of a sin/cos source (R249). -/
  quarter : Int := 0
  /-- Latest sampled pair (A, B) (R244). DC 2 -/
  ab : Bool × Bool := (false, false)
  /-- The last count went up (R246). -/
  up : Bool := true
  /-- Stamps of recent QERR samples, ns (R244). -/
  qerrStamps : List Nat := []
  /-- QERR (R244). -/
  qerr : BitVec 32 := 0
  /-- REFERENCED, bit 3 (R246). -/
  referenced : Bool := false
  /-- Consecutive mismatching Z (R246). -/
  zRun : Nat := 0
  /-- Z_ERR (R246). -/
  zErr : BitVec 32 := 0
  /-- Last legal Hall state (R247). DC 2 -/
  hall : BitVec 3 := 1
  /-- The Hall inputs hold an illegal state (R247). -/
  hallIllegal : Bool := false
  /-- HALL_ERR (R247, R248). -/
  hallErr : BitVec 32 := 0
  /-- Consecutive Hall mismatches (R248). -/
  hallRun : Nat := 0
  /-- θ_ofs taken at the first Hall edge, °e (R242, R248). -/
  hallOfs : Option F32 := none
  /-- Angle of the last Hall edge, °e (R248). -/
  hallEdge : Option F32 := none
  /-- Hall disagrees, bit 6 (R248). -/
  hallBad : Bool := false
  /-- A valid frame of a serial source has come (Table 11.1). -/
  valid : Bool := false
  /-- A STOP of the feedback subsystem holds FB_OK clear (Table 11.6). -/
  faulted : Bool := false
  /-- RESTORED, bit 10 (R243). -/
  restored : Bool := false
  /-- Sin/cos amplitude out, bit 7 (R250). -/
  ampOut : Bool := false
  /-- Consecutive invalid sin/cos samples (R250). -/
  scRun : Nat := 0
  /-- Latest sin, cos, amplitude, V (R249). -/
  sin : F32 := 0
  /-- cos (R249). -/
  cos : F32 := 0
  /-- r (R250). -/
  amp : F32 := 0
  /-- Position of the latest sampled-source sample that reaches the port at the next boundary (R249). -/
  sample : Option Int := none
  /-- A serial frame is being clocked (R251). -/
  serBusy : Bool := false
  /-- DAT was high at the request (R253). -/
  serDatHigh : Bool := true
  /-- The request stamp of the frame, ns (R251). -/
  serAt : Nat := 0
  /-- A new request found the frame still running: it is bad (Table 11.6). -/
  serLate : Bool := false
  /-- Serial frame bad, bit 8 (R253). -/
  serBad : Bool := false
  /-- Consecutive bad frames (R253). -/
  serRun : Nat := 0
  /-- Every bad frame of the run was a jump (R253). -/
  serJump : Bool := true
  /-- SER_ERR (R253). -/
  serErr : BitVec 32 := 0
  /-- Position of the last qualified edge of a sampled source (R255). -/
  edgePos : Option Int := none
  /-- Direction of the last qualified edge is reverse, bit 5 (R255). -/
  dirRev : Bool := false
  /-- Stamps of qualified edges, newest first, at most 65 (R255). -/
  edges : List Nat := []
  /-- Qualified edges in one direction since standstill, reset or a reversal, up to 2 (R256). -/
  inDir : Nat := 0
  /-- STANDSTILL, bit 4 (R256). -/
  standstill : Bool := true
  /-- FB_SPEED, rad/s (R255). -/
  speed : F32 := 0
  /-- SPEED_VALID, bit 1 (R256). -/
  speedValid : Bool := false
  /-- Positions latched at the last boundaries, newest first, at most 65 (R255). -/
  hist : List Int := []
  /-- Stamp of the latest sampled position, ns (Table 11.5). -/
  sampleAt : Nat := 0
  /-- Stamp of the sample before it, ns (R259, R261). -/
  prevAt : Nat := 0
  /-- Boundary tick of the period whose sin/cos sample event is still to come (R249). DC 7 -/
  scDue : Option Nat := none
  /-- Periods since the one of the last serial request that was due (R251). -/
  serSkip : Nat := 0
  /-- Boundary tick of the period whose serial request is still to come (R251). DC 7 -/
  serDue : Option Nat := none
  /-- E at the two ends of the course a sampled source's counts are spread over, and the stamp of its begin, ns (R258). DC 7 -/
  emuFrom : Int := 0
  /-- E at its end (R258). -/
  emuGoal : Int := 0
  /-- Its begin (R258). -/
  emuSince : Nat := 0
  /-- Emulation output count (R258). -/
  emu : Int := 0
  /-- Stamp of the latest output count, ns (R258). -/
  emuAt : Nat := 0
  /-- Emulation lag, bit 9 (R258). -/
  emuLag : Bool := false
  /-- Compare unit 0 (R259). -/
  cmp0 : CmpSt := {}
  /-- Compare unit 1 (R259). -/
  cmp1 : CmpSt := {}
  /-- Capture input 0 (R261). -/
  cap0 : CapSt := {}
  /-- Capture input 1 (R261). -/
  cap1 : CapSt := {}
  /-- CAP_OVR (R261). -/
  capOvr : BitVec 32 := 0
deriving DecidableEq, Repr

/-- Chopper phase (12 R266, R270). -/
inductive ChopPhase where
  | off
  | on         -- commanded on
  | retryOff   -- the 10 µs off time after a miss
deriving DecidableEq, Repr

/-- Bus monitor, chopper and escalation (chapter 12). -/
structure BusSt where
  /-- Latest calibrated VM_A, V (R265). DC 2 -/
  vmA : F32 := 0
  /-- Latest calibrated VM_B, V (R265). DC 2 -/
  vmB : F32 := 0
  /-- Chopper phase; BUS_STATUS bit 0 is `on` (R266). -/
  chop : ChopPhase := .off
  /-- CHOP_MIN_ON has elapsed for the on-command in force: stamp of the command, ns (R266). -/
  chopAt : Nat := 0
  /-- Ticks of the chopper's own transitions, newest first, at most eight (05 R106). -/
  chopTrans : List Nat := []
  /-- Time the chopper has been on in the running millisecond of the braking-load model, before its last on-command if it is
  on, ns (R269). -/
  onNs : Nat := 0
  /-- Start of that millisecond, ns (R269). -/
  tickAt : Nat := 0
  /-- Chopper faulty with this cause 1 to 3, BUS_STATUS bit 1 (R270). -/
  chopCause : Option (BitVec 8) := none
  /-- Consecutive misses (R270). -/
  misses : Nat := 0
  /-- CHOP_ON_COUNT (R266). -/
  onCount : BitVec 32 := 0
  /-- A chopper test waits for VM_HI between 36 V and 75 V (R271). -/
  testWaits : Bool := false
  /-- The chopper fault stands after a failed test at boot and is kept in MRAM (R280). -/
  testFailed : Bool := false
  /-- BRK_LOAD x (R269). -/
  load : F32 := 0
  /-- BUS_STATUS bit 7 (R269). -/
  loadWarn : Bool := false
  /-- BUS_STATUS bit 6: the LIMIT of R269 is in force. -/
  loadLimit : Bool := false
  /-- A chopper throttle is enforced (13 R290). -/
  chopThrottle : Bool := false
  /-- E1 in force (R273). -/
  e1 : Bool := false
  /-- E2 in force (R273). -/
  e2 : Bool := false
  /-- VM_HI at or below OV1 − CHOP_HYST throughout the last 10 ms (R273, R279). -/
  low10ms : Bool := true
  /-- CMP17 was seen active with the chopper commanded off (R270). -/
  shortSeen : Bool := false
deriving DecidableEq, Repr

/-- One entry of the active fault list (12 R276). -/
structure FaultEntry where
  code : BitVec 16
  /-- 0 drive, 1 axis A, 2 axis B (Table 12.7). -/
  scope : BitVec 8
  detail : BitVec 8
  /-- The cause holds (R276, R279). -/
  active : Bool
  /-- Time of the raise that made the entry, as TIME of Table 12.7 (17 FAULT_LIST). -/
  time : BitVec 64
deriving DecidableEq, Repr

/-- One fault-log entry (12 Table 12.7). -/
structure LogEntry where
  seq : BitVec 32
  time : BitVec 64
  code : BitVec 16
  event : BitVec 8
  scope : BitVec 8
  detail : BitVec 8
  pwr : BitVec 8
  axsA : BitVec 8
  axsB : BitVec 8
  vm : F32
  value : F32
  boot : BitVec 16
  repeats : BitVec 16
deriving DecidableEq, Repr

/-- Fault machinery (chapter 12). -/
structure FaultSt where
  /-- The active list in order of raise, at most 32 (R276). -/
  list : List FaultEntry := []
  /-- Log entries waiting for their MRAM write, oldest first (R282). -/
  logPending : List LogEntry := []
  /-- FAULT_N is held low by a pulse (R281). -/
  pulse : Bool := false
  /-- Codes raised during boot wait for their pulse (R281). -/
  bootPulse : Bool := false
deriving DecidableEq, Repr

/-- One temperature sensor of 13 Table 13.1 (R285, R286). -/
structure SensorSt where
  /-- Latest reading, °C. DC 2 -/
  t : F32 := 0
  /-- The sensor is valid (R288). -/
  valid : Bool := false
  /-- The sensor has read since the boot. -/
  seen : Bool := false
  /-- Latest results with stamps in ns, newest first, at most 16 (R292). -/
  hist : List (Nat × F32) := []
  /-- The previous result reached the warn, limit, stop threshold: bits 0, 1, 2 (R286). -/
  once : BitVec 3 := 0
  /-- The previous result was below the release level of warn, limit, stop, trip: bits 0 to 3 (R286, R290). -/
  lowOnce : BitVec 4 := 0
  /-- Warn threshold crossed (R286). -/
  warn : Bool := false
  /-- Limit threshold crossed (R286). -/
  limit : Bool := false
  /-- Stop threshold crossed (R286). -/
  stop : Bool := false
  /-- The sensor asserts the junction Scarp input (R290). -/
  trip : Bool := false
  /-- TH_GRACE runs (R291). -/
  grace : Bool := false
  /-- The derating of this sensor is enforced (R291). -/
  enforced : Bool := false
deriving DecidableEq, Repr

/-- Temperature sensing (chapter 13). -/
structure ThermalSt where
  /-- The 21 sensors in the order of DETAIL (R285). -/
  sensors : List SensorSt := List.replicate 21 {}
  /-- T_CASE_EST (R289). -/
  tCase : F32 := 0
  /-- P_EST (R289). -/
  pEst : F32 := 0
  /-- i_th of axis A, none when no limit is enforced (R291). -/
  ithA : Option F32 := none
  /-- i_th of axis B (R291). -/
  ithB : Option F32 := none
  /-- No valid winding source of axis A: 0x3B08 (R288). -/
  lostA : Bool := false
  /-- No valid winding source of axis B (R288). -/
  lostB : Bool := false
  /-- Rates halved by the die limit: 0x3B09 (R290). -/
  halved : Bool := false
  /-- Mean square leg current of the last millisecond, A², per leg index 0 to 11 (R289). -/
  iSq : List F32 := List.replicate 12 0
  /-- Mean |i| of the last millisecond, A, per leg (R289). -/
  iAbs : List F32 := List.replicate 12 0
deriving DecidableEq, Repr

/-- Placement of one axis (14 R300, R304). -/
structure AxisPlace where
  /-- m of R19. -/
  m : Nat := 1
  /-- p of R19. -/
  p : Nat := 1
  /-- Engine that hosts the axis (R300). -/
  engine : Engine := .rga
  /-- Half-period H in ticks (05 R91). -/
  h : Nat := 20000
  /-- Half-periods n of a control period (01 R18). -/
  n : Nat := 2
  /-- COMMIT_SEL placed (05 R94). -/
  commitSel : BitVec 8 := 2
  /-- Cycle counts of the current, speed and position parts (07 R166). -/
  cyc : Nat × Nat × Nat := (0, 0, 0)
  /-- Segments of the largest chain (07 R166). -/
  segs : Nat := 3
  /-- Init entries of Cairn and of the user segments (07 R163). -/
  init : Nat × Nat := (0, 0)
deriving DecidableEq, Repr

/-- A declared channel (14 Table 14.1). -/
structure DeclChannel where
  code : Nat
  sync : Nat
  rate : F32
deriving DecidableEq, Repr

/-- Destination of a stream (14 Table 14.2). -/
inductive StreamDest where | sram | mram | flash
deriving DecidableEq, Repr

/-- A placed stream (14 R302). -/
structure StreamPlace where
  stream : Nat
  dest : StreamDest
  rate : F32
  span : F32
  params : List (BitVec 16)
deriving DecidableEq, Repr

/-- A declared cyclic set (14 Table 14.1). -/
structure CyclicPlace where
  set : Nat
  transmit : Bool
  ports : BitVec 8
  cycleNs : Nat
  bytes : Nat
  offsetUs : Nat
deriving DecidableEq, Repr

/-- One itemised charge (14 R304, R306). -/
structure LedgerItem where
  item : BitVec 8
  count : BitVec 8
  detail : BitVec 16
  load : F32
deriving DecidableEq, Repr

/-- A placement Cairn has compiled (14 R298, R300). -/
structure Placement where
  axisA : Option AxisPlace := none
  axisB : Option AxisPlace := none
  channels : List DeclChannel := []
  streams : List StreamPlace := []
  cyclic : List CyclicPlace := []
  items : List LedgerItem := []
  /-- LEDGER_LOAD, mW (R305). -/
  load : F32 := 0
  /-- DECL_ID it was compiled from (R298). -/
  declId : BitVec 32 := 0
  /-- CRC-32 of the Next placement parameters (R298). -/
  parCrc : BitVec 32 := 0
  /-- The Next placement parameter values it was compiled with, by address, rising (R298). -/
  pars : List (Nat × BitVec 32) := []
  /-- The bank images and tables (R300). -/
  out : CairnOut := {}
  /-- Engine-failed marks when compiled (R312). -/
  failedMarks : BitVec 2 := 0
  /-- The placement uses the external flash (R304). -/
  flash : Bool := false
deriving DecidableEq, Repr

/-- One record stream while it runs (14 R302). -/
structure StreamSt where
  /-- Records held, oldest first: timestamp and values (R297); a record lost before its block was sealed has none (R302). -/
  recs : List (Nat × List (BitVec 32)) := []
  /-- Number of the oldest record held since placement. -/
  base : Nat := 0
  /-- Records lost or dropped (R302). -/
  lost : BitVec 32 := 0
  /-- Records of the open MRAM block not sealed yet (R302). -/
  openN : Nat := 0
  /-- Ticks since placement, for halving (R311). -/
  ticks : Nat := 0
  /-- Stamp of the last 0x2C04 of this stream, ns. -/
  warnedAt : Option Nat := none
deriving DecidableEq, Repr

/-- Cairn (chapter 14). -/
structure CairnSt where
  /-- The declaration being staged, and its announced length (R297, 17 Table 17.8). -/
  staged : List (BitVec 8) := []
  /-- The length announced for it (17 DECL_WRITE). -/
  stagedTotal : Nat := 0
  /-- A complete declaration is staged and not compiled: CAIRN_STATUS bit 2. -/
  stagedDirty : Bool := false
  /-- The placement in force (R299). -/
  active : Option Placement := none
  /-- The placement whose banks are armed and not all active yet; true for a runtime re-placement (R299, R308, 07 R161). -/
  arming : Option (Bool × Placement) := none
  /-- A re-placement is pending: its triggers, oldest first: CAIRN_STATUS bit 3 (R309). -/
  pendingTr : List (Trigger × Nat) := []
  /-- A compile is running, of the staged declaration (true) or the stored one (false); bit 1. -/
  compiling : Option (Bool × Bool) := none
  /-- Interruptions of the compile that runs (R309). -/
  interrupts : Nat := 0
  /-- Over budget: CAIRN_STATUS bit 6 (R305). -/
  overBudget : Bool := false
  /-- CAIRN_LAST_REJECT (R299). -/
  lastReject : BitVec 8 := 0
  /-- REPLACE_COUNT (R308). -/
  replaceCount : BitVec 32 := 0
  /-- REPLACE_T_MAX, µs (R308). -/
  replaceTMax : F32 := 0
  /-- STREAM_DROP (R308). -/
  streamDrop : BitVec 32 := 0
  /-- Flash streams suspended: bit 4 (R308). -/
  suspended : Bool := false
  /-- The stored placement matched at boot: bit 7 (R312). -/
  matched : Bool := false
  /-- The 16 streams (R302). -/
  streams : List StreamSt := List.replicate 16 {}
  /-- Staged user-segment ops, per axis and hook: key axis × 4 + hook (17 SEG_STAGE). -/
  segStage : List (Nat × List (BitVec 64)) := []
deriving DecidableEq, Repr

/-- Clocks and Col cells (chapter 15). -/
structure ClockSt where
  /-- Time since Summit started, ns, advanced by stamped commands and by idling (DC 4). -/
  now : Nat := 0
  /-- Idle steps taken, the index of the free idle time (the model's own field). DC 4 -/
  idle : Nat := 0
  /-- Index of the next free value (the model's own field). DC 3 -/
  free : Nat := 0
  /-- The external reference was qualified at boot and has not been lost (R314, R316). -/
  extRef : Bool := false
  /-- An external 25 MHz source is present on XTAL_IN, as the boot finds it (R314). DC 2 -/
  xtal : Bool := false
  /-- PLLs and DLLs out of lock: bit per PLL0 to 2, DLL A, B (R316). -/
  unlocked : BitVec 5 := 0
  /-- Stamp of the latest relock, ns: lock has been held since it once `unlocked` is 0 (R316). -/
  lockAt : Nat := 0
  /-- Heartbeat count on the source side (R320). -/
  heartbeat : BitVec 16 := 0
  /-- The heartbeat has been present for 10 ms (12 Table 12.6). -/
  heartbeatOk : Bool := false
  /-- Writes of the heartbeat since it resumed. -/
  heartbeatRun : Nat := 0
  /-- Sticky overflow flags of the event cells (R320). -/
  colFlags : BitVec 32 := 0
  /-- Powered or clocked islands woken by a request, bit per island (R323). -/
  woken : BitVec 10 := 0
deriving DecidableEq, Repr

/-- A mailbox message: opcode word, tag, session and payload bytes; length and CRC follow from them (17 R344, R345). -/
structure Msg where
  opcode : BitVec 16
  tag : BitVec 8
  session : BitVec 8
  payload : List (BitVec 8)
deriving DecidableEq, Repr

/-- What a registered read request will deliver (16 R330, R331). -/
structure HspAnswer where
  /-- The answer bytes, assembled after the frame that asked. -/
  bytes : List (BitVec 8)
  /-- First register address when the target was the registers, for read-clear bits (R331). -/
  regs : Option Nat := none
  /-- A streaming answer of the telemetry window starts at this offset; each pass is taken as it goes out (R340). -/
  stream : Option Nat := none
deriving DecidableEq, Repr

/-- The host serial port (chapter 16). -/
structure HspSt where
  /-- INT_STATUS (R335). -/
  intStatus : BitVec 16 := 0
  /-- INT_MASK (R334). -/
  intMask : BitVec 16 := 0x0020
  /-- MBX_ERR (R339). -/
  mbxErr : BitVec 8 := 0
  /-- HSP_MODE (R326). -/
  mode : BitVec 8 := 0
  /-- PROF0 (R333). -/
  prof0 : BitVec 16 := 0x0000
  /-- PROF1 (R333). -/
  prof1 : BitVec 16 := 0x3C00
  /-- PROF2 (R333). -/
  prof2 : BitVec 16 := 0x2800
  /-- PROF3 (R333). -/
  prof3 : BitVec 16 := 0x3C04
  /-- FRAME_ERR_CNT (R334). -/
  frameErrCnt : BitVec 16 := 0
  /-- FRAME_ERR of the status byte (R332). -/
  frameErr : Bool := false
  /-- LENGTH_ERR of the status byte (R332). -/
  lengthErr : Bool := false
  /-- ADDR_OVER of the status byte (R332). -/
  addrOver : Bool := false
  /-- The answer offered to the very next frame (R331). -/
  answer : Option HspAnswer := none
  /-- Status byte and data bytes the drive drove in the latest frame (R329, R330). -/
  driven : List (BitVec 8) := []
  /-- Inbox window by offset, rising; unlisted bytes are 0 (R338). DC 8 -/
  inbox : List (Nat × BitVec 8) := []
  /-- A submitted message waits for Thoevo's copy: MBX_IN_FREE is 0 (R339). -/
  submitted : Bool := false
  /-- The reply in the outbox (R338). -/
  outbox : Option Msg := none
  /-- Replies and events that wait for the outbox, oldest first (R338, 17 R348). -/
  queue : List Msg := []
  /-- Drive block of the telemetry window, bytes 0x000 to 0x07F (R340). DC 2 -/
  teleDrive : List (BitVec 8) := List.replicate 128 0
  /-- Axis A block: telemetry words by index, rising; unlisted words are 0 (R340). DC 2 -/
  teleA : List (Nat × BitVec 32) := []
  /-- Axis B block (R340). DC 2 -/
  teleB : List (Nat × BitVec 32) := []
deriving DecidableEq, Repr

/-- One open session (17 R349, R350). -/
structure Session where
  transport : Transport
  /-- The role SESSION_OPEN named. -/
  role : Role
  /-- The session has been authenticated. -/
  authed : Bool := false
  challenge : BitVec 128
  /-- Stamp of SESSION_OPEN, ns, for the 10 s of the challenge. -/
  openedAt : Nat
  /-- The challenge has been answered. -/
  answered : Bool := false
  /-- Stamp of the last accepted request, ns. -/
  lastAt : Nat
  /-- Opcode, TAG, CRC and payload-independent identity of the last executed request, with its reply (R350). -/
  last : Option (BitVec 16 × BitVec 8 × BitVec 16 × Msg) := none
deriving DecidableEq, Repr

/-- Lockout of one role, held by Summit (17 R349). -/
structure RoleLock where
  /-- Wrong responses in a row. -/
  wrong : Nat := 0
  /-- Length of the lock in force, s. -/
  lock : Option Nat := none
  /-- Stamp of the lock's start, ns. -/
  since : Nat := 0
deriving DecidableEq, Repr

/-- The long operation that runs (17 R357), with what it needs at its end. -/
inductive LongOp where
  | calConv (asked accepted : BitVec 12)
  | ident (x : Axis)
  | angleOfs (x : Axis)
  | compile (checkOnly fromStage : Bool)
  | otpBurn (rows : List (BitVec 16 × BitVec 64)) (owner : Role)
  | otpLock (region : Nat) (retire : Bool)
  | fwInstall (reboot : Bool) (role : Nat)
  | mramErase (region : BitVec 8)
deriving DecidableEq, Repr

/-- Mailbox and sessions (chapter 17). -/
structure MboxSt where
  /-- Sessions 1 to 4 (R349). -/
  sessions : List (Option Session) := [none, none, none, none]
  /-- Lock of the operator role (R349). -/
  lockOp : RoleLock := {}
  /-- Lock of the installer role (R349). -/
  lockInst : RoleLock := {}
  /-- Lock of the maker role (R349). -/
  lockMaker : RoleLock := {}
  /-- The long operation that runs and the request that started it (R357). -/
  long : Option (LongOp × Hdr) := none
  /-- Events that wait behind the long operation's reply (Table 17.4a), oldest first. -/
  held : List Msg := []
  /-- EVENT_MASK of the host port (17 Table 17.5). -/
  maskHost : BitVec 8 := 0x02
  /-- EVENT_MASK of the backbone. -/
  maskNet : BitVec 8 := 0x02
  /-- RG_TEST waits for its result: the engine and the request (17 Table 17.7). -/
  rgTest : Option (Engine × Hdr) := none
  /-- Latest reply sent on the backbone with its receiver (18 R383). -/
  netOut : List (NetSource × Msg) := []
  /-- Stamp at which a reset that was answered first is due, ns; it waits for the gates (21 R430; 17 REBOOT, FW_INSTALL). -/
  rebootAt : Option Nat := none
deriving DecidableEq, Repr

/-- State of one external switch port (18 R366, R370). -/
structure PortSt where
  /-- Link up at 100 Mb/s full duplex, or T1S running. -/
  up : Bool := false
  /-- The PHY reported link at another rate or duplex at the last poll (R366). -/
  wrongMode : Bool := false
  /-- As-capable (R372). -/
  asCapable : Bool := false
  /-- Successful Pdelay exchanges in a row (R372). -/
  pdelayRun : Nat := 0
  /-- Mean path delay, ns (R372). -/
  pathDelay : Int := 0
  /-- The gate list that runs: gate mask and interval in ns; none before a list cycle has started: all gates open (R370). -/
  gates : List (BitVec 8 × Nat) := []
  /-- Index of its entry in force (R370). -/
  gate : Nat := 0
  /-- A step of the gPTP time ends the list cycle with the interval in progress (R371). -/
  restart : Bool := false
  /-- Length in bytes and traffic class of the frame last put to egress (R364, R369). -/
  lastOut : Option (Nat × BitVec 2) := none
deriving DecidableEq, Repr

/-- GPTP_STATE (18 Table 18.11). -/
inductive GptpState where | unsync | slave | master | holdover
deriving DecidableEq, Repr

/-- Switch, gPTP and Traverse (chapter 18). -/
structure NetSt where
  /-- PD_NET is powered (15 Table 15.3). -/
  on : Bool := false
  /-- ETH_RST_N is released (R366). -/
  rstReleased : Bool := false
  /-- RMII1. -/
  rmii1 : PortSt := {}
  /-- RMII2. -/
  rmii2 : PortSt := {}
  /-- T1S. -/
  t1s : PortSt := {}
  /-- T1S fell back to CSMA/CD (R367). -/
  csmaFallback : Bool := false
  /-- The T1S PHY sees a PLCA beacon or is coordinator (R367). -/
  beacon : Bool := false
  /-- Address table: MAC and port, at most 1,024 (R365). -/
  table : List (BitVec 48 × Port) := []
  /-- PORT_ERR (R364, R369). -/
  portErr : BitVec 32 := 0
  /-- NET_HOST_DROP (R383). -/
  hostDrop : BitVec 32 := 0
  /-- Stamps of non-Traverse host frames of the last second, ns (R383). -/
  hostStamps : List Nat := []
  /-- GPTP_STATE (R373). -/
  gptp : GptpState := .unsync
  /-- gPTP time minus local time, ns (R373). -/
  ofs : Int := 0
  /-- Rate ratio to the grandmaster in force (R373). -/
  rate : F32 := 0x3F800000
  /-- Offset from master at the last Sync, ns (R373). -/
  lastOffset : Int := 0
  /-- Consecutive Syncs within GPTP_SYNC_THR (R373). -/
  syncRun : Nat := 0
  /-- The slave port BMCA selected (R372). -/
  slave : SlavePort := none
  /-- A grandmaster was announced and is in force (R372). -/
  announced : Bool := false
  /-- gPTP messages sent: Sync, Announce, Pdelay_Req (R372). -/
  sent : Nat × Nat × Nat := (0, 0, 0)
  /-- TV_RX_ERR (R378). -/
  rxErr : BitVec 32 := 0
  /-- Stamps of discards in the last second, ns (R378). -/
  rxErrStamps : List Nat := []
  /-- TIMEs of the frames accepted last, newest first, at most four, by receive set, rising (R378). -/
  rxTime : List (Nat × List Nat) := []
  /-- DCTRL and the CTRL of axis A and axis B in the last valid frame of each receive set, by set, rising (R379). -/
  rxCtrl : List (Nat × BitVec 16 × BitVec 16 × BitVec 16) := []
  /-- Stamp of the last 0x2D0A, ns (R379). -/
  kindWarned : Option Nat := none
  /-- TV_TX_LATE (R382). -/
  txLate : BitVec 32 := 0
  /-- Stamp of the last 0x2D05, ns (R382). -/
  lateWarned : Option Nat := none
  /-- Source of the latest valid type 1 frame (R382). -/
  txTo : Option NetSource := none
  /-- SEQ of each transmit set (R376). -/
  txSeq : List (Nat × BitVec 16) := []
  /-- Axis A blocks latched at the last boundaries, newest first, at most four: boundary time in ns, 28 bytes and telemetry
  words (R382). -/
  latchA : List (Nat × List (BitVec 8)) := []
  /-- Axis B blocks latched (R382). -/
  latchB : List (Nat × List (BitVec 8)) := []
  /-- Drive blocks latched at the boundaries that set TIME (R382). -/
  latchD : List (Nat × List (BitVec 8)) := []
  /-- The Traverse frame sent last (R381). -/
  lastTx : List (BitVec 8) := []
  /-- Where it went: none is broadcast (R382). -/
  lastTxTo : Option NetSource := none
  /-- 802.1Q tag it carried, and its bytes with tag and carrier (R376). -/
  lastTxTag : BitVec 16 × Nat := (0, 0)
  /-- IPv4 address of its next hop where it went by UDP to one address (R375). -/
  lastTxHop : Option (BitVec 32) := none
  /-- Source of the latest accepted type 3 request (R383). -/
  lastReq : Option NetSource := none
  /-- The latest MDIO write: port, PHY, register, value (17 MDIO). -/
  mdioOut : Option (BitVec 8 × BitVec 8 × BitVec 8 × BitVec 16) := none
  /-- ARP cache: addresses answered, at most 16 (R375). -/
  arp : List (BitVec 32) := []
  /-- ARP and ICMP replies sent (R375). -/
  answered : Nat := 0
deriving DecidableEq, Repr

/-- Communication and mapping of one PDO (18 R389). -/
structure Pdo where
  /-- COB-ID with bit 31 set while the PDO is disabled. -/
  cob : BitVec 32 := 0x80000000
  /-- Transmission type. -/
  kind : BitVec 8 := 1
  /-- Mapping entries, 16 at most: index, sub-index and bits. -/
  maps : List (BitVec 32) := []
  /-- Entries in force, sub-index 0 of the mapping. -/
  n : Nat := 0
  /-- SYNCs since a transmit PDO was sent last. -/
  count : Nat := 0
  /-- Data received for the next SYNC (R389). -/
  stored : Option (List (BitVec 8)) := none
deriving DecidableEq, Repr

/-- NMT states (18 R388). -/
inductive Nmt where | preOperational | operational | stopped
deriving DecidableEq, Repr
/-- CAN error states (18 R387). -/
inductive CanErr where | active | passive | busOff
deriving DecidableEq, Repr

/-- CiA 402 state of one axis (18 R390, R391). -/
structure Cia402 where
  /-- Controlword 0x6040. -/
  control : BitVec 16 := 0
  /-- Modes of operation 0x6060 as written. -/
  mode : BitVec 8 := 9
  /-- Target position 0x607A. -/
  target : BitVec 32 := 0
  /-- Target velocity 0x60FF. -/
  velocity : BitVec 32 := 0
  /-- Target torque 0x6071. -/
  torque : BitVec 16 := 0
  /-- Velocity offset 0x60B1. -/
  vofs : BitVec 32 := 0
  /-- Torque offset 0x60B2. -/
  tofs : BitVec 16 := 0
  /-- Position window 0x6067. DC 9 -/
  window : BitVec 32 := 0
  /-- Position window time 0x6068, ms. DC 9 -/
  windowMs : BitVec 16 := 0
  /-- Profile velocity 0x6081. DC 9 -/
  profVel : BitVec 32 := 0
  /-- Interpolation time 0x60C2: the period value of sub-index 1 below the index of sub-index 2. DC 9 -/
  interp : BitVec 16 := 0
  /-- Switched on: the CiA 402 machine passed shutdown and switch on (Table 18.8). -/
  ready : Bool := false
  /-- Switched on. -/
  switchedOn : Bool := false
  /-- Target reached (R390). -/
  reached : Bool := false
  /-- Set-point acknowledge (R391). -/
  ack : Bool := false
  /-- Boundary count in the window, ns since it entered (R390). -/
  inWindow : Option Nat := none
  /-- The target being planned in pp mode, as a 64-bit position (R390). -/
  goal : Option Int := none
  /-- The queued target of pp mode (R390). -/
  queued : Option Int := none
  /-- Profile speed of the plan, rad/s (R390). -/
  planV : F32 := 0
  /-- An RPDO carried the axis's target in this SYNC interval (R389). -/
  fresh : Bool := false
deriving DecidableEq, Repr

/-- CAN FD and CANopen (chapter 18). -/
structure CanSt where
  /-- CAN runs: CAN_EN placed, external reference present, not off. -/
  on : Bool := false
  /-- NMT state (R388). -/
  nmt : Nmt := .preOperational
  /-- Error state (R387). -/
  err : CanErr := .active
  /-- CAN_BUSOFF_CNT (R387). -/
  busoff : BitVec 32 := 0
  /-- RPDO1 to 8 (R389). -/
  rpdo : List Pdo := []
  /-- TPDO1 to 8 (R389). -/
  tpdo : List Pdo := []
  /-- 0x1016: monitored node and time in ms (R388). DC 9 -/
  hbConsumer : BitVec 32 := 0
  /-- The consumer time runs: a heartbeat was received (R388). -/
  hbRunning : Bool := false
  /-- 0x1017 in ms (R388). DC 9 -/
  hbProducer : BitVec 16 := 0
  /-- 0x1005 (R388). -/
  syncCob : BitVec 32 := 0x80
  /-- 0x1006 in µs (R388). DC 9 -/
  syncPeriod : BitVec 32 := 0
  /-- 0x1014 is 0x80 + node unless written (R388). -/
  emcyCob : Option (BitVec 32) := none
  /-- 0x1015 (R388). DC 9 -/
  emcyInhibit : BitVec 16 := 0
  /-- Stamp of the EMCY sent last, ns (R388). -/
  emcyAt : Option Nat := none
  /-- Frames sent, oldest first: identifier and data. -/
  sent : List (BitVec 11 × List (BitVec 8)) := []
  /-- Reply of the latest SDO request: abort code, or the data read (R393). -/
  sdoReply : Option (Option (BitVec 32) × BitVec 32) := none
  /-- Stamp of the latest SYNC, ns (R389). -/
  syncAt : Option Nat := none
  /-- CiA 402 of axis A. -/
  a : Cia402 := {}
  /-- CiA 402 of axis B. -/
  b : Cia402 := {}
deriving DecidableEq, Repr

/-- What the flash is busy with (19 R400, R401). -/
inductive FlashBusy where
  | idle
  | program (page : Nat) (bytes : List (Nat × BitVec 8))
  | erase (addr bytes : Nat)
deriving DecidableEq, Repr

/-- External memory port (chapter 19). -/
structure XspSt where
  /-- XSP_STATUS bit 0: discovered (R397). -/
  found : Bool := false
  /-- XSP_STATUS bit 1: lost (R401). -/
  lost : Bool := false
  /-- Lanes of the mode: 1, 4 or 8 (R397). -/
  lanes : Nat := 0
  /-- XSP_STATUS [7:5]: failure reason (R397). -/
  reason : BitVec 3 := 0
  /-- XSP_STATUS bit 4: the staged image is valid (R403). -/
  stagedValid : Bool := false
  /-- XSP_JEDEC_ID (R397). -/
  jedec : BitVec 32 := 0
  /-- XSP_CAPACITY, bytes (R397). -/
  capacity : Nat := 0
  /-- XSP_CLK_ACT, MHz (R398). -/
  clkAct : F32 := 0
  /-- XSP_RATE_MAX, B/s (R404). -/
  rateMax : F32 := 0
  /-- Page size, bytes (R397). -/
  page : Nat := 256
  /-- XSP_ERR (R401). -/
  err : BitVec 32 := 0
  /-- Consecutive failures (R401). -/
  failRun : Nat := 0
  /-- Stamp of the last 0x2F04, ns (R401). -/
  warnedAt : Option Nat := none
  /-- Flash contents by address, rising; unlisted bytes read 0xFF, erased (R399). DC 8 -/
  flash : List (Nat × BitVec 8) := []
  /-- The page being collected: bytes by address, rising (R400). -/
  collect : List (Nat × BitVec 8) := []
  /-- Program or erase in progress (R400). -/
  busy : FlashBusy := .idle
  /-- A program or erase is suspended for a read (R399). -/
  suspends : Nat := 0
  /-- Prefetch buffer: line addresses, newest first, at most 4 (R399). -/
  lines : List Nat := []
  /-- The byte read last through the window (R399). -/
  readByte : BitVec 8 := 0xFF
deriving DecidableEq, Repr

/-- One parameter bank in MRAM (17 R355). -/
structure ParBank where
  seq : BitVec 32
  time : BitVec 64
  /-- Writable values by address, rising, those that differ from their default. -/
  vals : List (Nat × BitVec 32)
deriving DecidableEq, Repr

/-- One stored user segment (07 R172, R173). -/
structure UserSeg where
  /-- axis × 4 + hook. -/
  key : Nat
  ops : List (BitVec 64)
  init : List (Nat × BitVec 32)
  /-- The segment has been linked into a bank: its init entries are not written again (R172). -/
  linked : Bool := false
deriving DecidableEq, Repr

/-- State of a firmware slot (17 FW_INFO). -/
inductive SlotState where | empty | valid | failed
deriving DecidableEq, Repr

/-- One firmware slot (20 area 0 and 1). -/
structure FwSlot where
  state : SlotState := .empty
  version : BitVec 24 := 0
  size : BitVec 32 := 0
  /-- Signing slot of its image (R420). -/
  key : BitVec 8 := 0
  /-- Image bytes written, by offset, rising; unlisted bytes are 0xFF. DC 8 -/
  bytes : List (Nat × BitVec 8) := []
deriving DecidableEq, Repr

/-- One audit entry (20 Table 20.8a). -/
structure AuditEntry where
  seq : BitVec 32
  time : BitVec 64
  role : BitVec 8
  kind : BitVec 8
  object : BitVec 16
  old : BitVec 32
  new : BitVec 32
deriving DecidableEq, Repr

/-- MRAM (20 R426): what outlives a reset beside the fuses. Device-state marks held in other fields of State
(suspect marks, calibration values, bypass masks, engine marks) are kept there across a reset. -/
structure NvSt where
  /-- Parameter banks 0 to 3 (17 R355). -/
  banks : List (Option ParBank) := [none, none, none, none]
  /-- The boot bank (17 R355). DC 2 -/
  bootBank : Nat := 0
  /-- Stored declaration (14 R297). -/
  decl : List (BitVec 8) := []
  /-- Stored placement (14 R299). -/
  place : Option Placement := none
  /-- User segments (07 R171). -/
  segs : List UserSeg := []
  /-- Position of axis A last committed, if any (03 R48, 11 R243). -/
  posA : Option Int := none
  /-- Position of axis B last committed. -/
  posB : Option Int := none
  /-- Power state and active faults last committed (03 R48). -/
  lastPwr : BitVec 8 := 0
  /-- Active faults last committed. -/
  lastFaults : List FaultEntry := []
  /-- A power fail began and its commit has not completed (21 R432). -/
  pfOpen : Bool := false
  /-- Fault log ring, oldest first, at most 1,024 (12 R282). -/
  log : List LogEntry := []
  /-- SEQ of the newest fault-log entry, 0 before the first (12 Table 12.7). -/
  logSeq : BitVec 32 := 0
  /-- Audit ring, oldest first, at most 4,096 (R425). -/
  audit : List AuditEntry := []
  /-- SEQ of the newest audit entry, 0 before the first (R425). -/
  auditSeq : BitVec 32 := 0
  /-- An audit entry can be committed (R425). -/
  auditOk : Bool := true
  /-- BOOT_COUNT (21 R442). -/
  bootCount : BitVec 32 := 0
  /-- Slot A. -/
  slotA : FwSlot := {}
  /-- Slot B. -/
  slotB : FwSlot := {}
  /-- The preferred slot is B (21 R433). -/
  preferB : Bool := false
  /-- Regions whose erase was cut by a power fail: streams, banks, segments, slot A, slot B (03 Table 3.5). -/
  eraseOpen : BitVec 5 := 0
  /-- Operation cut by the last power fail, logged at the next boot (03 Table 3.5). -/
  cut : Option LongOp := none
  /-- MRAM_CORR (R428). -/
  corr : BitVec 32 := 0
  /-- MRAM_LOST (R427). -/
  lost : BitVec 32 := 0
deriving DecidableEq, Repr

/-- OTP fuses and their shadows (20 R407 to R418). Rows 0 to 255 and spare Sk as row 256 + k. -/
structure OtpSt where
  /-- Burned data by row, rising; unlisted rows are blank (R407). DC 10 -/
  fuse : List (Nat × BitVec 64) := []
  /-- Rows that do not sense GOOD (R410). -/
  states : List (Nat × RowState) := []
  /-- Active overrides by row (R413). -/
  overrides : List (Nat × BitVec 64) := []
  /-- Region states as evaluated at the boot: FAILED, bit per region (R411). -/
  failed : BitVec 5 := 0
  /-- Spares burned in an interrupted redirection and never named: skipped for good (R416). -/
  skipped : List Nat := []
  /-- Test access is open (17 TEST_ACCESS). -/
  testOpen : Bool := false
deriving DecidableEq, Repr

/-- Service states (21 R434). -/
inductive Service where | none | recovery | maker
deriving DecidableEq, Repr

/-- Firmware upload (17 FW_BEGIN, 19 R403). -/
structure FwUpload where
  size : Nat
  /-- The target slot is B. -/
  toB : Bool
  /-- The bytes go to the staging area of the flash first (19 R403). -/
  staged : Bool := false
  /-- Bytes written, by offset, rising. -/
  bytes : List (Nat × BitVec 8) := []
deriving DecidableEq, Repr

/-- Boot report and firmware (chapter 21). -/
structure BootSt where
  /-- The running image is slot B: BOOT_SLOT (R442). -/
  slotB : Bool := false
  /-- BOOT_FLAGS (R442). -/
  flags : BitVec 16 := 0
  /-- BOOT_TIME, ms (R442). DC 2 -/
  time : F32 := 0
  /-- BOOT_WEAK0 to 7 (R442). -/
  weak : List (BitVec 16) := List.replicate 8 0xFFFF
  /-- BIST_STATUS (R436). -/
  bist : BitVec 16 := 0
  /-- UID as read at the boot, 0 with MAKER_ID failed: UID_LO, UID_HI (R442; 20 R412). DC 10 -/
  uid : BitVec 64 := 0
  /-- MAC address as read at the boot, byte 0 highest (20 R412; 18 R375). DC 10 -/
  mac : BitVec 48 := 0
  /-- PARAM_BANK (R442). -/
  paramBank : BitVec 8 := 0xFF
  /-- Service state (R434). -/
  service : Service := .none
  /-- The background verification of the other slot is due (R433). -/
  verifyDue : Bool := false
  /-- Comparators that fail the first-READY test of this boot, as the boot found (R432). -/
  cmpFail : BitVec 24 := 0
  /-- The first-READY chopper test sees CMP17 (R432). -/
  chopSeen : Bool := true
  /-- The T1S line test runs (R437). -/
  lineTest : Bool := false
  /-- Upload in progress (17 FW_BEGIN). -/
  upload : Option FwUpload := Option.none
deriving DecidableEq, Repr

/-- Everything one axis owns (01 R12). -/
structure AxisSt where
  /-- The six legs with their converters. -/
  legs : Six LegSt := ⟨{}, {}, {}, {}, {}, {}⟩
  /-- Brake output, bypass, ratings (chapter 04). -/
  stage : StageSt := {}
  /-- PWM timebase (chapter 05). -/
  pwm : Pwm := {}
  /-- Conversion (chapter 06). -/
  conv : ConvAxis := {}
  /-- Sequencer (chapter 07). -/
  seq : SeqSt := {}
  /-- Setpoints (chapter 08). -/
  sp : SpSt := {}
  /-- Control loops (chapter 08). -/
  ctl : CtlSt := {}
  /-- Crest (chapter 09). -/
  crest : CrestSt := {}
  /-- Start and stop (chapter 10). -/
  start : StartSt := {}
  /-- Feedback (chapter 11). -/
  fb : FbSt := {}
deriving DecidableEq, Repr

/-- The state of the CL7502. -/
structure State where
  /-- Clocks and Col cells (chapter 15). -/
  clk : ClockSt := {}
  /-- Summit, PD_SUM (chapter 03). -/
  sum : Summit := {}
  /-- Power state and boot (chapters 03, 21). -/
  pwr : Pwr := {}
  /-- Safe torque off (chapter 04). -/
  sto : Sto := {}
  /-- Scarp (chapter 05). -/
  scarp : Scarp := {}
  /-- Axis A and axis B (chapters 04 to 11). -/
  axes : Two AxisSt := ⟨{}, {}⟩
  /-- Drive-level conversion (chapter 06). -/
  conv : ConvDrive := {}
  /-- Ridge engines (chapter 07). -/
  ridge : RidgeDrive := {}
  /-- Bus and chopper (chapter 12). -/
  bus : BusSt := {}
  /-- Faults (chapter 12). -/
  flt : FaultSt := {}
  /-- Temperature (chapter 13). -/
  th : ThermalSt := {}
  /-- Cairn (chapter 14). -/
  cairn : CairnSt := {}
  /-- Host port (chapter 16). -/
  hsp : HspSt := {}
  /-- Mailbox (chapter 17). -/
  mbx : MboxSt := {}
  /-- Backbone (chapter 18). -/
  net : NetSt := {}
  /-- CAN (chapter 18). -/
  can : CanSt := {}
  /-- External memory port (chapter 19). -/
  xsp : XspSt := {}
  /-- MRAM (chapter 20). -/
  nv : NvSt := {}
  /-- OTP (chapter 20). -/
  otp : OtpSt := {}
  /-- Boot report and firmware (chapter 21). -/
  boot : BootSt := {}
  /-- Stored parameter values, the working set, by address, rising; an unlisted parameter holds its default (17 R353, R355). -/
  par : List (Nat × BitVec 32) := []
  /-- Parameter values in force, by address, rising; an unlisted parameter is in force at its default (01 R9). -/
  inForce : List (Nat × BitVec 32) := []
  /-- Commands that wait, first in, first out. -/
  pending : List Instr := []
deriving DecidableEq, Repr

/-- The machine right after reset: Summit not started, nothing powered, nothing stored. -/
def State.reset : State := {}

end Sys2Proof.Machine
end

