-- ==== Sys2Proof/Machine/Operands.lean ====
section
/-!
DEFINITION. Operand forms shared by the meanings: the parts of State by axis and leg, sorted address maps, parameter
values stored and in force, little-endian bytes, CRCs, free values and stamps.
-/

namespace Sys2Proof.Machine
open Sys2Proof

/-- Outcomes of this block. -/
abbrev Out := Host.Outcome State Fault Refusal

/-- The other axis. -/
def otherAxis : Axis → Axis | .a => .b | .b => .a
/-- Axis index (01 R12). -/
def axisNo : Axis → Nat | .a => 0 | .b => 1
/-- Axis of an index. -/
def axisOf (n : Nat) : Axis := if n = 0 then .a else .b
/-- Both axes. -/
def bothAxes : List Axis := [.a, .b]
/-- Leg index 0 to 5 (01 R13). -/
def legNo : Leg → Nat | .u1 => 0 | .u2 => 1 | .v1 => 2 | .v2 => 3 | .w1 => 4 | .w2 => 5
/-- Leg of an index 0 to 5. -/
def legOf : Nat → Leg | 0 => .u1 | 1 => .u2 | 2 => .v1 | 3 => .v2 | 4 => .w1 | _ => .w2
/-- The legs in order. -/
def allLegs : List Leg := [.u1, .u2, .v1, .v2, .w1, .w2]
/-- The other leg of the phase (01 R12). -/
def partnerLeg : Leg → Leg | .u1 => .u2 | .u2 => .u1 | .v1 => .v2 | .v2 => .v1 | .w1 => .w2 | .w2 => .w1
/-- The phase of a leg, 0 U, 1 V, 2 W. -/
def phaseNo : Leg → Nat | .u1 => 0 | .u2 => 0 | .v1 => 1 | .v2 => 1 | .w1 => 2 | .w2 => 2
/-- The leg carries number 1: star 1 in dual-star mode (01 R14). -/
def legOne : Leg → Bool | .u1 => true | .v1 => true | .w1 => true | _ => false

def twoGet {α : Type} (t : Two α) : Axis → α | .a => t.a | .b => t.b
def twoSet {α : Type} (t : Two α) (x : Axis) (v : α) : Two α :=
  match x with | .a => { t with a := v } | .b => { t with b := v }
def sixGet {α : Type} (t : Six α) : Leg → α
  | .u1 => t.u1 | .u2 => t.u2 | .v1 => t.v1 | .v2 => t.v2 | .w1 => t.w1 | .w2 => t.w2
def sixSet {α : Type} (t : Six α) (l : Leg) (v : α) : Six α :=
  match l with
  | .u1 => { t with u1 := v } | .u2 => { t with u2 := v } | .v1 => { t with v1 := v }
  | .v2 => { t with v2 := v } | .w1 => { t with w1 := v } | .w2 => { t with w2 := v }
def sixList {α : Type} (t : Six α) : List α := [t.u1, t.u2, t.v1, t.v2, t.w1, t.w2]
def sixMap {α β : Type} (f : α → β) (t : Six α) : Six β := ⟨f t.u1, f t.u2, f t.v1, f t.v2, f t.w1, f t.w2⟩

/-- The axis's part of State. -/
def getAx (s : State) (x : Axis) : AxisSt := twoGet s.axes x
/-- Change one axis's part of State. -/
def onAx (s : State) (x : Axis) (f : AxisSt → AxisSt) : State := { s with axes := twoSet s.axes x (f (getAx s x)) }
/-- Change both axes' parts. -/
def onBoth (s : State) (f : AxisSt → AxisSt) : State := onAx (onAx s .a f) .b f
/-- One leg. -/
def getLeg (s : State) (x : Axis) (l : Leg) : LegSt := sixGet (getAx s x).legs l
/-- Change one leg. -/
def onLeg (s : State) (x : Axis) (l : Leg) (f : LegSt → LegSt) : State :=
  onAx s x (fun a => { a with legs := sixSet a.legs l (f (sixGet a.legs l)) })
/-- The leg a converter serves (01 R13). -/
def cvLeg (cv : Nat) : Axis × Leg := (axisOf (cv / 6), legOf (cv % 6))
/-- One converter. -/
def getCv (s : State) (cv : Nat) : Converter := let p := cvLeg cv; (getLeg s p.1 p.2).cv
/-- Change one converter. -/
def onCv (s : State) (cv : Nat) (f : Converter → Converter) : State :=
  let p := cvLeg cv; onLeg s p.1 p.2 (fun l => { l with cv := f l.cv })
/-- One engine. -/
def getEng (s : State) : Engine → EngineSt | .rga => s.ridge.rga | .rgb => s.ridge.rgb
/-- Change one engine. -/
def onEng (s : State) (e : Engine) (f : EngineSt → EngineSt) : State :=
  match e with
  | .rga => { s with ridge.rga := f s.ridge.rga }
  | .rgb => { s with ridge.rgb := f s.ridge.rgb }
/-- The other engine. -/
def otherEng : Engine → Engine | .rga => .rgb | .rgb => .rga
/-- Engine index. -/
def engNo : Engine → Nat | .rga => 0 | .rgb => 1

/-! Sorted maps: addresses strictly rising. -/

/-- Value at an address. -/
def mapGet {α : Type} : List (Nat × α) → Nat → Option α
  | [], _ => none
  | (k, v) :: m, a => if a = k then some v else if a < k then none else mapGet m a
/-- Replace or insert, keeping the order. -/
def mapPut {α : Type} : List (Nat × α) → Nat → α → List (Nat × α)
  | [], a, v => [(a, v)]
  | (k, w) :: m, a, v =>
    if a = k then (a, v) :: m else if a < k then (a, v) :: (k, w) :: m else (k, w) :: mapPut m a v
/-- Remove an address. -/
def mapDel {α : Type} : List (Nat × α) → Nat → List (Nat × α)
  | [], _ => []
  | (k, w) :: m, a => if a = k then m else (k, w) :: mapDel m a
/-- Write where unlisted addresses read `d`: equal memories stay equal data. -/
def mapWrite {α : Type} [DecidableEq α] (d : α) (m : List (Nat × α)) (a : Nat) (v : α) : List (Nat × α) :=
  if v = d then mapDel m a else mapPut m a v
/-- Read where unlisted addresses read `d`. -/
def mapRead {α : Type} (d : α) (m : List (Nat × α)) (a : Nat) : α := (mapGet m a).getD d
/-- Write a run of values. -/
def mapWriteAll {α : Type} [DecidableEq α] (d : α) (m : List (Nat × α)) (a : Nat) : List α → List (Nat × α)
  | [] => m
  | v :: vs => mapWriteAll d (mapWrite d m a v) (a + 1) vs
/-- Read a run of values. -/
def mapReadN {α : Type} (d : α) (m : List (Nat × α)) (a n : Nat) : List α :=
  (List.range n).map (fun k => mapRead d m (a + k))
/-- The canonical form: addresses strictly rising and no entry equal to what an unlisted address reads as. -/
def mapWf {α : Type} [DecidableEq α] (d : α) : List (Nat × α) → Bool
  | [] => true
  | [(_, v)] => decide (v ≠ d)
  | (k, v) :: (k', v') :: m => decide (v ≠ d) && decide (k < k') && mapWf d ((k', v') :: m)

/-! Parameters. An address is an index with bit 15 set for axis B (00 R7). -/

/-- Address of parameter `i` for axis `x`. -/
def parAddr (x : Axis) (i : Nat) : Nat := match x with | .a => i | .b => i + 0x8000
/-- Stored value at an address (17 R353). -/
def storedAt (s : State) (a : Nat) : Word := (mapGet s.par a).getD (parDefault a)
/-- Value in force at an address (00 R9). -/
def inForceAt (s : State) (a : Nat) : Word := (mapGet s.inForce a).getD (parDefault a)
/-- Value in force, per axis. -/
def parX (s : State) (x : Axis) (i : Nat) : Word := inForceAt s (parAddr x i)
/-- Value in force, device-wide. -/
def parD (s : State) (i : Nat) : Word := inForceAt s i
/-- Stored value, per axis. -/
def storX (s : State) (x : Axis) (i : Nat) : Word := storedAt s (parAddr x i)
/-- Stored value, device-wide. -/
def storD (s : State) (i : Nat) : Word := storedAt s i
/-- Put a value into a parameter map; a default is not listed. -/
def parPut (m : List (Nat × Word)) (a : Nat) (v : Word) : List (Nat × Word) := mapWrite (parDefault a) m a v
/-- The effect point comes: the stored value of an address is in force (00 R9). -/
def bringIn (s : State) (a : Nat) : State := { s with inForce := parPut s.inForce a (storedAt s a) }
/-- The stored values of an axis with this effect point come into force. -/
def bringInAx (s : State) (x : Axis) (e : PEffect) : State :=
  let want := fun (a : Nat) => decide (a / 0x8000 = axisNo x) &&
    (match parDef (a % 0x8000) with | some d => d.perAxis && d.eff == e | none => false)
  let keys := ((s.par.map (·.1)) ++ (s.inForce.map (·.1))).filter want
  keys.foldl bringIn s
/-- The stored values of device-wide parameters with this effect point come into force. -/
def bringInDev (s : State) (e : PEffect) : State :=
  let want := fun (a : Nat) => decide (a < 0x8000) &&
    (match parDef a with | some d => !d.perAxis && d.eff == e | none => false)
  let keys := ((s.par.map (·.1)) ++ (s.inForce.map (·.1))).filter want
  keys.foldl bringIn s

/-- Milliseconds in a parameter as ns, exactly. -/
def msNs (w : Word) : Nat := (fval w * 1000000).floor.toNat
/-- Microseconds in a parameter as ns. -/
def usNs (w : Word) : Nat := (fval w * 1000).floor.toNat
/-- Seconds in a parameter as ns. -/
def secNs (w : Word) : Nat := (fval w * 1000000000).floor.toNat
/-- Nanoseconds as f32 seconds. -/
def nsSec (n : Nat) : Rat := mkRat n 1000000000
/-- Thousandths as an exact number: mV as V, mA as A. -/
def milli (n : Int) : Rat := mkRat n 1000

/-! Bytes. -/

/-- Little-endian bytes of a word (00 R6). -/
def leBytes (n : Nat) (w : Nat) : List Byte :=
  match n with
  | 0 => []
  | n + 1 => BitVec.ofNat 8 w :: leBytes n (w / 256)
/-- Little-endian value of bytes. -/
def leVal : List Byte → Nat
  | [] => 0
  | b :: bs => b.toNat + 256 * leVal bs
def u8 (n : Nat) : List Byte := [BitVec.ofNat 8 n]
def u16 (n : Nat) : List Byte := leBytes 2 n
def u32 (n : Nat) : List Byte := leBytes 4 n
def u64 (n : Nat) : List Byte := leBytes 8 n
def w32 (w : Word) : List Byte := leBytes 4 w.toNat
/-- Field of n bytes at an offset of a payload; missing bytes read 0. -/
def field (p : List Byte) (off n : Nat) : Nat := leVal ((p.drop off).take n)

/-- One byte into a CRC-16 with polynomial 0x1021, most significant bit first (17 R345). -/
def crc16Byte (c : BitVec 16) (b : Byte) : BitVec 16 :=
  (List.range 8).foldl (fun c _ => if c.getLsbD 15 then (c <<< 1) ^^^ 0x1021 else c <<< 1) (c ^^^ (b.setWidth 16 <<< 8))
/-- CRC-16/CCITT: initial value 0xFFFF, no reflection, no final XOR (17 R345). -/
def crc16 (bs : List Byte) : BitVec 16 := bs.foldl crc16Byte 0xFFFF

/-- One byte into a reflected CRC-32. PRESUMED (log 13): the spec says CRC-32 and gives no polynomial here. -/
def crc32Byte (c : Word) (b : Byte) : Word :=
  (List.range 8).foldl (fun c _ => if c.getLsbD 0 then (c >>> 1) ^^^ 0xEDB88320 else c >>> 1) (c ^^^ b.setWidth 32)
/-- CRC-32 of bytes. -/
def crc32 (bs : List Byte) : Word := (bs.foldl crc32Byte 0xFFFFFFFF) ^^^ 0xFFFFFFFF

/-! Free values and stamps. -/

/-- A free word and the state that has used it (log 3). -/
def freeWord (s : State) : Word × State := (Config.freeWord s.clk.free, { s with clk.free := s.clk.free + 1 })
/-- The complete set of fault codes: the tables of Table 12.8 in the order of the chapters (12 R283). -/
def faultCodes : List (BitVec 16) :=
  [0x110B, 0x110C, 0x2102, 0x2104, 0x2105, 0x2108, 0x2109, 0x4106, 0x410A, 0x410D, 0x5101, 0x5103, 0x5107] ++
  [0x2201, 0x2202, 0x2203, 0x3205, 0x3206, 0x4207, 0x4208, 0x5209, 0x520A, 0x520B] ++
  [0x2301, 0x2302, 0x2303, 0x2304, 0x4305, 0x5310, 0x5311, 0x5313] ++
  [0x2401, 0x2402, 0x2403, 0x2404, 0x2405, 0x2406, 0x2407, 0x2408, 0x440A] ++
  [0x2501, 0x2502, 0x2503, 0x2504, 0x4501, 0x4502, 0x4503] ++
  [0x2601, 0x2602, 0x2603, 0x3604, 0x4605, 0x4606, 0x4607, 0x4608] ++
  [0x1705, 0x2701, 0x2702, 0x2703, 0x2704, 0x2706, 0x4701, 0x4703] ++
  [0x1805, 0x1806, 0x2807, 0x4801, 0x4802, 0x4803] ++
  [0x1901, 0x2902, 0x2903, 0x2904, 0x2905, 0x2906, 0x2907, 0x2908, 0x4910, 0x4911, 0x4912, 0x4913, 0x4914] ++
  [0x4915, 0x4916] ++
  [0x2A01, 0x2A02, 0x3A03, 0x3A04, 0x3A05, 0x4A04, 0x4A06, 0x5A01, 0x5A02, 0x5A03, 0x6A01] ++
  [0x2B01, 0x2B02, 0x2B07, 0x3B03, 0x3B08, 0x3B09, 0x4B04, 0x5B05, 0x5B06] ++
  [0x1C01, 0x2C03, 0x2C04, 0x2C05, 0x2C06] ++
  [0x1D01, 0x1D02, 0x2D03, 0x2D04, 0x2D05, 0x2D06, 0x2D07, 0x2D08, 0x2D0A, 0x2D0B, 0x4D09] ++
  [0x1F01, 0x2F02, 0x2F03, 0x2F04] ++
  [0x1E01, 0x1E02, 0x2E03, 0x2E04, 0x2E05, 0x2E06, 0x2E07, 0x4E08, 0x4E09] ++
  [0x1004, 0x2001, 0x2003, 0x2005, 0x2006, 0x200B, 0x4008, 0x400A, 0x5002]
/-- A code of the complete set where the spec does not say which one is reported, from a free word (log 3; 12 R283). -/
def freeCode (w : Word) : BitVec 16 := faultCodes.getD (w.toNat % faultCodes.length) 0x2A02
/-- A level that has been stable for `stableNs`, counted from its pad edge or from the power-up of its domain, whichever is
later, passes a glitch filter of width `w` in units of 10 ns; a shorter pulse is removed (02 R32). -/
def filtPass (w : Word) (stableNs : Nat) : Bool := decide (10 * w.toNat ≤ stableNs)
/-- A stamped command: time never runs back (log 4). -/
def at_ (s : State) (t : Nat) : State := { s with clk.now := max s.clk.now t }
/-- The clock is synchronised to gPTP (18 R373). -/
def gptpOk (s : State) : Bool := s.net.gptp == .slave || s.net.gptp == .master
/-- gPTP time in ns (18 R373). -/
def gptpNow (s : State) : Nat := ((s.clk.now : Int) + s.net.ofs).toNat
/-- TIME fields: gPTP time, or boot-relative time with bit 63 set (12 Table 12.7). -/
def stamp (s : State) : BitVec 64 :=
  if gptpOk s then BitVec.ofNat 64 (gptpNow s % 2 ^ 63)
  else BitVec.ofNat 64 ((s.clk.now - s.pwr.bootAt) % 2 ^ 63 + 2 ^ 63)
/-- Increment a 16-bit counter, saturating. -/
def sat16 (c : BitVec 16) : BitVec 16 := if c = 0xFFFF then c else c + 1

end Sys2Proof.Machine
end

