-- ==== Sys2Proof/Machine/Flags.lean ====
section
/-!
DEFINITION. Status words and flags computed from State: the read-only status parameters of the chapters and the levels
of the drive's own output pins.
-/

namespace Sys2Proof.Machine
open Sys2Proof

/-- A bit at a position. -/
def bit (b : Bool) (n : Nat) : Nat := if b then 2 ^ n else 0

/-- A word with one bit set. -/
def bitW (n : Nat) : Word := (1 : Word) <<< n

/-! Axis and power state. -/

/-- AX_STATE (10 Table 10.1). -/
def axCode : AxState → BitVec 8
  | .disabled => 0 | .measure => 1 | .blockedWait => 2 | .read => 3 | .polarity => 4 | .align => 5 | .ramp => 6
  | .converge => 7 | .release => 8 | .run => 9 | .stopping => 10 | .retryWait => 11 | .activeShort => 12
/-- The sequencer mode Thoevo writes with an axis state (10 Table 10.1). -/
def axMode : AxState → SeqMode
  | .disabled => .idle | .retryWait => .idle
  | .measure => .start | .blockedWait => .start | .read => .start | .polarity => .start | .align => .start
  | .ramp => .start | .converge => .start
  | .release => .run | .run => .run | .stopping => .run
  | .activeShort => .fault
/-- SEQ_MODE (07 Table 7.4). -/
def modeCode : SeqMode → BitVec 8 | .idle => 0 | .start => 1 | .run => 2 | .ident => 3 | .fault => 4
/-- Gates of the axis switch or hold the active short: the axis is in RUN (03 Table 3.6). -/
def gatesOn (a : AxisSt) : Bool := a.pwm.switching || a.pwm.shorted
/-- Some axis is in RUN. -/
def anyRun (s : State) : Bool := gatesOn s.axes.a || gatesOn s.axes.b
/-- READY or RUN. -/
def isReady (s : State) : Bool := s.pwr.base == .ready && s.pwr.boot.isNone
/-- READY or RUN with no boot running, or HOLD: Thoevo serves. -/
def thoevoUp (s : State) : Bool := (s.pwr.base == .ready || s.pwr.base == .hold) && s.pwr.boot.isNone
/-- PWR_STATE [2:0] (03 Table 3.6; 21 R434 for the service states). -/
def pwrCode (s : State) : Nat :=
  if s.boot.service ≠ .none then 2
  else match s.pwr.base with
    | .off => 0 | .standby => 1 | .hold => 2 | .ready => if anyRun s then 4 else 3
/-- PWR_STATE, PAR 0x0100 (03 Table 3.12). -/
def pwrState (s : State) : BitVec 8 := BitVec.ofNat 8 (pwrCode s + bit s.pwr.noPlacement 6 + bit s.pwr.safe 7)
/-- VM_HI: the higher of the latest VM_A and VM_B (12 R265). -/
def vmHi (s : State) : F32 := fmax s.bus.vmA s.bus.vmB
/-- The level of an output pad (02 R33). -/
inductive PadLevel where | low | high | hiZ
deriving DecidableEq, Repr
/-- The gate supplies of both axes are below 1.0 V (04 R85). -/
def gateSupplyOff (s : State) : Bool := !s.axes.a.stage.vgdOn && !s.axes.b.stage.vgdOn
/-- STO_FB: high while both gate supplies are off, high impedance with VM absent (04 R85, 02 R33). -/
def stoFb (s : State) : PadLevel := if !s.sum.on then .hiZ else if gateSupplyOff s then .high else .low
/-- The STO inputs hold gate supply off (04 R83). -/
def stoHolds (s : State) : Bool := s.sto.in1Low || s.sto.in2Low

/-! Faults. -/

/-- Class of a code (00 R10). -/
def codeClass (c : BitVec 16) : Nat := c.toNat / 0x1000
/-- Subsystem of a code (00 R10). -/
def codeSub (c : BitVec 16) : Nat := c.toNat / 0x100 % 16
/-- FAULT_ACTIVE_N (12 R276). -/
def faultActiveN (s : State) : Nat := s.flt.list.length
/-- FAULT_TOP: the code of highest class, the earliest first (12 R276). -/
def faultTop (s : State) : BitVec 16 :=
  s.flt.list.foldl (fun best e => if codeClass best < codeClass e.code then e.code else best) 0
/-- FAULT_N is low by its level rules, pulses aside (12 R281; 01 R17 for supervisor loss). -/
def faultNLevel (s : State) : Bool :=
  decide (s.flt.list.any (fun e => decide ((parD s Par.faultNLevel).toNat ≤ codeClass e.code))) ||
  s.scarp.latch != 0 || s.axes.a.seq.hbLoss || s.axes.b.seq.hbLoss
/-- FAULT_N is driven low (02 R33, 12 R281): from the start of Summit or the release of RESET_N until a boot completes, in
RESET_N, through every boot and in a service state; then by level or pulse. -/
def faultNLow (s : State) : Bool :=
  s.sum.on && (s.sum.resetLow || s.pwr.base == .off || s.pwr.boot.isSome || s.boot.service != .none || faultNLevel s || s.flt.pulse)
/-- FAULT_N is open-drain: low, or released to high impedance, as it is with VM absent (02 R33). -/
def faultNPad (s : State) : PadLevel := if faultNLow s then .low else .hiZ
/-- PD_SYS is powered and out of reset (15 Table 15.3). -/
def sysOn (s : State) : Bool :=
  s.sum.buck && !s.sum.resetLow &&
  (s.pwr.boot.isSome || s.boot.service != .none || s.pwr.base == .hold || s.pwr.base == .ready)
/-- The internal rails (03 Table 3.2). -/
inductive Rail where | vsum | vsum3 | vgd (x : Axis) | vs5 | vs3 | va18 | vc08
deriving DecidableEq, Repr
/-- A rail is up (03 Table 3.2, R42): VSUM and VSUM3 whenever Summit runs; the others from the buck, V5 and V3 but in STANDBY
and OFF, VA18 while a converter domain is powered, VC08 with the domain it feeds. -/
def railOn (s : State) : Rail → Bool
  | .vsum => s.sum.on
  | .vsum3 => s.sum.on
  | .vgd x => (getAx s x).stage.vgdOn
  | .vs5 => sysOn s
  | .vs3 => sysOn s
  | .va18 => sysOn s && thoevoUp s
  | .vc08 => sysOn s
/-- The output pads of 02 Table 2.1. -/
inductive OutPad where
  | encClk (x : Axis) | emu (x : Axis) | cmpOut (x : Axis) (u : CmpUnit) | hspIo | hspIrqN | canTx | xsp | tdo
  | ethRefclk | ethMdc | ethRstN | rmii1 | rmii2 | t1s | faultN | stoFb | hswG
deriving DecidableEq, Repr
/-- HSP_IRQ_N is low (16 R335). -/
def irqLow (s : State) : Bool := s.hsp.intStatus &&& s.hsp.intMask != 0

/-! Status parameters. -/

/-- The six converters of an axis. -/
def axCvs (a : AxisSt) : List Converter := (sixList a.legs).map (·.cv)
/-- A list of bits, first one lowest. -/
def bitsOf (bs : List Bool) : Nat := bs.foldr (fun b n => (if b then 1 else 0) + 2 * n) 0
/-- CONV_STATUS (06 Table 6.13). -/
def convStatus (s : State) (x : Axis) : BitVec 16 :=
  let a := getAx s x
  BitVec.ofNat 16 (bit a.conv.refOk 15 + bit s.conv.foothill 14 + bitsOf ((axCvs a).map (·.outOfService)) * 64 +
    bitsOf ((axCvs a).map (·.suspect)))
/-- RG_HOST (07 Table 7.13). -/
def rgHost (a : AxisSt) : BitVec 8 := match a.seq.host with | some .rga => 0 | some .rgb => 1 | none => 0xFF
/-- RG_TEST_STATUS (07 Table 7.13). -/
def rgTestStatus (s : State) : BitVec 8 :=
  BitVec.ofNat 8 (bit s.ridge.rga.failed 0 + bit s.ridge.rgb.failed 1 + bit s.ridge.testSkipped 2)
/-- RG_BANK (07 Table 7.13). -/
def rgBank (s : State) : BitVec 8 :=
  BitVec.ofNat 8 (bit s.ridge.rga.active 0 + bit s.ridge.rgb.active 1 + bit s.ridge.rga.swapPending 2 +
    bit s.ridge.rgb.swapPending 3)
/-- NL_STATE (05 Table 5.1). -/
def nlCode : NlState → BitVec 8 | .off => 0 | .wait => 1 | .acquire => 2 | .locked => 3 | .holdover => 4
/-- The axis runs in dual-star mode (04 R62). -/
def dualStar (s : State) (x : Axis) : Bool := parX s x Par.stageMode == 1
/-- CTRL_STATUS (08 Table 8.8). -/
def ctrlStatus (s : State) (x : Axis) : BitVec 16 :=
  let a := getAx s x
  (a.ctl.status &&& 0x1F) ||| BitVec.ofNat 16 (bit (a.stage.bypassMask != 0) 5 +
    bit (dualStar s x && a.seq.host.isSome && a.stage.bypassMask == 0) 6 + bit a.sp.curveOn 7 + bit a.sp.hold 8)
/-- The saliency part is off: not placed, or switched off until the next enable (09 R198, R215). -/
def salOff (s : State) (x : Axis) : Bool := parX s x Par.crestSalEn == 0 || (getAx s x).crest.salOff
/-- CREST_SPD_VALID: the observer converged (09 R211). -/
def crestSpdValid (a : AxisSt) : Bool := a.crest.conv
/-- CREST_STATUS (09 Table 9.8). -/
def crestStatus (s : State) (x : Axis) : BitVec 16 :=
  let c := (getAx s x).crest
  if parX s x Par.crestMode == 0 then 0
  else BitVec.ofNat 16 (bit c.conv 0 + bit (crestSpdValid (getAx s x)) 1 + bit (!feq c.w f1 && !salOff s x) 2 +
    bit (flt 0 c.w) 3 + bit c.hold 4 + bit c.polarity 5 + bit (salOff s x) 6 + bit c.paused 7 + bit c.rsClamp 8 +
    bit c.psiClamp 9 + bit c.xchk 10)
/-- COARSE (11 R248): before the first Hall edge the angle is the Hall sector's centre. -/
def fbCoarse (s : State) (x : Axis) : Bool := parX s x Par.fbHallUse == 1 && (getAx s x).fb.hallOfs.isNone
/-- FB_OK (11 R240, Table 11.1; Table 11.6): the position interface runs, the angle of its source is known, and no STOP
of the feedback subsystem stands. -/
def fbOk (s : State) (x : Axis) : Bool :=
  let f := (getAx s x).fb
  let ref := parX s x Par.fbHallUse == 1 || f.referenced
  let known := match (parX s x Par.fbSrc).toNat with
    | 1 => ref
    | 2 => !f.hallIllegal
    | 3 => (parX s x Par.motPolePairs).toNat % max 1 (parX s x Par.fbScPeriods).toNat == 0 || ref
    | 4 => f.valid
    | 5 => f.valid
    | _ => false
  isReady s && known && !f.faulted
/-- FB_STATUS (11 Table 11.8). -/
def fbStatus (s : State) (x : Axis) : BitVec 16 :=
  let f := (getAx s x).fb
  BitVec.ofNat 16 (bit (fbOk s x) 0 + bit f.speedValid 1 + bit (fbCoarse s x) 2 + bit f.referenced 3 + bit f.standstill 4 +
    bit f.dirRev 5 + bit f.hallBad 6 + bit f.ampOut 7 + bit f.serBad 8 + bit f.emuLag 9 + bit f.restored 10)
/-- Chopper faulty (12 R270). -/
def chopFaulty (s : State) : Bool := s.bus.chopCause.isSome
/-- BUS_STATUS (12 Table 12.10). -/
def busStatus (s : State) : BitVec 16 :=
  BitVec.ofNat 16 (bit (s.bus.chop == .on) 0 + bit (chopFaulty s) 1 + bit s.bus.e1 2 + bit s.bus.e2 3 +
    bit s.axes.a.pwm.shorted 4 + bit s.axes.b.pwm.shorted 5 + bit s.bus.loadLimit 6 + bit s.bus.loadWarn 7 +
    bit (parD s Par.chopEn == 0) 8)
/-- Sensors whose scope is the axis: legs, NTCs and Crest windings (13 Table 13.1). -/
def axSensors (x : Axis) : List Nat :=
  match x with
  | .a => [0, 1, 2, 3, 4, 5, 15, 16, 19]
  | .b => [6, 7, 8, 9, 10, 11, 17, 18, 20]
/-- A sensor by its detail. -/
def getSen (s : State) (n : Nat) : SensorSt := (s.th.sensors[n]?).getD {}
/-- TH_STATUS (13 Table 13.6). -/
def thStatus (s : State) (x : Axis) : BitVec 16 :=
  let any := fun (f : SensorSt → Bool) => (axSensors x).any (fun n => f (getSen s n))
  let lost := match x with | .a => s.th.lostA | .b => s.th.lostB
  BitVec.ofNat 16 (bit (any (·.warn)) 0 + bit (any (·.limit)) 1 + bit (any (·.grace)) 2 + bit (any (·.enforced)) 3 +
    bit (any (·.stop)) 4 + bit lost 5)
/-- T_MAX: the hottest valid diode (13 Table 13.6); 0 with none. -/
def tMax (s : State) : F32 :=
  let v := ((List.range 15).map (getSen s)).filter (·.valid)
  match v with | [] => 0 | d :: ds => ds.foldl (fun m d => fmax m d.t) d.t
/-- Enabled winding sources of TW_SRC that are valid (13 R288). -/
def windSources (s : State) (x : Axis) : List SensorSt :=
  let m := parX s x Par.twSrc
  let ids := match x with | .a => [15, 16, 19] | .b => [17, 18, 20]
  ((ids.zipIdx).filter (fun p => m.getLsbD p.2)).map (fun p => getSen s p.1)
/-- T_WIND: the highest of the valid enabled sources (13 R288); 0 with none. -/
def tWind (s : State) (x : Axis) : F32 :=
  match (windSources s x).filter (·.valid) with
  | [] => 0 | d :: ds => ds.foldl (fun m d => fmax m d.t) d.t
/-- A throttle request is active: it stands from the crossing of a limit threshold until the release (13 R291). -/
def throttleReq (s : State) : Bool := s.th.sensors.any (fun d => d.grace || d.enforced)
/-- CAIRN_STATUS (14 Table 14.9). -/
def cairnStatus (s : State) : BitVec 16 :=
  BitVec.ofNat 16 (bit s.cairn.active.isSome 0 + bit s.cairn.compiling.isSome 1 + bit s.cairn.stagedDirty 2 +
    bit (!s.cairn.pendingTr.isEmpty) 3 + bit s.cairn.suspended 4 + bit s.th.halved 5 + bit s.cairn.overBudget 6 +
    bit s.cairn.matched 7)
/-- GPTP_STATE (18 Table 18.11). -/
def gptpCode : GptpState → BitVec 8 | .unsync => 0 | .slave => 1 | .master => 2 | .holdover => 3
/-- CAN_STATUS (18 Table 18.11). -/
def canStatus (s : State) : BitVec 8 :=
  (match s.can.nmt with | .preOperational => 0 | .operational => 1 | .stopped => 2) |||
  (match s.can.err with | .active => 0 | .passive => 4 | .busOff => 8)
/-- XSP_STATUS (19 Table 19.5). -/
def xspStatus (s : State) : BitVec 16 :=
  BitVec.ofNat 16 (bit s.xsp.found 0 + bit s.xsp.lost 1 + bit (s.xsp.found && s.xsp.lanes == 8) 2 +
    bit (s.xsp.found && s.xsp.lanes == 4) 3 + bit s.xsp.stagedValid 4 + s.xsp.reason.toNat * 32)
/-- ROLE_LOCK (20 Table 20.11). -/
def roleLock (s : State) : BitVec 8 :=
  BitVec.ofNat 8 (bit s.mbx.lockOp.lock.isSome 0 + bit s.mbx.lockInst.lock.isSome 1 + bit s.mbx.lockMaker.lock.isSome 2)
/-- IDENT_STATUS, CAP_OVR and the other packed words are held as the spec packs them. -/
def placedAx (s : State) (x : Axis) : Option AxisPlace :=
  match s.cairn.active with
  | none => none
  | some p => match x with | .a => p.axisA | .b => p.axisB
/-- A placement hosts the axis. -/
def hosted (s : State) (x : Axis) : Bool := (getAx s x).seq.host.isSome
/-- Control period T in ticks of 250 ps: n half-periods H (01 R18, 05 R91). -/
def periodTicks (s : State) (x : Axis) : Nat := match placedAx s x with | some p => p.n * p.h | none => 40000
/-- T in seconds, exactly. -/
def periodSec (s : State) (x : Axis) : Rat := mkRat (periodTicks s x) 4000000000
/-- T in ns, rounded down. -/
def periodNs (s : State) (x : Axis) : Nat := periodTicks s x / 4
/-- An output pad is driven; otherwise it is high-impedance: with its domain off, in reset, or with its function not placed
(02 R33). -/
def padDriven (s : State) : OutPad → Bool
  | .encClk x => isReady s && hosted s x && (parX s x Par.fbSrc == 4 || parX s x Par.fbSrc == 5)
  | .emu x => isReady s && hosted s x && parX s x Par.emuEn != 0
  | .cmpOut x u => isReady s && hosted s x && parX s x (match u with | .u0 => Par.cmpCfg0 | .u1 => Par.cmpCfg1) != 0
  | .hspIo => sysOn s
  | .hspIrqN => sysOn s && irqLow s
  | .canTx => s.can.on
  | .xsp => sysOn s && parD s Par.xspEn == 1
  | .tdo => sysOn s && s.otp.testOpen
  | .ethRefclk => s.net.on
  | .ethMdc => s.net.on
  | .ethRstN => s.net.on
  | .rmii1 => s.net.on && (parD s Par.netPortEn).getLsbD 0
  | .rmii2 => s.net.on && (parD s Par.netPortEn).getLsbD 1
  | .t1s => s.net.on && (parD s Par.netPortEn).getLsbD 2
  | .faultN => faultNLow s
  | .stoFb => s.sum.on
  | .hswG => s.sum.hswG
/-- PWM_FREQ_ACT in kHz (05 R91). -/
def pwmFreqAct (s : State) (x : Axis) : F32 :=
  match placedAx s x with | some p => frnd (mkRat 4000000 (2 * p.h)) | none => 0
/-- Bits of the Scarp latch whose sources turn off the gates of an axis (05 Tables 5.2, 5.4). -/
def axisBits : Axis → Word
  | .a => 0x6D1CF03F
  | .b => 0xB6E0FFC0
/-- Bits whose scope is the axis itself (05 Table 5.2). -/
def scopeBits : BitVec 8 → Word
  | 1 => 0x491C003F
  | 2 => 0x92E00FC0
  | _ => 0x2401F000
/-- A latch bit holds the axis's gates off. -/
def tripped (s : State) (x : Axis) : Bool := s.scarp.latch &&& axisBits x != 0

end Sys2Proof.Machine
end

