-- ==== Sys2Proof/Machine/Carrier.lean ====
section
/-!
DEFINITION. The PWM timebase as a course of half-periods: extremes of the carrier, compare values, commanded transitions,
period counting, blanking windows (05 R91 to R97, R100, R106; 04 R68). Instants are ticks of 250 ps of the drive's time.
-/

namespace Sys2Proof.Machine
open Sys2Proof

/-- The present tick: the drive's time in units of 250 ps. -/
def nowTick (s : State) : Nat := 4 * s.clk.now
/-- A duration in ns as ticks, a half tick up (06 R122). -/
def nsTicks (w : Word) : Nat := (fval w * 4 + mkRat 1 2).floor.toNat
/-- δ × H to the nearest tick; how an exact half rounds R95 does not say: ties to even, DESIGN CHOICE (log 117). -/
def compareTicks (d : F32) (h : Nat) : Nat := (roundEven (fval d * (h : Rat))).toNat
/-- COMMIT_SEL of a placed axis (R94). -/
def commitSel (s : State) (x : Axis) : BitVec 8 := match placedAx s x with | some p => p.commitSel | none => 3
/-- COMMIT_SEL selects valleys (1), peaks (2) or both (3) (R94). -/
def selects (sel : BitVec 8) (peak : Bool) : Bool := sel.getLsbD (if peak then 1 else 0)
/-- Largest departure of a half-period from nominal: NL_SLEW in ppm of H, in whole ticks, as 2^-16 tick (R100). -/
def slewLimit (s : State) (x : Axis) : Int :=
  (((getAx s x).pwm.h : Rat) * fval (parX s x Par.nlSlew) / 1000000).floor * 65536

/-! Half-periods (R91, R92, R95, R100). -/

/-- Length of the next half-period H_cur, and the fraction that the accumulator carries on (R100): trim and slew within the
slew limit, whole ticks taken toward zero. -/
def nextHalf (lim : Int) (p : Pwm) : Nat × Int :=
  let q := max (-lim) (min lim (p.trim + p.slew)) + p.frac
  let w := q.tdiv 65536
  (((p.h : Int) + w).toNat, q - w * 65536)
/-- One more half-period after the extremes known so far. -/
def addHalf (lim : Int) (p : Pwm) : Pwm :=
  match p.exts with
  | [] => p
  | (t, peak) :: _ => let n := nextHalf lim p; { p with exts := (t + n.1, !peak) :: p.exts.take 7, frac := n.2 }
/-- The extremes up to the next one that COMMIT_SEL selects: one half-period, or two (R94). -/
def addHalves (lim : Int) (sel : BitVec 8) (p : Pwm) : Pwm :=
  let q := addHalf lim p
  match q.exts with
  | (_, peak) :: _ => if selects sel peak then q else addHalf lim q
  | [] => q
/-- The half-period a tick lies in: its start, its length, and whether it starts at a peak of c1. -/
def halfAt : List (Nat × Bool) → Nat → Option (Nat × Nat × Bool)
  | (t1, _) :: (t0, p0) :: es, t => if t0 ≤ t then (if t < t1 then some (t0, t1 - t0, p0) else none) else halfAt ((t0, p0) :: es) t
  | _, _ => none
/-- c1 at a tick: from 0 at a valley to H_cur at a peak and back (R91). -/
def carrier1 (p : Pwm) (t : Nat) : Option Nat :=
  (halfAt p.exts t).map (fun h => if h.2.2 then h.2.1 - (t - h.1) else t - h.1)
/-- c2 = H_cur − c1, 180° later (R92). -/
def carrier2 (p : Pwm) (t : Nat) : Option Nat :=
  (halfAt p.exts t).map (fun h => if h.2.2 then t - h.1 else h.2.1 - (t - h.1))
/-- The count of a leg's carrier (R92). -/
def carrierOf (p : Pwm) (l : Leg) (t : Nat) : Option Nat := if legOne l then carrier1 p t else carrier2 p t
/-- The latest valley of a leg's own carrier at or before a tick: its carrier start (R92; 04 switch-node edge sensing). -/
def carrierStart (p : Pwm) (l : Leg) (t : Nat) : Option Nat :=
  (p.exts.find? (fun e => decide (e.1 ≤ t) && e.2 == !legOne l)).map (·.1)
/-- The next valley of a leg's own carrier at or after a tick, of those laid out; else one full carrier on. -/
def nextValley (p : Pwm) (l : Leg) (t : Nat) : Nat :=
  match (p.exts.filter (fun e => decide (t ≤ e.1) && e.2 == !legOne l)).reverse with
  | e :: _ => e.1
  | [] => match p.exts with | (t1, _) :: _ => t1 + p.h | [] => t
/-- D with the pulse rounding of 04 R68: a switch is on for at least 20 ns of a carrier period or off for the whole of it,
shorter pulses going to 0 or 20 ns, whichever is nearer, 10 ns up. -/
def pulseTicks (h d : Nat) : Nat :=
  if d < 20 then 0 else if d < 40 then 40 else if h - d < 20 then h else if h - d < 40 then h - 40 else d
/-- The compare value D of a half-period of `h` ticks (R95, 04 R68). -/
def compareValue (duty : F32) (h : Nat) : Nat := pulseTicks h (compareTicks duty h)
/-- The high-side switch of a leg is commanded on at a tick: its count is below D (R96). -/
def commandedHigh (a : AxisSt) (l : Leg) (t : Nat) : Bool :=
  match halfAt a.pwm.exts t, carrierOf a.pwm l t with
  | some h, some c => decide (c < compareValue (sixGet a.legs l).duty h.2.1)
  | _, _ => false

/-! Commanded transitions (R96, R97). -/

/-- Dead-time that a transition takes now (04 R71). -/
def deadOf (g : LegSt) (on : Bool) : Nat := if on then g.dtRise else g.dtFall
/-- One leg through a half-period from `t0`: the new D, the commanded transitions where its switches act, its state at the
end. The set in force at the start governs every transition from that instant on (R97). -/
def legHalf (live one : Bool) (t0 len : Nat) (peak : Bool) (g : LegSt) : LegSt :=
  let d := compareValue g.duty len
  let up := one != peak
  let start := if up then decide (0 < d) else decide (len ≤ d)
  let first := if live && start != g.hi then [(t0, deadOf g start, start)] else []
  let second := if live && decide (0 < d) && decide (d < len) then
      [((if up then t0 + d else t0 + (len - d)), deadOf g (!up), !up)] else []
  { g with cmp := d, hi := if up then decide (len ≤ d) else decide (0 < d), trans := second ++ first ++ g.trans }
/-- All legs of an axis through a half-period. -/
def legsHalf (live : Leg → Bool) (a : AxisSt) (h : Nat × Nat × Bool) : AxisSt :=
  { a with legs := allLegs.foldl (fun m l => sixSet m l (legHalf (live l) (legOne l) h.1 h.2.1 h.2.2 (sixGet m l))) a.legs }
/-- The half-periods from a tick on, oldest first. -/
def halvesFrom : List (Nat × Bool) → Nat → List (Nat × Nat × Bool)
  | (t1, _) :: (t0, p0) :: es, t => if t ≤ t0 then halvesFrom ((t0, p0) :: es) t ++ [(t0, t1 - t0, p0)] else []
  | _, _ => []
/-- The axis through the half-periods up to the next commit point. -/
def layOut (lim : Int) (sel : BitVec 8) (live : Leg → Bool) (a : AxisSt) : AxisSt :=
  let b := { a with pwm := addHalves lim sel a.pwm }
  (halvesFrom b.pwm.exts b.pwm.carAt).foldl (legsHalf live) b
/-- A new dead-time holds for the transitions of its kind after a tick (04 R71). -/
def redate (t dt : Nat) (on : Bool) (g : LegSt) : LegSt :=
  { g with trans := g.trans.map (fun e => if t < e.1 && e.2.2 == on then (e.1, dt, on) else e) }
/-- What of a course, newest first, the period from a tick on needs: what lies in it, and the one before. -/
def keepFrom {α : Type} (t : Nat) (at_ : α → Nat) : List α → List α
  | [] => []
  | e :: es => if at_ e < t then [e] else e :: keepFrom t at_ es

/-! Start and counting (R93, R94). -/

/-- The timebase of an axis starts at a tick with c1 = 0 (R93); gates are off, so no transition is commanded. The valley it
starts with is not counted as an extreme after the start (log 118). What the lock had gathered as a phase is dropped, the
state of the lock stays (log 119). -/
def timebaseStart (t : Nat) (ap : AxisPlace) (a : AxisSt) : AxisSt :=
  layOut 0 ap.commitSel (fun _ => false) { a with
    pwm := { a.pwm with running := true, h := ap.h, trim := 0, slew := 0, frac := 0, carAt := t, exts := [(t, false)],
                        counting := false, halfN := 0, boundaryDue := false, perAt := t, lastPer := t, crossed := none,
                        crossedLate := false, crossedHeld := false } }
/-- The timebase reaches its next commit point: half-periods are counted, and every n-th from the first selected extreme on
is a period boundary (R94). -/
def reachCommit (n : Nat) (p : Pwm) : Pwm :=
  match p.exts with
  | [] => p
  | (t, _) :: es =>
    let k := p.halfN + (if (es.any (fun e => decide (p.carAt < e.1))) then 2 else 1)
    let due := !p.counting || decide (n ≤ k)
    { p with carAt := t, counting := true, halfN := if due then 0 else k, boundaryDue := due }
/-- The half-period in progress is lengthened, or shortened, by a number of ticks (R100). -/
def shiftHalf (j : Int) (p : Pwm) : Pwm :=
  { p with exts := p.exts.map (fun e => if p.carAt < e.1 then (((e.1 : Int) + j).toNat, e.2) else e) }
/-- Length of the half-period in progress at a commit point. -/
def thisHalf (p : Pwm) : Nat := match halfAt p.exts p.carAt with | some h => h.2.1 | none => p.h

/-! Blanking windows (R106). -/

/-- Axis and leg a leg comparator watches (05 Table 5.2). -/
def cmpAxis (n : Nat) : Axis := if n < 6 ∨ (18 ≤ n ∧ n < 21) then .a else .b
/-- The leg a phase-window comparator watches (PV_LEG_SEL), as leg index 0 to 11. -/
def pvLeg (s : State) (n : Nat) : Nat :=
  let x := cmpAxis n
  let p := (n - 18) % 3
  axisNo x * 6 + 2 * p + (if (parX s x Par.pvLegSel).getLsbD p then 1 else 0)
/-- The windows a leg's transitions open, half-open intervals of ticks, while its axis switches (R106, Table 5.3): gates that
are off command no transition, so a window ends with the gates (log 120). -/
def legWindows (s : State) (x : Axis) (blank : Nat) (l : Leg) : List (Nat × Nat) :=
  if (getAx s x).pwm.switching then (getLeg s x l).trans.map (fun e => (e.1, e.1 + e.2.1 + blank)) else []
/-- The windows of a comparator (R106): its own leg's, those of all legs of its bridge's axis, or the chopper's. -/
def cmpWindows (s : State) (n : Nat) : List (Nat × Nat) :=
  if n < 12 then legWindows s (cmpAxis n) (nsTicks (parX s (cmpAxis n) Par.blankLeg)) (legOf (n % 6))
  else if n < 16 then
    let x := if n < 14 then Axis.a else .b
    allLegs.flatMap (legWindows s x (nsTicks (parD s Par.blankBus)))
  else if n < 18 then s.bus.chopTrans.map (fun t => (t, t + nsTicks (parD s Par.blankChop)))
  else legWindows s (cmpAxis n) (nsTicks (parX s (cmpAxis n) Par.blankLeg)) (legOf (pvLeg s n % 6))
/-- A window of the comparator is open at a tick: its opening instant belongs to it, its closing instant does not; windows
that overlap or touch act as one (R106). -/
def windowOpen (s : State) (n t : Nat) : Bool := (cmpWindows s n).any (fun w => decide (w.1 ≤ t) && decide (t < w.2))
/-- A merged window of the comparator closes at a tick (R106). -/
def windowCloses (s : State) (n t : Nat) : Bool := (cmpWindows s n).any (fun w => w.2 == t) && !windowOpen s n t

end Sys2Proof.Machine
end

