-- ==== Sys2Proof/Machine/Ops.lean ====
section
/-!
DEFINITION. The named operations the meanings share: messages, the fault machinery, stops and gates, the Scarp latch,
the power-fail sequence, resets, entries into power states, and the observers of a completed command.
-/

namespace Sys2Proof.Machine
open Sys2Proof

/-! Messages (chapter 17). -/

/-- A message of the drive's own: an event (17 R346). -/
def isEvent (m : Msg) : Bool := m.opcode == 0x8F01 || m.opcode == 0x8F02 || m.opcode == 0x8F03
/-- Place a message in the outbox, or behind what waits there (16 R338). -/
def placeHost (s : State) (m : Msg) : State :=
  if s.hsp.outbox.isNone && s.hsp.queue.isEmpty then
    { s with hsp.outbox := some m, hsp.intStatus := s.hsp.intStatus ||| 0x0001 }
  else { s with hsp.queue := s.hsp.queue ++ [m] }
/-- Send a message on its transport (16 R338, 18 R383). -/
def sendMsg (s : State) (tr : Transport) (m : Msg) : State :=
  match tr with
  | .host => placeHost s m
  | .backbone src => { s with mbx.netOut := s.mbx.netOut ++ [(src, m)] }
/-- The oldest waiting event leaves (17 R348). -/
def dropEvent : List Msg → List Msg
  | [] => []
  | m :: ms => if isEvent m then ms else m :: dropEvent ms
/-- Post an event on the host port: at most four events hold places; a new one replaces the oldest that waits
(17 R348). While eight messages wait and no event waits, the new event has no place. -/
def postHost (s : State) (m : Msg) : State :=
  let held := (s.hsp.outbox.toList ++ s.hsp.queue)
  if 4 ≤ (held.filter isEvent).length then
    if s.hsp.queue.any isEvent then { s with hsp.queue := dropEvent s.hsp.queue ++ [m] } else s
  else if 8 ≤ held.length then
    if s.hsp.queue.any isEvent then { s with hsp.queue := dropEvent s.hsp.queue ++ [m] } else s
  else placeHost s m
/-- Post an event on each transport whose EVENT_MASK bit is set; during a long operation it waits behind the reply
(17 R362, Table 17.4a). On the backbone it goes to the sender of the latest accepted request (18 R383). -/
def postEvent (s : State) (n : Nat) (op : BitVec 16) (payload : List Byte) : State :=
  let m : Msg := ⟨op, 0, 0, payload⟩
  if s.mbx.long.isSome then
    if s.mbx.maskHost.getLsbD n || s.mbx.maskNet.getLsbD n then { s with mbx.held := s.mbx.held ++ [m] } else s
  else
    let s1 := if s.mbx.maskHost.getLsbD n then postHost s m else s
    match s1.net.lastReq with
    | some src => if s1.mbx.maskNet.getLsbD n then sendMsg s1 (.backbone src) m else s1
    | none => s1
/-- The mask bit of an event opcode (17 Table 17.5). -/
def eventBit (op : BitVec 16) : Nat := if op = 0x8F01 then 0 else if op = 0x8F02 then 1 else 2
/-- The events that waited behind a long operation go out (17 Table 17.4a). -/
def flushHeld (s : State) : State :=
  (s.mbx.held).foldl (fun s m => postEvent s (eventBit m.opcode) m.opcode m.payload) { s with mbx.held := [] }
/-- A reply to a request (17 R346). -/
def mkReply (op : BitVec 16) (h : Hdr) (result detail : Nat) (data : List Byte) : Msg :=
  ⟨op ||| 0x8000, h.tag, h.session, u16 result ++ u16 detail ++ data⟩
/-- A reply of a long operation goes ahead of the events that wait (17 R357). -/
def placeAhead (s : State) (m : Msg) : State :=
  if s.hsp.outbox.isNone && s.hsp.queue.isEmpty then placeHost s m
  else { s with hsp.queue := s.hsp.queue.takeWhile (fun q => !isEvent q) ++ m :: s.hsp.queue.dropWhile (fun q => !isEvent q) }
/-- The reply of a request whose answer comes later is the one its session keeps (17 R350). -/
def keepReply (s : State) (op : BitVec 16) (h : Hdr) (m : Msg) : State :=
  { s with mbx.sessions := s.mbx.sessions.map (fun o => match o with
    | some se => if se.last.any (fun l => l.1 == op && l.2.1 == h.tag && l.2.2.1 == h.crc) && se.transport == h.tr
        then some { se with last := some (op, h.tag, h.crc, m) } else some se
    | none => none) }
/-- The running long operation ends: its reply is queued, LONG_DONE sets, waiting events follow (17 R357, R358). -/
def endLong (s : State) (op : BitVec 16) (h : Hdr) (result detail : Nat) (data : List Byte) : State :=
  let m := mkReply op h result detail data
  let s0 := { s with mbx.long := none, hsp.intStatus := s.hsp.intStatus ||| 0x0080 }
  let s1 := match h.tr with | .host => placeAhead s0 m | .backbone _ => sendMsg s0 h.tr m
  flushHeld (keepReply s1 op h m)

/-! Faults (chapter 12). -/

/-- A fault-log entry of this instant (12 Table 12.7). -/
def logEntry (s : State) (code : BitVec 16) (event : Nat) (scope detail : BitVec 8) (value : F32) : LogEntry :=
  { seq := s.nv.logSeq + 1, time := stamp s, code := code, event := BitVec.ofNat 8 event, scope := scope,
    detail := detail, pwr := pwrState s, axsA := axCode s.axes.a.start.ax, axsB := axCode s.axes.b.start.ax,
    vm := vmHi s, value := value, boot := s.nv.bootCount.setWidth 16, repeats := 0 }
/-- Queue an entry for its MRAM write (12 R282). -/
def logIt (s : State) (e : LogEntry) : State :=
  { s with nv.logSeq := e.seq, flt.logPending := s.flt.logPending ++ [e] }
/-- An entry that a raise of now repeats: same code, scope and detail, raised within 1 s (12 R282). -/
def repeatsEntry (s : State) (code : BitVec 16) (scope detail : BitVec 8) (e : LogEntry) : Bool :=
  e.code == code && e.scope == scope && e.detail == detail && e.event == 1 &&
  e.time.getLsbD 63 == (stamp s).getLsbD 63 && decide (e.time.toNat ≤ (stamp s).toNat) &&
  decide ((stamp s).toNat - e.time.toNat < 1000000000)
/-- Count one more raise in the entries that hold it. -/
def bumpRepeat (p : LogEntry → Bool) (l : List LogEntry) : List LogEntry :=
  l.map (fun e => if p e then { e with repeats := sat16 e.repeats } else e)
/-- Log an event, or count it in the entry it repeats (12 R282). -/
def logRaise (s : State) (code : BitVec 16) (scope detail : BitVec 8) (value : F32) : State :=
  let p := repeatsEntry s code scope detail
  if (s.nv.log ++ s.flt.logPending).any p then
    { s with nv.log := bumpRepeat p s.nv.log, flt.logPending := bumpRepeat p s.flt.logPending }
  else logIt s (logEntry s code 1 scope detail value)
/-- The lowest class among entries, 7 with none. -/
def lowestClass (l : List FaultEntry) : Nat := l.foldl (fun m e => min m (codeClass e.code)) 7
/-- The entry a full list gives up: lowest class among those whose cause ended, else among all, the oldest first
(12 R276). -/
def victim (l : List FaultEntry) : Option FaultEntry :=
  let ended := l.filter (fun e => !e.active)
  let pool := if ended.isEmpty then l else ended
  pool.find? (fun e => codeClass e.code == lowestClass pool)
/-- Same code, scope and detail. -/
def sameFault (code : BitVec 16) (scope detail : BitVec 8) (e : FaultEntry) : Bool :=
  e.code == code && e.scope == scope && e.detail == detail
/-- A raise enters the active list, or renews its entry (12 R276); bit 3 of INT_STATUS sets on an entry. -/
def enterList (s : State) (code : BitVec 16) (scope detail : BitVec 8) (active : Bool) : State :=
  if s.flt.list.any (sameFault code scope detail) then
    { s with flt.list := s.flt.list.map (fun e => if sameFault code scope detail e then { e with active := active } else e) }
  else
    let s1 := if 32 ≤ s.flt.list.length then
        match victim s.flt.list with
        | some v => logIt { s with flt.list := s.flt.list.erase v } (logEntry s v.code 4 v.scope v.detail fnan)
        | none => s
      else s
    { s1 with flt.list := s1.flt.list ++ [⟨code, scope, detail, active, stamp s⟩], hsp.intStatus := s1.hsp.intStatus ||| 0x0008 }
/-- Payload of event 0x8F01 (17 Table 17.11). -/
def faultEvent (s : State) (code : BitVec 16) (scope detail : BitVec 8) (event : Nat) : State :=
  if 3 ≤ codeClass code then
    postEvent s 0 0x8F01 (u16 code.toNat ++ [scope, detail] ++ u8 event ++ [0, 0, 0] ++ u64 (stamp s).toNat)
  else s
/-- Error register 0x1001: bit 0 while the active list holds an entry. PRESUMED (log 14): its CiA 301 meaning. -/
def errReg (s : State) : Byte := if s.flt.list.isEmpty then 0 else 1
/-- CiA error code of an EMCY, by subsystem (18 R388). -/
def emcyCode (code : BitVec 16) : Nat :=
  match codeSub code with
  | 0x1 => 0x3000 | 0xA => 0x3000 | 0x2 => 0x2300 | 0x3 => 0x2300 | 0xB => 0x4000 | 0x9 => 0x7300 | 0xD => 0x8100
  | _ => 0x6000
/-- Send a CAN frame. -/
def canSend (s : State) (id : Nat) (data : List Byte) : State :=
  { s with can.sent := s.can.sent ++ [(BitVec.ofNat 11 id, data)] }
/-- COB-ID of the EMCY producer: 0x80 + node unless 0x1014 was written (18 R388). -/
def emcyId (s : State) : Nat := match s.can.emcyCob with | some c => c.toNat % 0x800 | none => 0x80 + (parD s Par.canNode).toNat
/-- The EMCY producer is switched off by bit 31 of 0x1014. PRESUMED (log 9): its CiA 301 meaning. -/
def emcyOff (s : State) : Bool := match s.can.emcyCob with | some c => c.getLsbD 31 | none => false
/-- The inhibit time 0x1015, in units of 100 µs, runs since the last EMCY. PRESUMED (log 139): its CiA 301 meaning. -/
def emcyHeld (s : State) : Bool :=
  match s.can.emcyAt with | some t => decide (s.clk.now < t + s.can.emcyInhibit.toNat * 100000) | none => false
/-- An EMCY message (18 R388). -/
def sendEmcy (s : State) (code : BitVec 16) (scope detail : BitVec 8) : State :=
  if s.can.on && s.can.err != .busOff && !emcyOff s && !emcyHeld s then
    canSend { s with can.emcyAt := some s.clk.now } (emcyId s) (u16 (emcyCode code) ++ [errReg s] ++ u16 code.toNat ++ [scope, detail, 0])
  else s
/-- FAULT_N pulse of a raise (12 R281): during a boot it waits; otherwise it starts while FAULT_N is released, or runs
on while one holds it low. -/
def pulseRaise (s : State) (code : BitVec 16) (wasLow : Bool) : State :=
  if (parD s Par.faultNPulseCls).toNat ≤ codeClass code ∧ parD s Par.faultNPulse ≠ 0 then
    if s.pwr.boot.isSome then { s with flt.bootPulse := true }
    else if !wasLow then { s with flt.pulse := true }
    else s
  else s
/-- Record and signal a raised code (12 R276, R281, R282; 17 R362; 18 R388): everything but the class's own action. -/
def record (s : State) (code : BitVec 16) (scope detail : BitVec 8) (value : F32) (active : Bool) : State :=
  let wasLow := faultNLevel s
  let s1 := logRaise s code scope detail value
  let s2 := if 3 ≤ codeClass code then sendEmcy (enterList s1 code scope detail active) code scope detail else s1
  faultEvent (pulseRaise s2 code wasLow) code scope detail 1
/-- An entry leaves the list with a log record: 2 cleared, 3 LIMIT ended (12 R282). -/
def leaveList (s : State) (e : FaultEntry) (event : Nat) : State :=
  let s1 := logIt { s with flt.list := s.flt.list.filter (fun f => !sameFault e.code e.scope e.detail f) } (logEntry s e.code event e.scope e.detail fnan)
  faultEvent s1 e.code e.scope e.detail event
/-- The cause of a code ends: a LIMIT other than 0x3A04 leaves the list, another entry stays with its cause inactive
(12 R277). -/
def endCause (s : State) (code : BitVec 16) (scope detail : BitVec 8) : State :=
  match s.flt.list.find? (sameFault code scope detail) with
  | none => s
  | some e =>
    if codeClass code = 3 ∧ code ≠ 0x3A04 then leaveList s e 3
    else { s with flt.list := s.flt.list.map (fun f => if sameFault code scope detail f then { f with active := false } else f) }
/-- A STOP-, TRIP- or SAFE-class fault of the axis or the drive stands uncleared (10 R222). -/
def blockedByFault (s : State) (x : Axis) : Bool :=
  s.flt.list.any (fun e => decide (4 ≤ codeClass e.code) && (e.scope == 0 || e.scope == BitVec.ofNat 8 (axisNo x + 1)))
/-- Scope byte of an axis (12 Table 12.7). -/
def scopeOf (x : Axis) : BitVec 8 := match x with | .a => 1 | .b => 2
/-- No detail. -/
def noDetail : BitVec 8 := 0xFF

/-! Gates, axis state and stops (chapter 10). -/

/-- The gates of an axis go off: no start waits for its first duty set, and Crest is not converged (09 R209). -/
def gatesOff (a : AxisSt) : AxisSt :=
  { a with pwm.switching := false, pwm.shorted := false, pwm.gateArm := false, start.gateOffNext := false,
           crest.conv := false, crest.polarity := a.crest.polarity && !a.crest.conv,
           crest.lostCnt := if a.crest.conv then a.crest.lostCnt + 1 else a.crest.lostCnt }
/-- The brake output switches off, whatever waits on it (04 R89). -/
def brakeOff (a : AxisSt) : AxisSt :=
  { a with stage.brake := .off, stage.releaseWait := false, stage.engageWait := false, stage.tripHold := false }
/-- Enter an axis state: the sequencer mode follows Table 10.1; setpoints are accepted only in a start's last steps
(10 R221, R238). -/
def setAx (st : AxState) (a : AxisSt) : AxisSt :=
  let keepAcc := st != .disabled && st != .stopping && st != .retryWait && st != .activeShort && st != .measure
  let b := { a with start.ax := st, seq.written := axMode st, sp.accepted := a.sp.accepted && keepAcc }
  if st = .disabled ∧ a.start.ax ≠ .disabled then
    { b with sp.kept := none, sp.shadow := none, sp.cyclic := [], sp.got := [], sp.nextDue := none, sp.missRun := 0, sp.hold := false }
  else b
/-- Return to DISABLED with the gates off; counters and a running leg test stay (10 R221, R231). -/
def disableAxis (a : AxisSt) : AxisSt :=
  let b := setAx .disabled (gatesOff a)
  { b with start := { ax := .disabled, attempts := a.start.attempts, lastFail := a.start.lastFail, legTest := a.start.legTest } }
/-- The gates of an axis wait for the first duty set of a start: a set of the idle chains that still waits is not that set. -/
def armGates (a : AxisSt) : AxisSt :=
  { a with pwm.gateArm := true, pwm.crossed := none, pwm.crossedLate := false, pwm.crossedHeld := false, seq.duty := none }
/-- Strength of a stop kind (10 R235). -/
def stopRank : StopKind → Nat | .ramp => 0 | .quick => 1 | .coast => 2 | .activeShort => 3 | .sto => 4
/-- Reported mechanical speed: Crest's as the angle source, else the sensor's (08 R177, 09 R211). -/
def speedOf (s : State) (x : Axis) : F32 :=
  let a := getAx s x
  if parX s x Par.crestMode == 1 then
    if a.crest.conv && !a.crest.hold then frnd (fval a.crest.we / ((parX s x Par.motPolePairs).toNat : Rat)) else 0
  else a.fb.speed
/-- The gates of a motor measurement go off and the sequencer returns to IDLE (09 R217, R219). -/
def motorOff (a : AxisSt) : AxisSt := { gatesOff a with seq.written := .idle }
/-- The gates an abandoned motor measurement turns off (17 Table 17.4a). -/
def dropMotor (s : State) (x : Axis) : State :=
  match s.mbx.long with
  | some (.ident y, _) => if y = x then onAx s x motorOff else s
  | some (.angleOfs y, _) => if y = x then onAx s x motorOff else s
  | _ => s
/-- The end of the long operation of an abandoned motor measurement (17 Table 17.4a): an identification ends with reason 7
and its WARN 0x2706 (09 R219). -/
def endMotor (s : State) (x : Axis) : State :=
  match s.mbx.long with
  | some (.ident y, h) =>
    if y = x then endLong (record (onAx s x (fun a => { a with crest.identStatus := 0x73 })) 0x2706 (scopeOf x) 7 fnan false) 0x0502 h 0x32 7 []
    else s
  | some (.angleOfs y, h) => if y = x then endLong s 0x0503 h 0x32 0 [] else s
  | _ => s
/-- Motor identification or angle measurement of an axis is abandoned (17 Table 17.4a). -/
def abandonMotor (s : State) (x : Axis) : State := endMotor (dropMotor s x) x
/-- Begin or strengthen a stop of an axis (10 R232, R235, R236). -/
def beginStop (s : State) (x : Axis) (k : StopKind) : State :=
  let a := getAx s x
  let w := speedOf s x
  match a.start.ax with
  | .disabled => s
  | .activeShort => s
  | .measure => onAx s x (fun a => disableAxis (brakeOff a))
  | .blockedWait => onAx s x (fun a => disableAxis (brakeOff a))
  | .retryWait => onAx s x (fun a => disableAxis (brakeOff a))
  | _ =>
    if !a.pwm.switching then onAx s x (fun a => disableAxis (brakeOff a))
    else
      let s := onAx s x (fun a => { a with start.retryNext := false, start.failReason := 0 })
      let stronger := match a.start.stop with | some j => decide (stopRank j < stopRank k) | none => true
      if a.start.ax == .stopping && !stronger then s
      else if k = .coast ∨ k = .sto then
        onAx s x (fun a => { setAx .stopping (brakeOff a) with start.stop := some k, start.gateOffNext := true })
      else if a.start.ax == .release ∧ k ≠ .activeShort then
        onAx s x (fun a => { setAx .stopping (brakeOff a) with start.stop := some k, stage.engageWait := true })
      else
        onAx s x (fun a =>
          let b := setAx .stopping a
          -- a stop out of speed mode goes on from its reference; any other begins at the measured speed (10 Table 10.8)
          let keep := a.start.ax == .stopping || (a.sp.accepted && a.sp.mode == 1)
          { b with start.stop := some k, start.merge := none, start.crossing := false, start.curveStop := false,
                   start.gateOffNext := a.start.gateOffNext && k != .activeShort,
                   ctl.wRef := if keep then a.ctl.wRef else w, ctl.wRefPrev := if keep then a.ctl.wRefPrev else w,
                   pwm.gateArm := false })
/-- A stop request: a running identification or angle measurement ends with it (17 Table 17.4a). -/
def requestStop (s : State) (x : Axis) (k : StopKind) : State := abandonMotor (beginStop s x k) x
/-- Stop kind of a STOP-class fault of an axis (10 Table 10.9). -/
def faultKind (s : State) (x : Axis) (code : BitVec 16) : StopKind :=
  if code = 0x4701 then .coast
  else if codeSub code = 9 ∧ parX s x Par.crestMode ≠ 1 then .coast
  else if code = 0x4A06 then .ramp
  else if parX s x Par.stopKindFault == 1 then .quick else .ramp
/-- The axes a scope names (12 R277). -/
def scopeAxes (scope : BitVec 8) : List Axis := if scope = 1 then [.a] else if scope = 2 then [.b] else [.a, .b]
/-- Raise a code: recorded under R276 and R282, and a STOP acts on its axes (12 Table 12.5). 0x4A04 chooses its own
kind (12 R273). -/
def raise (s : State) (code : BitVec 16) (scope detail : BitVec 8) (value : F32) (active : Bool) : State :=
  let s1 := record s code scope detail value active
  if codeClass code = 4 ∧ code ≠ 0x4A04 then
    (scopeAxes scope).foldl (fun s x => requestStop s x (faultKind s x code)) s1
  else s1
/-- Raise without a measured value or a cause that lasts. -/
def raise0 (s : State) (code : BitVec 16) (scope detail : BitVec 8) : State := raise s code scope detail fnan false
/-- Raise with a cause that holds. -/
def raise1 (s : State) (code : BitVec 16) (scope detail : BitVec 8) : State := raise s code scope detail fnan true

/-! Scarp (chapter 05). -/

/-- On-time of the chopper in the running millisecond of the braking-load model up to `t`, ns (12 R269). -/
def chopOnNs (s : State) (t : Nat) : Nat :=
  if s.bus.chop = .on then s.bus.onNs + (t - max s.bus.chopAt s.bus.tickAt) else s.bus.onNs
/-- The chopper's command changes; a transition of its switch opens windows of its comparators, and its on-time counts (12
R266, R269, R270; 05 R106). -/
def setChop (p : ChopPhase) (s : State) : State :=
  { s with bus.chop := p, bus.onNs := chopOnNs s s.clk.now,
           bus.chopTrans := if (s.bus.chop == .on) != (p == .on) then (nowTick s :: s.bus.chopTrans).take 8 else s.bus.chopTrans }
/-- Axes whose gates a source turns off (05 Tables 5.2, 5.4). -/
def sourceAxes (n : Nat) : List Axis :=
  bothAxes.filter (fun x => (axisBits x).getLsbD n)
/-- The chopper gate is held off by Scarp: sources 16 and 29 (12 R267). -/
def scarpChop (s : State) : Bool := s.scarp.latch.getLsbD 16 || s.scarp.latch.getLsbD 29
/-- SCARP_FIRST after a source trips the axis at a tick: the first one; of two within 2 ns the lower index (05 R111). -/
def firstSource (n tick : Nat) (a : AxisSt) : AxisSt :=
  if a.pwm.scarpFirst = 0xFF then { a with pwm.scarpFirst := BitVec.ofNat 8 n, pwm.tripTick := tick }
  else if tick ≤ a.pwm.tripTick + 8 ∧ n < a.pwm.scarpFirst.toNat then { a with pwm.scarpFirst := BitVec.ofNat 8 n }
  else a
/-- One axis trips: counters, first source, trip flag, gates off, brake hold; duty commits go on (05 R111, Table 5.9; 04
Table 4.9). -/
def tripAxis (n tick : Nat) (was : Bool) (a : AxisSt) : AxisSt :=
  let b := { firstSource n tick a with
                    pwm.tripCount := if was then a.pwm.tripCount else a.pwm.tripCount + 1,
                    seq.trip := true,
                    stage.autoBypass := gatesOn a }
  let hold := if n = 29 then brakeOff b else { b with stage.tripHold := b.stage.brake != .off }
  if a.start.ax = .disabled then gatesOff hold else disableAxis hold
/-- A source sets its latch; while set, its gate-off inputs are held (05 R109 to R111). CMP17 never latches. -/
def latchSource (s : State) (n : Nat) : State :=
  if n = 17 ∨ 32 ≤ n ∨ s.scarp.latch.getLsbD n then s
  else
    let s1 := { s with scarp.latch := s.scarp.latch ||| bitW n }
    let tick := max s.scarp.tick (nowTick s)
    let s2 := (sourceAxes n).foldl (fun t x => abandonMotor (onAx t x (tripAxis n tick (tripped s x))) x) s1
    if n = 16 ∨ n = 29 then setChop .off s2 else s2
/-- Set or clear the level of a source. -/
def setRaw (s : State) (n : Nat) (b : Bool) : State :=
  { s with scarp.raw := if b then s.scarp.raw ||| bitW n else s.scarp.raw &&& ~~~(bitW n) }
/-- The chopper becomes faulty (12 R270): never commanded on, E1 in force (12 R273). -/
def chopFault (s : State) (cause : BitVec 8) : State :=
  raise1 (setChop .off { s with bus.chopCause := some cause, bus.misses := 0, bus.e1 := true }) 0x3A04 0 cause
/-- The code a source raises, in its owning chapter (05 Table 5.4); `d` is the leg or sensor where the source has one. -/
def sourceCode (s : State) (n : Nat) (d : BitVec 8) : State :=
  if n < 12 then raise1 s 0x5310 (scopeOf (cmpAxis n)) (BitVec.ofNat 8 n)
  else if n = 12 then raise1 s 0x5A01 0 0
  else if n = 14 then raise1 s 0x5A01 0 1
  else if n = 13 then raise1 s 0x5101 0 0
  else if n = 15 then raise1 s 0x5101 0 1
  else if n = 16 then chopFault (raise1 s 0x5A02 0 noDetail) 2
  else if 18 ≤ n ∧ n < 24 then raise1 s 0x5311 (scopeOf (cmpAxis n)) (BitVec.ofNat 8 (pvLeg s n))
  else if n = 24 then raise1 s 0x520A 1 d
  else if n = 25 then raise1 s 0x520A 2 d
  else if n = 26 then raise1 s 0x520B 0 noDetail
  else if n = 27 then raise1 s 0x5B05 1 d
  else if n = 28 then raise1 s 0x5B05 2 d
  else if n = 30 then raise0 s 0x5313 1 noDetail
  else if n = 31 then raise0 s 0x5313 2 noDetail
  else s
/-- A source trips: latch, then its code (05 R109, R110). -/
def scarpFire (s : State) (n : Nat) (d : BitVec 8) : State := sourceCode (latchSource s n) n d
/-- Sensors of a scope (13 Table 13.1). -/
def scopeSensors (scope : BitVec 8) : List Nat :=
  if scope = 1 then axSensors .a else if scope = 2 then axSensors .b else [12, 13, 14]
/-- The thermal codes of a scope are clearable: every valid sensor of the scope and the die sensors lie below TH_REARM
(13 R293). -/
def rearmed (s : State) (scope : BitVec 8) : Bool :=
  (scopeSensors scope ++ [13, 14]).all (fun n => !(getSen s n).valid || flt (getSen s n).t (parD s Par.thRearm))
/-- The codes R293 speaks of. -/
def thermalCode (c : BitVec 16) : Bool := c == 0x4B04 || c == 0x5B05 || c == 0x5B06
/-- The junction Scarp input of an axis is held: a sensor asserts it, or the thermal TRIP it belongs to stands (13 R290). -/
def thermalHeld (s : State) (x : Axis) : Bool :=
  let legs := match x with | .a => [0, 1, 2, 3, 4, 5, 13, 14] | .b => [6, 7, 8, 9, 10, 11, 13, 14]
  legs.any (fun n => (getSen s n).trip) ||
  s.flt.list.any (fun e => (e.code == 0x5B05 || e.code == 0x5B06) && (e.scope == 0 || e.scope == scopeOf x))
/-- A bootstrap supply is at or above its 5.0 V recovery level (04 R69): it has not fallen, or VGD has recharged it through
the refresh switch for the 150 µs that the refresh of 04 R67 takes (15 Table 15.3; DEDUCED, log 17). -/
def bootBack (s : State) (vgd : Bool) (g : LegSt) : Bool :=
  !g.bootLow || (vgd && decide (g.bootLowAt + 150000 ≤ s.clk.now))
/-- The high-side gate of a leg is held off until its bootstrap recovers (04 R69). -/
def highHeld (s : State) (x : Axis) (l : Leg) : Bool := !bootBack s (getAx s x).stage.vgdOn (getLeg s x l)
/-- A breaker trip is in force: it ended the connection, and the input has not fallen below VM_PF since (03 R46, R56). -/
def breakerInForce (s : State) : Bool := (s.sum.pfStandby || s.sum.pfCommit) && !s.sum.fellBelowPf
/-- A source is inactive, so that its latch bit can clear (05 R112). -/
def sourceInactive (s : State) (n : Nat) : Bool :=
  if n < 24 then !s.scarp.raw.getLsbD n
  else if n = 24 then (sixList s.axes.a.legs).all (bootBack s s.axes.a.stage.vgdOn)
  else if n = 25 then (sixList s.axes.b.legs).all (bootBack s s.axes.b.stage.vgdOn)
  else if n = 26 then !s.scarp.raw.getLsbD 26 || stoHolds s
  else if n = 27 then !thermalHeld s .a
  else if n = 28 then !thermalHeld s .b
  else if n = 29 then flt (parD s Par.vmPf) (frnd (milli s.sum.inMv)) && !breakerInForce s
  else true
/-- After latch bits clear: an axis with none set forgets its first source and its trip flag (05 R111; 07 R160). -/
def settleTrip (s : State) : State :=
  bothAxes.foldl (fun t x => if tripped t x then t else
    onAx t x (fun a => { a with pwm.scarpFirst := 0xFF, seq.trip := false })) s
/-- Clear the named latch bits whose sources are inactive (05 R112). -/
def clearLatch (s : State) (bits : Word) : State :=
  let m := (List.range 32).foldl (fun m n => if bits.getLsbD n && sourceInactive s n then m ||| bitW n else m) (0 : Word)
  settleTrip { s with scarp.latch := s.scarp.latch &&& ~~~m }
/-- The Scarp bit whose source is a TRIP entry's cause, with none where it has no latch of its own. -/
def entryBit (e : FaultEntry) : Option Nat :=
  if e.code = 0x5310 then some e.detail.toNat
  else if e.code = 0x5A01 then some (if e.detail = 0 then 12 else 14)
  else if e.code = 0x5101 then some (if e.detail = 0 then 13 else 15)
  else if e.code = 0x5A02 then some 16
  else if e.code = 0x5311 then some (18 + e.detail.toNat / 2 % 6)
  else if e.code = 0x520A then some (if e.scope = 1 then 24 else 25)
  else if e.code = 0x520B then some 26
  else if e.code = 0x5313 then some (if e.scope = 1 then 30 else 31)
  else none
/-- VM_HI lies between 36 V and 75 V (12 R271). -/
def vmTestable (s : State) : Bool := fle 0x42100000 (vmHi s) && fle (vmHi s) 0x42960000
/-- The cause of a latched entry still holds at a clear request; `seen` is what a chopper test at the request sees
(12 R279, Table 12.6). -/
def causeHolds (s : State) (seen : Bool) (e : FaultEntry) : Bool :=
  let testPass := seen && vmTestable s
  if e.code = 0x4106 then true
  else if e.code = 0x4207 then s.sto.in1Low != s.sto.in2Low || !s.sto.highSeen
  else if e.code = 0x4A06 ∨ e.code = 0x4501 then !s.clk.heartbeatOk
  else if e.code = 0x4502 then !s.clk.heartbeatOk || e.active
  else if e.code = 0x3A04 then !testPass || (e.detail == 3 && ((getSen s 12).stop || (getSen s 12).trip)) || scarpChop s
  else if e.code = 0x5A01 then !s.bus.low10ms || s.scarp.latch.getLsbD (if e.detail = 0 then 12 else 14)
  else if e.code = 0x5A03 then !(isReady s && !anyRun s) || !testPass || s.scarp.raw.getLsbD 17
  else if e.code = 0x4A04 then s.bus.e2 || !s.bus.low10ms
  else if e.code = 0x6A01 then s.pwr.safe
  else if e.code = 0x5002 then s.clk.unlocked != 0 || decide (s.clk.now < s.clk.lockAt + 10000000)
  else if thermalCode e.code then !rearmed s e.scope
  else if e.code = 0x4503 then (scopeAxes e.scope).any (fun x => (getAx s x).seq.host.isNone)
  else match entryBit e with
    | some n => s.scarp.latch.getLsbD n || (decide (e.code = 0x5101) && e.active)
    | none => e.active
/-- Stage E1 is left once the chopper is not faulty and VM_HI has been at or below OV1 − CHOP_HYST for 10 ms (12 R273). -/
def leaveE1 (s : State) : State :=
  if s.bus.e1 && s.bus.low10ms && !chopFaulty s then endCause { s with bus.e1 := false } 0x3A05 0 noDetail else s
/-- One entry of a clear request: it leaves the list when its cause is inactive, with what its clear undoes
(12 R278; 01 R23 and 07 R160 for the sequencer flags). -/
def clearEntry (seen : Bool) (s : State) (e : FaultEntry) : State :=
  if causeHolds s seen e then s
  else
    let s1 := leaveList s e 2
    if e.code = 0x3A04 then
      leaveE1 { s1 with bus.chopCause := none, bus.testFailed := false, boot.bist := s1.boot.bist &&& ~~~0x10 }
    else if e.code = 0x4A06 then
      (scopeAxes e.scope).foldl (fun t x => onAx t x (fun a => { a with seq.hbLoss := false })) s1
    else if e.code = 0x4501 ∨ e.code = 0x4502 then
      (scopeAxes e.scope).foldl (fun t x => onAx t x (fun a => { a with seq.rgFault := false, seq.dead := false, seq.overruns := 0 })) s1
    else if e.code = 0x5B05 ∨ e.code = 0x5B06 then
      clearLatch s1 (if e.scope = 1 then bitW 27 else if e.scope = 2 then bitW 28 else bitW 27 ||| bitW 28)
    else if codeSub e.code = 9 then
      (scopeAxes e.scope).foldl (fun t x => onAx t x (fun a => { a with fb.faulted := false })) s1
    else if e.code = 0x5A03 then
      leaveE1 { s1 with bus.shortSeen := false, bus.chopCause := if s1.bus.chopCause = some 0 then none else s1.bus.chopCause }
    else s1
/-- An entry is latched: STOP, TRIP and SAFE, and the LIMIT 0x3A04 (12 Table 12.5). -/
def latched (e : FaultEntry) : Bool := decide (4 ≤ codeClass e.code) || e.code == 0x3A04
/-- A clear request names a chopper fault, so that it runs the chopper test (12 R271). -/
def namesChop (s : State) (scopes : List (BitVec 8)) : Bool :=
  s.flt.list.any (fun e => (e.code == 0x3A04 || e.code == 0x5A03) && scopes.contains e.scope)
/-- A clear request for scopes (12 R278): first the Scarp bits of the scopes under R112, then every latched entry whose
cause is inactive. -/
def clearRequest (s : State) (scopes : List (BitVec 8)) (seen : Bool) : State :=
  let bits := scopes.foldl (fun m sc => m ||| scopeBits sc) (0 : Word)
  let s1 := clearLatch s bits
  (s1.flt.list.filter (fun e => latched e && scopes.contains e.scope)).foldl (clearEntry seen) s1
/-- Entries of the scopes that stay (12 R278). -/
def stays (s : State) (scopes : List (BitVec 8)) : List FaultEntry := s.flt.list.filter (fun e => scopes.contains e.scope)
/-- Sources that are still active after their latches were cleared by a reset or a power fail latch again once the domain that
holds them is powered (05 R112): the comparators, and the power-fail source. -/
def relatch (s : State) : State :=
  (List.range 30).foldl (fun t n =>
    if (decide (n < 24) && n != 17 || n == 29) && !sourceInactive s n then scarpFire t n 0 else t) s

/-- Index 0 to 11 of a leg, as R13 orders them: the DETAIL that names a leg (log 17). -/
def legIdx (x : Axis) (l : Leg) : BitVec 8 := BitVec.ofNat 8 (axisNo x * 6 + legNo l)
/-- Legs whose switches a bypass holds off (04 Table 4.6): the leg, or its whole star. -/
def heldLegs (s : State) (x : Axis) : List Leg :=
  let m := (getAx s x).stage.bypassMask
  if dualStar s x then
    if m &&& 0x15 != 0 then [.u1, .v1, .w1] else if m &&& 0x2A != 0 then [.u2, .v2, .w2] else []
  else allLegs.filter (fun l => m.getLsbD (legNo l))
/-- The reference a start leaves, as a setpoint of the mode in force (10 R238). -/
def ownRef (a : AxisSt) : Setpoint :=
  if a.sp.mode = 2 then { kind := 2, frac := BitVec.ofInt 32 (a.ctl.posRef % 4294967296), turns := BitVec.ofInt 32 (a.ctl.posRef / 4294967296) }
  else if a.sp.mode = 0 then { kind := 0, value := a.ctl.iqRef }
  else { kind := 1, value := a.ctl.wRef }
/-- Setpoints are accepted from now on: the start's own reference stands until the kept one applies (10 R238). -/
def acceptSp (a : AxisSt) : AxisSt :=
  { a with sp.accepted := true, sp.now := ownRef a, sp.prevPos := none, sp.shadow := if a.sp.kept.isSome then a.sp.kept else a.sp.shadow, sp.kept := none }
/-- The release of the holding brake starts (04 R88, R89). -/
def releaseBrake (a : AxisSt) : AxisSt := { a with stage.brake := .pull, stage.releaseWait := true, stage.tripHold := false }
/-- The rounding of a Thoevo computation whose precision the spec leaves open: the exact value, rounded once (log 18). -/
def fThoevo (q : Rat) : F32 := frnd q

/-! Power states and resets (chapters 03, 21). -/

/-- An enable bit of a supply output (03 R43). -/
def outWanted (s : State) (par : Nat) : Bool :=
  let e := parD s par
  if s.sum.pfCommit then false
  else match s.pwr.base with
    | .ready => e.getLsbD 0
    | .hold => e.getLsbD 0 && e.getLsbD 1
    | _ => false
/-- Both outputs follow their enables and their overload shutdown (03 R43). -/
def setOutputs (s : State) : State :=
  { s with sum.out5.on := outWanted s Par.out5En && !s.sum.out5.overloaded,
           sum.out3.on := outWanted s Par.out3En && !s.sum.out3.overloaded }
/-- STO with its inputs low sets SAFE with 0x6A01 (03 R57). -/
def setSafe (s : State) : State :=
  if s.pwr.safe && s.flt.list.any (fun e => sameFault 0x6A01 0 noDetail e && e.active) then s
  else raise1 { s with pwr.safe := true } 0x6A01 0 noDetail
/-- Gate supply of each powered gate domain, present unless STO holds it off (04 R67, R83); VGD that comes up is no longer
below its 5.2 V (05 R112). -/
def powerGates (s : State) : State :=
  let up := fun (t : State) (x : Axis) => onAx t x (fun a => { a with stage.vgdOn := a.seq.host.isSome && !stoHolds t })
  let t := bothAxes.foldl up s
  if t.axes.a.stage.vgdOn || t.axes.b.stage.vgdOn then setRaw t 26 false else t
/-- The gate domains lose power: timebases stop (05 R93). -/
def unpowerGates (s : State) : State :=
  onBoth s (fun a => 
    { disableAxis (brakeOff a) with
      stage.vgdOn := false, pwm.running := false, seq.mode := .idle, seq.chainBusy := false, seq.chainQueued := false })
/-- The drive uses the backbone: an enabled port with the external reference present (02 R36, 15 Table 15.3). -/
def netPlaced (s : State) : Bool :=
  s.cairn.active.isSome && parD s Par.netPortEn != 0 && s.clk.extRef
/-- The network lock of an axis when gPTP reports loss: HOLDOVER with WARN 0x2302, the trim frozen (05 R101). -/
def nlLose (s : State) (x : Axis) : State :=
  let n := (getAx s x).pwm.nl
  if n = .acquire ∨ n = .locked then
    raise0 (onAx s x (fun a => { a with pwm.nl := .holdover, pwm.slew := 0 })) 0x2302 (scopeOf x) noDetail
  else s
/-- Loss of synchronisation: GPTP_STATE 3, WARN 0x2D03, the clock runs on at its last rate (R373). -/
def loseSync (s : State) : State :=
  if gptpOk s then bothAxes.foldl nlLose (raise0 { s with net.gptp := .holdover, net.syncRun := 0, net.announced := false } 0x2D03 0 noDetail)
  else s
/-- PD_NET without power keeps nothing of its ports and tables (15 Table 15.3). -/
def netOff (s : State) : State :=
  { s with net := { s.net with on := false, rstReleased := false, rmii1 := {}, rmii2 := {}, t1s := {}, csmaFallback := false,
                               beacon := false, table := [], slave := none, arp := [] } }
/-- PD_NET is powered or not. Its ports go down with it, so a synchronisation is lost, and its clock does not run on
(15 R315, Table 15.3; 18 R373; log 141). -/
def netPower (on : Bool) (s : State) : State :=
  if on then { s with net.on := true }
  else netOff (if s.net.on then { loseSync s with net.gptp := .unsync, net.syncRun := 0, net.announced := false } else s)
/-- The eight PDOs of the predefined set (18 R389): 1 and 2 mapped, 5 to 8 disabled; the identifiers of 3 and 4 are those of
CiA 301, with nothing mapped (PRESUMED, log 9). -/
def predefined (base : Nat) (node : Nat) (mapsA mapsB : List (BitVec 32)) : List Pdo :=
  [{ cob := BitVec.ofNat 32 (base + node), maps := mapsA, n := mapsA.length },
   { cob := BitVec.ofNat 32 (base + 0x100 + node), maps := mapsB, n := mapsB.length },
   { cob := BitVec.ofNat 32 (base + 0x200 + node) }, { cob := BitVec.ofNat 32 (base + 0x300 + node) }, {}, {}, {}, {}]
/-- The CAN state after its start: Pre-operational, the predefined PDOs, the boot-up message (18 R388, R389). -/
def canStart (s : State) : State :=
  let node := (parD s Par.canNode).toNat
  canSend { s with can := { on := true, busoff := s.can.busoff, sent := s.can.sent,
                            rpdo := predefined 0x200 node [0x60400010, 0x607A0020] [0x68400010, 0x687A0020],
                            tpdo := predefined 0x180 node [0x60410010, 0x60640020] [0x68410010, 0x68640020] } } (0x700 + node) [0]
/-- CAN starts or stops (02 R36; 18 R388). -/
def canPower (on : Bool) (s : State) : State :=
  if on then (if s.can.on then s else canStart s) else { s with can.on := false }
/-- Comparator n of the first-READY test (05 R115). -/
def cmpTestFail (s : State) (n : Nat) : State :=
  let s1 := { s with scarp.testFail := s.scarp.testFail ||| bitW n, boot.bist := s.boot.bist ||| 0x8 }
  if n < 12 then raise1 s1 0x4305 (scopeOf (cmpAxis n)) (BitVec.ofNat 8 n) else raise0 s1 0x2304 0 (BitVec.ofNat 8 n)
/-- A comparator passes its test: its bit clears (05 R115). -/
def cmpTestPass (s : State) (n : Nat) : State :=
  let s1 := { s with scarp.testFail := s.scarp.testFail &&& ~~~(bitW n) }
  if n < 12 && isReady s then endCause s1 0x4305 (scopeOf (cmpAxis n)) (BitVec.ofNat 8 n) else s1
/-- One comparator's test with its outcome. -/
def cmpTested (fails : Nat → Bool) (s : State) (n : Nat) : State := if fails n then cmpTestFail s n else cmpTestPass s n
/-- The chopper test runs (12 R271). -/
def chopTested (s : State) (seen : Bool) : State :=
  let s1 := { s with bus.testWaits := false }
  if seen then leaveE1 { s1 with boot.bist := s1.boot.bist &&& ~~~0x10, bus.testFailed := false, bus.chopCause := none }
  else chopFault { s1 with boot.bist := s1.boot.bist ||| 0x10, bus.testFailed := true } 1
/-- The tests of the first entry to READY after a boot (21 R432). -/
def firstReady (s : State) : State :=
  if s.pwr.firstReadyDone then s
  else
    let s1 := { s with pwr.firstReadyDone := true }
    let s2 := (List.range 24).foldl (cmpTested (fun n => s.boot.cmpFail.getLsbD n)) s1
    if parD s Par.chopEn == 0 then s2
    else if vmTestable s2 then chopTested s2 s.boot.chopSeen
    else { s2 with bus.testWaits := true }
/-- A conversion table as its header and entry words place it (06 Tables 6.4, 6.5). -/
def tableOf (header : Word) (entries : List Word) : ConvTable :=
  { trig := (header >>> 28).setWidth 4, div := (header >>> 24).setWidth 4, delay := header.setWidth 24, entries := entries }
/-- All tables of the converters are written: those listed, and the others empty; a converter keeps its result words and the
tables' counters (06 R125, R145). -/
def writeTables (tabs : List (Nat × Nat × Word × List Word)) (timers : Nat × Nat) (s : State) : State :=
  (List.range 12).foldl (fun t k => onCv t k (fun c =>
    { c with tables := (c.tables.zipIdx).map (fun q =>
        match tabs.find? (fun e => e.1 == k && e.2.1 == q.2) with
        | some e => { tableOf e.2.2.1 e.2.2.2 with trigOvr := q.1.trigOvr }
        | none => { trigOvr := q.1.trigOvr }) })) { s with conv.timers := timers }
/-- Conversion tables and timers of a placement (06 R125, R126). -/
def loadTables (s : State) (o : CairnOut) : State := writeTables o.tables o.timers s
/-- A converter takes shared work. -/
def cvServes (s : State) (cv : Nat) : Bool := !(getCv s cv).suspect && !(getCv s cv).outOfService
/-- The mux channels a HOLD table samples on a converter: VM_A or VM_B, and the temperature diodes of its pair (R144). -/
def holdChans (cv : Nat) : List Nat :=
  let k := cv % 6
  (if k < 2 then [1, 4, 5, 8] else if k = 4 then [4, 5, 6] else [4, 5])
/-- Entry words of the HOLD table of a converter (R131, R144): even runs on converter k, odd ones on k + 6, every run where the
partner is out; the result word of a channel has the channel's number (log 136). -/
def holdEntries (s : State) (cv : Nat) : List Word :=
  let par : Nat := if !cvServes s ((cv + 6) % 12) then 0 else if cv < 6 then 2 else 3
  let l := holdChans cv
  if !cvServes s cv then []
  else (l.zipIdx).map (fun q => BitVec.ofNat 32 ((if q.2 + 1 = l.length then 2 ^ 31 else 0) + par * 2 ^ 29 + q.1 * 2 ^ 20 + q.1))
/-- Cairn's HOLD tables: TBL0 of every converter on timer 0 at 1 kS/s (R144). -/
def holdTables (s : State) : State :=
  writeTables ((List.range 12).map (fun k => (k, 0, 0x50000000, holdEntries s k))) (1000000, 0) s
/-- The timebase of a placed axis starts with its gate domain (05 R93); its engine, just powered, starts its first chain
with the counts of R19 at zero and the init list due (07 R162, R163; 15 Table 15.3). -/
def startAxisTime (s : State) (x : Axis) : State :=
  match placedAx s x with
  | some p => onAx s x (fun a =>
      if a.seq.host.isSome then
        { timebaseStart (nowTick s) p a with seq.first := true, seq.initPending := true, seq.periods := 0, seq.speedRuns := 0 }
      else { a with pwm.running := false })
  | none => onAx s x (fun a => { a with pwm.running := false })
/-- The engines' banks as Cairn rewrites them at power-up carry the init entries of the axes they host (07 R163; 15 Table
15.3). -/
def rewriteInit (p : Placement) (s : State) : State :=
  let all := p.out.imgA.init ++ p.out.imgB.init
  let put := fun (i : BankImage) => { i with init := all.filter (fun q => if q.1 then i.hostB else i.hostA) }
  let one := fun (s : State) (e : Engine) => onEng s e (fun g =>
    if g.active then { g with bank1 := put g.bank1 } else { g with bank0 := put g.bank0 })
  one (one s .rga) .rgb
/-- What Cairn writes when the domains of READY power up: tables, timers and banks of the active placement. -/
def rewritePlace (s : State) : State :=
  match s.cairn.active with
  | some p => rewriteInit p (loadTables s p.out)
  | none => s
/-- Entry to READY: domains powered, tables written, outputs re-armed, timebases started, tests (03 R43, Table 3.7; 05 R93;
21 R432, R437). -/
def enterReady (s : State) : State :=
  let s1 := { rewritePlace s with pwr.base := .ready, conv.foothill := false, sum.out5.overloaded := false, sum.out3.overloaded := false }
  let s2 := powerGates (setOutputs (netPower (netPlaced s) s1))
  let s3 := bothAxes.foldl startAxisTime (onBoth s2 (fun a => { a with sp.curveSeen := false, sp.curveValid := false }))
  let s4 := firstReady { s3 with boot.lineTest := (parD s Par.netPortEn).getLsbD 2 && netPlaced s }
  if stoHolds s4 then setSafe s4 else s4
/-! The flash behind the external memory port (19 R400). -/

/-- A byte of the flash; an unlisted one is erased. -/
def flashByte (s : State) (a : Nat) : Byte := mapRead 0xFF s.xsp.flash a
/-- Program bytes: a program only clears bits (19 R400: a write never erases). -/
def programBytes (m : List (Nat × Byte)) (bs : List (Nat × Byte)) : List (Nat × Byte) :=
  bs.foldl (fun (m : List (Nat × Byte)) (p : Nat × Byte) => mapWrite 0xFF m p.1 (mapRead 0xFF m p.1 &&& p.2)) m
/-- Erase a range. -/
def eraseBytes (m : List (Nat × Byte)) (a n : Nat) : List (Nat × Byte) := m.filter (fun p => !(a ≤ p.1 && p.1 < a + n))
/-- The operation in progress completes (19 R400). -/
def flashDone (s : State) : State :=
  match s.xsp.busy with
  | .idle => s
  | .program _ bs => { s with xsp.flash := programBytes s.xsp.flash bs, xsp.busy := .idle }
  | .erase a n => { s with xsp.flash := eraseBytes s.xsp.flash a n, xsp.busy := .idle }
/-- The collected page is programmed, after the operation before it (19 R400). -/
def programPage (s : State) : State :=
  match s.xsp.collect with
  | [] => s
  | (a, b) :: rest =>
    let s1 := flashDone s
    { s1 with xsp.busy := .program (a / s.xsp.page) ((a, b) :: rest), xsp.collect := [] }
/-- Entry to HOLD: gates, engines and encoder interfaces off, Foothill sampling on (03 Table 3.6, R52). A position
interface that was on keeps its latest position as a restored one (11 R243; log 15). -/
def enterHold (s : State) : State :=
  let was := s.pwr.base == .ready
  -- a program or erase of the flash is awaited first (19 Table 19.3)
  let s := flashDone (programPage s)
  -- the engine domains keep nothing; Cairn rewrites tables and state (15 Table 15.3)
  let s0 := { s with pwr.base := .hold, clk.woken := 0, conv.foothill := true, ridge.rga.file := [], ridge.rgb.file := [] }
  let s1 := onBoth (unpowerGates s0) (fun a => { a with seq.initPending := a.seq.host.isSome })
  let s2 := if was then onBoth s1 (fun a => { a with fb := { pos := a.fb.pos, restored := true } }) else s1
  let s3 := setOutputs (netPower (parD s Par.holdNet == 1 && netPlaced s) s2)
  -- without a powered gate domain SAFE follows the inputs alone (03 R57)
  let s4 := holdTables s3
  if stoHolds s4 then setSafe s4 else { s4 with pwr.safe := false }
/-- Parameters Summit holds across every reset but its own (03 R60). -/
def summitHeld (a : Nat) : Bool := decide (0x0102 ≤ a) && decide (a ≤ 0x0114)
/-- Keep of a leg what MRAM keeps: suspect mark and calibration (20 R426). -/
def keepLeg (l : LegSt) : LegSt := { cv := { suspect := l.cv.suspect, cal := l.cv.cal } }
/-- Keep of an axis what MRAM keeps: the bypass mask and its converters' marks (04 R82). -/
def keepAxis (a : AxisSt) : AxisSt := { legs := sixMap keepLeg a.legs, stage := { bypassMask := a.stage.bypassMask } }
/-- A stream lies in MRAM or in the external flash (14 Table 14.2). -/
def persistentStream (s : State) (n : Nat) : Bool :=
  match s.nv.place with
  | some p => p.streams.any (fun q => q.stream == n && q.dest != .sram)
  | none => false
/-- What a reset leaves of a stream: a volatile one is lost, a persistent one loses its open block (14 R302). -/
def keepStream (s : State) (n : Nat) (t : StreamSt) : StreamSt :=
  if persistentStream s n then
    { recs := t.recs.take (t.recs.length - t.openN) ++ List.replicate t.openN (0, []), base := t.base,
      lost := t.lost + BitVec.ofNat 32 t.openN, ticks := t.ticks }
  else {}
/-- Every domain but PD_SUM loses its contents; MRAM, fuses, flash, Summit and the clock of the model stay
(03 R48, R60; 21 R430). -/
def resetSys (s : State) : State :=
  { clk := { now := s.clk.now, idle := s.clk.idle, free := s.clk.free, xtal := s.clk.xtal }
    sum := s.sum
    pwr := { s.pwr with boot := none, firstReadyDone := false, noPlacement := false }
    sto := s.sto
    scarp := { raw := s.scarp.raw }
    axes := ⟨keepAxis s.axes.a, keepAxis s.axes.b⟩
    ridge := { rga := { failed := s.ridge.rga.failed }, rgb := { failed := s.ridge.rgb.failed } }
    bus := { vmA := s.bus.vmA, vmB := s.bus.vmB, testFailed := s.bus.testFailed, tickAt := s.clk.now }
    cairn := { streams := (s.cairn.streams.zipIdx).map (fun p => keepStream s p.2 p.1) }
    mbx := { lockOp := s.mbx.lockOp, lockInst := s.mbx.lockInst, lockMaker := s.mbx.lockMaker }
    xsp := { flash := s.xsp.flash, stagedValid := s.xsp.stagedValid }
    nv := s.nv
    otp := { fuse := s.otp.fuse, skipped := s.otp.skipped }
    par := s.par.filter (fun p => summitHeld p.1)
    inForce := s.inForce.filter (fun p => summitHeld p.1)
    pending := s.pending }
/-- Log entries that wait are written to the ring of 1,024 (12 R282). -/
def writeLog (s : State) : State :=
  let l := s.nv.log ++ s.flt.logPending
  { s with nv.log := l.drop (l.length - 1024), flt.logPending := [] }
/-- The commit of R48: log, positions, power state, active faults (03 Table 3.4). -/
def commitState (s : State) : State :=
  let s1 := writeLog s
  { s1 with nv.posA := some s.axes.a.fb.pos, nv.posB := some s.axes.b.fb.pos, nv.lastPwr := pwrState s, nv.lastFaults := s.flt.list,
            cairn.streams := s1.cairn.streams.map (fun t => { t with openN := 0 }) }
/-- Start a boot with its source (21 Table 21.1, R432). -/
def startBoot (s : State) (src : BitVec 8) : State :=
  let r := resetSys s
  { r with pwr := { r.pwr with base := if src = 6 then .standby else .off, safe := s.pwr.safe, boot := some src, bootAt := s.clk.now, resetSrc := src } }
/-- The bit of `eraseOpen` for a region of MRAM_ERASE: region 3 is the slot not running (17 MRAM_ERASE). -/
def eraseBit (s : State) (region : Nat) : BitVec 5 :=
  (bitW (if region = 3 ∧ !s.boot.slotB then 4 else region)).setWidth 5
/-- The slot that does not run fails its verification (03 Table 3.5). -/
def failOther (s : State) : State :=
  if s.boot.slotB then { s with nv.slotA.state := .failed } else { s with nv.slotB.state := .failed }
/-- A long operation is cut by the power-fail sequence; what it leaves is found and logged at the next boot
(03 Table 3.5). -/
def cutLong (s : State) : State :=
  match s.mbx.long with
  | none => s
  | some (op, _) =>
    let s1 := { s with nv.cut := some op, mbx.long := none }
    match op with
    | .fwInstall _ _ => failOther s1
    | .mramErase r =>
      let s2 := { s1 with nv.eraseOpen := s1.nv.eraseOpen ||| eraseBit s r.toNat }
      if r = 3 then failOther s2 else s2
    | .ident x => onAx s1 x motorOff
    | .angleOfs x => onAx s1 x motorOff
    | _ => s1
/-- STANDBY after the commit, or with nothing to commit (03 Table 3.4, R56). -/
def enterStandby (s : State) (viaPf : Bool) : State :=
  let r := resetSys s
  { r with pwr := { r.pwr with base := .standby, safe := stoHolds s },
           sum := { s.sum with wakeSrc := 0, pfStandby := viaPf, pfCommit := false, buck := false, out5.on := false, out3.on := false,
                               hswG := if viaPf then false else s.sum.hswG } }
/-- The power-fail sequence (03 R48, R58): gates, brakes and outputs off at once, chopper off, long operation cut, the
commit begun; a boot is abandoned without one. 0x5103 is held for the next boot (12 R280). -/
def powerFailSeq (s : State) (belowPf : Bool) : State :=
  let held : HeldCode := ⟨0x5103, 0, 0xFF⟩
  let hsw' := match s.sum.hsw with | .strapped => .strapped | .noFet => .noFet | .undeclared => .undeclared | _ => .outside
  let s0 := { s with sum := { s.sum with hswG := false, hsw := hsw', fellBelowPf := belowPf, held := s.sum.held ++ [held] } }
  if s.pwr.boot.isSome || s.pwr.base == .standby || (s.pwr.base == .off && s.boot.service == .none) then enterStandby s0 true
  else
    let s1 := cutLong s0
    let s2 := if s.boot.service == .none then latchSource s1 29 else s1
    let s3 := onBoth s2 (fun a => brakeOff (if a.start.ax = .disabled then gatesOff a else disableAxis a))
    { netOff s3 with
              sum := { s3.sum with pfCommit := true, commitOk := false, out5.on := false, out3.on := false },
              nv.pfOpen := true, flt.pulse := false, bus.chop := .off, can.on := false }
/-- A wake of STANDBY by a source: bit of WAKE_SRC, INFO 0x110B held for the log, boot with source 6 (03 R55). -/
def wakeBit : WakeSource → BitVec 8 | .wakePad => 1 | .csN => 2 | .vmReturn => 4
/-- A wake is recorded: its bit of WAKE_SRC and INFO 0x110B, held for the log (03 R55). -/
def noteWake (s : State) (bits : BitVec 8) : State :=
  { s with sum.wakeSrc := s.sum.wakeSrc ||| bits, sum.held := s.sum.held ++ [⟨0x110B, 0, 0xFF⟩] }
/-- VM as Summit knows it: with the controller absent input and VM are one node (03 R40). -/
def vmNow (s : State) : Nat := if s.sum.hsw == .strapped then s.sum.inMv else s.sum.vmMv
/-- The buck can run: VM at 12 V or above (03 R42). -/
def buckCan (s : State) : Bool := decide (12000 ≤ vmNow s)
/-- STANDBY wakes: the boot begins at once from what VM holds. After a power fail the MOSFETs stay off until their plug
sequence: a WAKE or HSP_CS_N wake boots from the DC link (DESIGN CHOICE, log 114: the spec gives the reconnection by the
VM-return wake only). -/
def wake (s : State) (bits : BitVec 8) : State :=
  startBoot { noteWake s bits with sum.wakeLatched := 0, sum.buck := true } 6
/-- A commanded reset: state committed, then the boot with source 5 (21 Table 21.1). -/
def commandedReset (s : State) : State := startBoot (commitState s) 5

/-! Completing a command. -/

/-- What follows a change of PWR_STATE, an AX_STATE or NL_STATE: bits 6 and 8 of INT_STATUS and event 0x8F03
(16 Table 16.5, 17 R362). -/
def settle (s s' : State) : State :=
  let moved := pwrState s != pwrState s' || s.axes.a.start.ax != s'.axes.a.start.ax || s.axes.b.start.ax != s'.axes.b.start.ax
  let nl := s.axes.a.pwm.nl != s'.axes.a.pwm.nl || s.axes.b.pwm.nl != s'.axes.b.pwm.nl
  let t := if nl && thoevoUp s' then { s' with hsp.intStatus := s'.hsp.intStatus ||| 0x0100 } else s'
  if moved && thoevoUp t then
    postEvent { t with hsp.intStatus := t.hsp.intStatus ||| 0x0040 } 2 0x8F03
      [pwrState t, axCode t.axes.a.start.ax, axCode t.axes.b.start.ax, 0]
  else t
/-- A reset that waits for the gates: the watchdog's (21 R431) and REBOOT's (21 R430). -/
def waitingReset (s : State) : State :=
  if anyRun s || s.sum.pfCommit then s
  else if s.sum.wdogWait then startBoot { s with sum.wdogWait := false } 4
  else match s.mbx.rebootAt with
    | some t => if t ≤ s.clk.now then commandedReset s else s
    | none => s
/-- Stage E2 is left once no axis is shorted or waits for its gates (12 Table 12.3). -/
def endE2 (s : State) : State := if s.bus.e2 && !anyRun s then { s with bus.e2 := false } else s
/-- The outcome of a command that took effect. -/
def done (s s' : State) : Out := .next (settle s (waitingReset (endE2 s')))
/-- A reset follows its reply by 1 ms (17 REBOOT). -/
def rebootLater (s : State) : State := { s with mbx.rebootAt := some (s.clk.now + 1000000) }
/-- Time passes on an empty queue: a free, unconstrained number of ns (log 4). A reset that waits for its instant or for the
gates acts when it has come. -/
def idle (s : State) : State :=
  settle s (waitingReset { s with clk.now := s.clk.now + Config.idleNs s.clk.idle, clk.idle := s.clk.idle + 1 })
/-- The outcome of an event whose precondition does not hold: nothing happens (log 16). -/
def skip (s : State) : Out := .next s
/-- A guarded effect. -/
def when_ (s : State) (c : Bool) (s' : State) : Out := if c then done s s' else skip s

end Sys2Proof.Machine
end

