-- ==== Sys2Proof/Machine/Bus.lean ====
section
/-!
DEFINITION. Bus monitor, chopper, escalation, fault log and FAULT_N pulses (chapter 12).
-/

namespace Sys2Proof.Machine
open Sys2Proof

/-- The chopper works: CHOP_EN, not faulty, not held off by Scarp, in HOLD, READY or RUN (12 R266, R270). -/
def chopReady (s : State) : Bool :=
  parD s Par.chopEn == 1 && !chopFaulty s && !scarpChop s && thoevoUp s && !s.sum.pfCommit
/-- OV1 − CHOP_HYST. -/
def ov1Low (s : State) : Rat := fval (parD s Par.ov1) - fval (parD s Par.chopHyst)
/-- VM_HI is at or below OV1 − CHOP_HYST. -/
def busLow (s : State) : Bool := decide (fval (vmHi s) ≤ ov1Low s)
/-- Command the chopper on (12 R266). -/
def chopOn (s : State) : State := { setChop .on s with bus.chopAt := s.clk.now, bus.onCount := s.bus.onCount + 1 }

/-- A new VM_HI result acts on the chopper, on E1 and on a waiting chopper test (12 R265, R266, R271, R273). -/
def busSample (s : State) : State :=
  let v := vmHi s
  let s1 := if s.bus.testWaits && vmTestable s then chopTested s s.boot.chopSeen else s
  let s2 := if s1.bus.chop == .off && chopReady s1 && fle (parD s1 Par.ov1) v then chopOn s1
    else if s1.bus.chop == .on && busLow s1 && decide (s1.bus.chopAt + usNs (parD s1 Par.chopMinOn) ≤ s1.clk.now) then
      setChop .off s1
    else s1
  let s3 := if busLow s2 then s2 else { s2 with bus.low10ms := false }
  if fle (parD s3 Par.ov2) v && !s3.flt.list.any (sameFault 0x3A05 0 noDetail) then
    raise { s3 with bus.e1 := true } 0x3A05 0 noDetail v true
  else s3

/-- CHOP_SEEN_TIMEOUT (R270): CHOP_SEEN_T after an on-command; three misses in a row make the chopper faulty. -/
def execChopSeenTimeout (seen : Bool) (s : State) : Out :=
  let n := s.bus.misses + 1
  when_ s (s.bus.chop == .on)
    (if seen then { s with bus.misses := 0 }
     else if 3 ≤ n then chopFault s 1
     else setChop .retryOff { s with bus.misses := n })

/-- CHOP_RETRY_EXPIRY (R270): on again if VM_HI still demands it. -/
def execChopRetryExpiry (s : State) : Out :=
  when_ s (s.bus.chop == .retryOff)
    (if chopReady s && !busLow s then chopOn s else setChop .off s)

/-- CHOP_SHORT_TIMEOUT (R270): current with the chopper off for 10 µs. -/
def execChopShortTimeout (s : State) : Out :=
  let s1 := raise1 (setRaw { s with bus.shortSeen := true, bus.e1 := true,
                                    bus.chopCause := some (s.bus.chopCause.getD 0) } 17 true) 0x5A03 0 noDetail
  let s2 := scarpFire (scarpFire s1 30 0) 31 0
  when_ s (parD s Par.chopEn == 1 && s.bus.chop == .off && thoevoUp s && !s.sum.pfCommit)
    (if s.sum.present then powerFailSeq s2 false else s2)

/-- The time of the tick that ends the running millisecond of the braking-load model (R269). -/
def loadTickAt (s : State) : Nat := max s.clk.now (s.bus.tickAt + 1000000)
/-- Fraction of the last 1 ms the chopper was on (R269). -/
def chopFraction (s : State) : Rat := mkRat (min (chopOnNs s (loadTickAt s)) 1000000) 1000000
/-- Braking load after a millisecond (R269). -/
def brakeLoad (s : State) : F32 :=
  let v := fval (vmHi s); let r := fval (parD s Par.brkR)
  let p := v * v / r * chopFraction s
  let pc := fval (parD s Par.brkPCont)
  let lim := if pc ≤ 64 * r then pc else 64 * r
  fThoevo (fval s.bus.load + (p / lim - fval s.bus.load) * mkRat 1 1000 / fval (parD s Par.brkTau))

/-- BRAKE_LOAD_TICK (R269): the warning stands from 0.8 on, the LIMIT from 1.0 until 0.9 (log 19). The tick ends the running
millisecond: the time is then at least 1 ms past the tick before. -/
def execBrakeLoadTick (s : State) : Out :=
  let x := brakeLoad s
  let warn := decide (mkRat 8 10 ≤ fval x)
  let s1 := { s with bus.load := x, bus.loadWarn := warn, bus.onNs := 0, bus.tickAt := loadTickAt s, clk.now := loadTickAt s }
  let s2 := if warn && !s.bus.loadWarn then raise s1 0x2A01 0 noDetail x false else s1
  when_ s (thoevoUp s)
    (if !s.bus.loadLimit && decide (1 ≤ fval x) then raise { s2 with bus.loadLimit := true } 0x3A03 0 noDetail x true
     else if s.bus.loadLimit && decide (fval x ≤ mkRat 9 10) then endCause { s2 with bus.loadLimit := false } 0x3A03 0 noDetail
     else s2)

/-- Active short is permitted on an axis (R274). -/
def shortAllowed (s : State) (x : Axis) : Bool :=
  let d := parX s x Par.ascIDecl
  d != 0 && fle d (getAx s x).stage.iPeak && !tripped s x &&
  !s.flt.list.any (fun e => e.code == 0x5209 && e.scope == scopeOf x)

/-- E2 on one axis: short or coast, with 0x4A04 naming which (R273). -/
def escalateAxis (s : State) (x : Axis) : State :=
  if !gatesOn (getAx s x) then s
  else if shortAllowed s x then
    raise1 (abandonMotor (onAx s x (fun a => { setAx .stopping a with start.stop := some .activeShort })) x) 0x4A04 (scopeOf x) 1
  else raise1 (requestStop s x .coast) 0x4A04 (scopeOf x) 2

/-- ESCALATION_TIMEOUT (R273): E1 in force and VM_HI at OV2 throughout ESC_T; with no axis switching nothing is
shorted (Table 12.4). -/
def execEscalationTimeout (s : State) : Out :=
  when_ s (s.bus.e1 && !s.bus.e2 && fle (parD s Par.ov2) (vmHi s) && anyRun s)
    (escalateAxis (escalateAxis { s with bus.e2 := true } .a) .b)

/-- E1_LEAVE_TIMEOUT (R273, R279): VM_HI at or below OV1 − CHOP_HYST for 10 ms. -/
def execE1LeaveTimeout (s : State) : Out :=
  let s1 := { s with bus.low10ms := true }
  when_ s (busLow s) (leaveE1 s1)

/-- ACTIVE_SHORT_END (R274): by current, or by time where ASC_I_DECL > √2 × PHASE_I_CONT; gates off at the next
boundary. -/
def execActiveShortEnd (x : Axis) (byTime : Bool) (s : State) : Out :=
  let a := getAx s x
  let d := fval (parX s x Par.ascIDecl); let i := fval a.stage.iCont
  when_ s (a.start.ax == .activeShort && a.pwm.shorted && (!byTime || decide (2 * i * i < d * d)))
    (onAx s x (fun a => { a with start.gateOffNext := true }))

/-- FAULT_LOG_WRITE (R282). -/
def execFaultLogWrite (s : State) : Out := when_ s (!s.flt.logPending.isEmpty && thoevoUp s) (writeLog s)

/-- FAULT_N_PULSE_EXPIRY (R281). -/
def execFaultNPulseExpiry (s : State) : Out := when_ s s.flt.pulse { s with flt.pulse := false }

/-- FAULT_N_BOOT_PULSE_DELAY (R281): 1 ms of release after boot. -/
def execFaultNBootPulseDelay (s : State) : Out :=
  when_ s (s.flt.bootPulse && s.pwr.boot.isNone && !faultNLevel s)
    { s with flt.bootPulse := false, flt.pulse := parD s Par.faultNPulse != 0 }

end Sys2Proof.Machine
end

