-- ==== Sys2Proof/Machine/RidgeOps.lean ====
section
/-!
DEFINITION. The op word, the 64 opcodes and the checks on segments (chapter 07, R147 to R152, R161, R173): an engine
steps through the op words of a segment over its state file.
-/

namespace Sys2Proof.Machine
open Sys2Proof

/-- An op word taken apart (R150, Table 7.1). -/
structure Op where
  opc : Nat
  d : Nat
  a : Nat
  b : Nat
  c : Nat
  np : Bool
  nc : Bool
  fsel : Nat
  aux : Nat
  imm : Word
deriving DecidableEq, Repr

/-- Fields of an op word (R150). -/
def opOf (w : BitVec 64) : Op :=
  { opc := (w >>> 58).toNat, d := (w >>> 48).toNat % 1024, a := (w >>> 38).toNat % 1024, b := (w >>> 28).toNat % 1024,
    c := (w >>> 18).toNat % 1024, np := w.getLsbD 17, nc := w.getLsbD 16, fsel := (w >>> 12).toNat % 16,
    aux := w.toNat % 4096, imm := (w >>> 16).setWidth 32 }

/-- END (Table 7.2). -/
def opEnd : Nat := 0x3F

/-- How an op uses its fields: words from D, A, B and C (0: unused), D read as well, the sign bits, FSEL, AUX, latency
and whether a user segment may hold it (R151, Table 7.2). -/
structure Shape where
  dn : Nat := 1
  an : Nat := 0
  bn : Nat := 0
  cn : Nat := 0
  dRead : Bool := false
  np : Bool := false
  nc : Bool := false
  fsel : Bool := false
  aux : Bool := false
  lat : Nat := 1
  user : Bool := true
deriving DecidableEq, Repr

/-- Table 7.2 by opcode; multi-word extents of INTERP, INTXY and RDCB come from AUX and C. -/
def shapeOf (o : Op) : Shape :=
  match o.opc with
  | 0x00 => { dn := 0 }
  | 0x01 => { an := 1 }
  | 0x02 => {}
  | 0x03 => { an := 1, bn := 1, np := true, nc := true, lat := 4 }
  | 0x04 => { an := 1, bn := 1, np := true, nc := true, lat := 4 }
  | 0x05 => { an := 1, bn := 1, np := true, lat := 4 }
  | 0x06 => { an := 1, bn := 1, cn := 1, np := true, nc := true, lat := 4 }
  | 0x07 => { an := 2, bn := 2, np := true, nc := true, lat := 5 }
  | 0x08 => { an := 1 }
  | 0x09 => { an := 1 }
  | 0x0A => { an := 1, lat := 4 }
  | 0x0B => { an := 1, aux := true }
  | 0x0C => { an := 1, lat := 8 }
  | 0x0D => { an := 1, lat := 8 }
  | 0x0E => { an := 1, lat := 8 }
  | 0x0F => { an := 1, bn := 1, lat := 12 }
  | 0x10 => { an := 1, bn := 1 }
  | 0x11 => { an := 1, bn := 1 }
  | 0x12 => { an := 1, bn := 1, cn := 1, lat := 2 }
  | 0x13 => { an := 1, bn := 1, lat := 2 }
  | 0x14 => { dn := 2, an := 2, bn := 1, lat := 12 }
  | 0x15 => { an := 1, bn := 1, lat := 4 }
  | 0x16 => { an := 1, bn := 1, cn := 1, lat := 5 }
  | 0x17 => { an := 1, bn := 1 }
  | 0x18 => { an := 1, bn := 1, fsel := true }
  | 0x19 => { an := 1, fsel := true }
  | 0x1A => { an := 1, bn := 1 }
  | 0x1B => { an := 1, bn := 1 }
  | 0x1C => { an := 1, bn := 1 }
  | 0x1D => { an := 1, bn := 1, cn := 1, lat := 5 }
  | 0x1E => { dn := 0, an := 1, aux := true, user := false }
  | 0x1F => { dn := 2, an := 2, bn := 2, fsel := true }
  | 0x20 => { dn := 2, an := 1, lat := 16 }
  | 0x21 => { an := 1, bn := 1, lat := 16 }
  | 0x22 => { an := 1, bn := 1, lat := 12 }
  | 0x23 => { dn := 2, an := 2, lat := 18 }
  | 0x24 => { dn := 2, an := 2, bn := 1, lat := 6 }
  | 0x25 => { dn := 2, an := 2, bn := 1, lat := 6 }
  | 0x26 => { an := 1, lat := 4 }
  | 0x27 => { an := 1, bn := 1, lat := 14 }
  | 0x28 => { dn := 2, an := 3, lat := 5 }
  | 0x29 => { dn := 3, an := 2, lat := 5 }
  | 0x2A => { dn := 3, an := 3, bn := 1, lat := 8 }
  | 0x2B => { an := 1, bn := o.aux, cn := 2, aux := true, lat := 8 }
  | 0x2C => { an := 1, bn := 2 * o.aux, aux := true, lat := 10 }
  | 0x2D => { an := 1, bn := 1, dRead := true, lat := 5 }
  | 0x2E => { an := 1, bn := 5, cn := 2, lat := 12 }
  | 0x2F => { an := 1, bn := 1, cn := 1, dRead := true, lat := 6 }
  | 0x30 => { an := 1, lat := 2 }
  | 0x31 => { an := 1, lat := 2 }
  | 0x32 => { an := 1, lat := 2 }
  | 0x33 => { an := 1, lat := 2 }
  | 0x34 => { an := 1, lat := 3 }
  | 0x35 => { an := 1, lat := 3 }
  | 0x36 => { an := 1, bn := 1, lat := 3 }
  | 0x37 => { an := 2, bn := 2, lat := 4 }
  | 0x38 => { aux := true, lat := 2, user := false }
  | 0x39 => { dn := o.c, aux := true, lat := 2, user := false }
  | 0x3A => { aux := true, lat := 2, user := false }
  | 0x3B => { aux := true, lat := 2, user := false }
  | 0x3C => { dn := 0, an := 1, aux := true, user := false }
  | 0x3D => { dn := 0, an := 6, aux := true, user := false }
  | 0x3E => { aux := true, lat := 2, user := false }
  | _ => { dn := 0 }

/-! Results of single ops. -/

/-- The exact angle of a position difference of 2^-32 turns. -/
def turnsRad (n : Int) : F32 := frnd ((n : Rat) * (2 * piR) / 4294967296)
/-- Nearest integer of a word, saturated to a range; NaN is 0 (R149). -/
def satInt (x : F32) (lo hi : Int) : Int :=
  match toExt x with
  | .nan => 0
  | .inf n => if n then lo else hi
  | .fin q _ => max lo (min hi (roundEven q))
/-- u32 fraction of an angle; 0 for NaN and infinities (R149). -/
def fracOf (x : F32) : Word :=
  match toExt x with
  | .fin q _ => BitVec.ofNat 32 ((roundEven (ratMod q (2 * piR) / (2 * piR) * 4294967296)).toNat % 4294967296)
  | _ => 0
/-- A result with an absolute accuracy bound (R149): the engine's own where it lies within the bound of the exact value, else
that value rounded (log 12). -/
def near (exact err : Rat) (r : F32) : F32 :=
  if ffinite r && decide (exact - err ≤ fval r) && decide (fval r ≤ exact + err) then r else frnd exact
/-- The bound of SINCOS, 2^-22. -/
def eps22 : Rat := mkRat 1 4194304
/-- sin and cos of an angle; both NaN beyond 2^16 rad or for a NaN (Table 7.2). -/
def sinOf (x : F32) : F32 := if fle (fabs x) 0x47800000 then near (sinR (fval x)) eps22 (Config.sin x) else fnan
/-- cos. -/
def cosOf (x : F32) : F32 := if fle (fabs x) 0x47800000 then near (cosR (fval x)) eps22 (Config.cos x) else fnan
/-- The exact angle of (x, y), signs of zeros and infinities as IEEE 754 has them. -/
def angleR (y x : F32) : Rat :=
  let up : Rat := if fisInf y then (if fisInf x then (if fneg? x then piR * 3 / 4 else piR / 4) else piR / 2)
    else if fisInf x then (if fneg? x then piR else 0)
    else if fisZero y then (if fneg? x then piR else 0)
    else angleUp (fval (fabs y)) (fval x)
  if fneg? y then -up else up
/-- atan2 (y, x) to 2^-21 rad; 0 at the origin. -/
def atan2Of (y x : F32) : F32 :=
  if fisNan y || fisNan x then fnan else if fisZero y && fisZero x then 0
  else near (angleR y x) (2 * eps22) (Config.atan2 y x)
/-- One word of ROT or IROT (R149): within 2^-22 of |(a, a+1)| and 1 ulp of its formula; IEEE rules with an infinity. Beyond
the 2^16 rad of SINCOS the angle's own digits end, and only the magnitude bounds the word. -/
def rotOf (inv second : Bool) (a a1 b : F32) : F32 :=
  if fisNan a || fisNan a1 || fisNan b || fisInf b then fnan
  else
    let c := cosR (fval b); let s := sinR (fval b)
    let sn := if inv == second then -s else s
    let k := if second then (sn, c) else (c, sn)
    if fisInf a || fisInf a1 then fromExt (((toExt a).mul (Ext.c k.1)).add ((toExt a1).mul (Ext.c k.2)))
    else
      let v := fval a * k.1 + fval a1 * k.2
      let m := fval (fsqrtRat (fval a * fval a + fval a1 * fval a1))
      let r := Config.rot inv second a a1 b
      if fle (fabs b) 0x47800000 then near v (m * eps22 + (let u := frnd v; if fisZero u then 0 else fval (fabs (fsub (fstep u 1) u)))) r
      else near 0 m r
/-- A word of SAT2, exact: x × min(1, b / |(a, a+1)|). -/
def sat2R (x a a1 b : F32) : Ext :=
  let p := fval a * fval a + fval a1 * fval a1
  if !ffinite a || !ffinite a1 || !ffinite b || p = 0 then
    (toExt x).mul ((Ext.c 1).min ((toExt b).div (toExt (fmag a a1))))
  else if 0 ≤ fval b ∧ p ≤ fval b * fval b then toExt x
  else
    let m := fval (fsqrtRat (fval x * fval x * fval b * fval b / p))
    Ext.c (if (fval x < 0) = (fval b < 0) then m else -m)

/-- Sum of terms of a formula, rounded once. -/
def sumOf (ts : List Ext) : F32 := fromExt (match ts with | [] => .c 0 | t :: ts => ts.foldl Ext.add t)

/-- INTERP: n points from `tb`, x0 and 1/Δx. -/
def interpOf (x x0 k : F32) (n : Nat) (tb : Nat → Word) : F32 :=
  match ((toExt x).sub (toExt x0)).mul (toExt k) with
  | .nan => fnan
  | .inf neg => if neg then fflush (tb 0) else fflush (tb (n - 1))
  | .fin q _ =>
    if q ≤ 0 then fflush (tb 0)
    else if ((n - 1 : Nat) : Rat) ≤ q then fflush (tb (n - 1))
    else
      let i := q.floor.toNat
      let y0 := toExt (tb i); let y1 := toExt (tb (i + 1))
      fromExt (y0.add ((Ext.c (q - q.floor)).mul (y1.sub y0)))
/-- INTXY on the pairs from `tb`: the first interval whose upper x is at or above a. -/
def intxyGo (x : F32) (tb : Nat → Word) : Nat → Nat → F32
  | 0, i => fflush (tb (2 * i + 1))
  | fuel + 1, i =>
    -- interval from pair i to pair i + 1
    if fle x (tb (2 * i + 2)) then
      let x0 := toExt (tb (2 * i)); let y0 := toExt (tb (2 * i + 1))
      let x1 := toExt (tb (2 * i + 2)); let y1 := toExt (tb (2 * i + 3))
      fromExt (y0.add ((((toExt x).sub x0).mul (y1.sub y0)).div (x1.sub x0)))
    else intxyGo x tb fuel (i + 1)
/-- INTXY (Table 7.2): n pairs, clamped at the ends. -/
def intxyOf (x : F32) (n : Nat) (tb : Nat → Word) : F32 :=
  if fisNan x then fnan
  else if flt x (tb 0) then fflush (tb 1)
  else intxyGo x tb (n - 1) 0

/-- What a segment reads from outside the state file: its flags (R158) and the port words frozen at the boundary
(R152, R153). -/
structure OpEnv where
  flag : Nat → Bool
  port : Nat → Word

/-- What running ops leaves: state file, NaN flag, events posted, telemetry words written, duty set sent, END seen. -/
structure OpRun where
  file : List (Nat × Word)
  nan : Bool := false
  posts : List (BitVec 8 × Word) := []
  tele : List (Nat × Word) := []
  duty : Option (List F32) := none
  ended : Bool := false
deriving DecidableEq, Repr

/-- Result words of an op with their addresses (R149, R151, Table 7.2); `f` reads the state file. -/
def opWrites (env : OpEnv) (o : Op) (f : Nat → Word) : List (Nat × Word) :=
  let a := f o.a; let a1 := f (o.a + 1); let a2 := f (o.a + 2)
  let b := f o.b; let b1 := f (o.b + 1); let c := f o.c; let d := f o.d
  let ea := toExt a; let ea1 := toExt a1; let eb := toExt b; let eb1 := toExt b1; let ec := toExt c; let ed := toExt d
  let one := fun (v : Word) => [(o.d, v)]
  let num := fun (e : Ext) => [(o.d, fromExt e)]
  let F := env.flag o.fsel
  let half := Ext.c (mkRat 1 2)
  match o.opc with
  | 0x01 => one a
  | 0x02 => one o.imm
  | 0x03 => num ((ea.negIf o.np).add (eb.negIf o.nc))
  | 0x04 => num ((ea.negIf o.np).sub (eb.negIf o.nc))
  | 0x05 => num ((ea.mul eb).negIf o.np)
  | 0x06 => num (((ea.mul eb).negIf o.np).add (ec.negIf o.nc))
  | 0x07 => num (((ea.mul eb).negIf o.np).add ((ea1.mul eb1).negIf o.nc))
  | 0x08 => num ea.abs
  | 0x09 => num ea.neg
  | 0x0A => num (ea.mul ea)
  | 0x0B =>
    let k : Int := if 32 ≤ o.aux % 64 then (o.aux % 64 : Nat) - 64 else (o.aux % 64 : Nat)
    num (ea.mul (Ext.c (if 0 ≤ k then ((2 ^ k.toNat : Nat) : Rat) else mkRat 1 (2 ^ (-k).toNat))))
  | 0x0C => one (frcp a)
  | 0x0D => one (match ea with
      | .nan => fnan
      | .inf n => if n then fnan else 0
      | .fin q n => if q = 0 then finf n else if q < 0 then fnan else fbounded 0x0D 1 a 0 (fsqrtRat (1 / q)))
  | 0x0E => one (fsqrt a)
  | 0x0F => one (fdiv a b)
  | 0x10 => num (ea.min eb)
  | 0x11 => num (ea.max eb)
  | 0x12 => num (ea.clamp eb ec)
  | 0x13 => num (ea.clamp eb.abs.neg eb.abs)
  | 0x14 =>
    let w := fun (x : F32) => fbounded 0x14 2 x b (fromExt (sat2R (fflush x) (fflush a) (fflush a1) (fflush b)))
    if fisNan a || fisNan a1 || fisNan b then [(o.d, fnan), (o.d + 1, fnan)] else [(o.d, w a), (o.d + 1, w a1)]
  | 0x15 =>
    if fisNan a || fisNan b then one fnan
    else if eb.lt ea.abs then num (if a.getLsbD 31 then ea.add eb else ea.sub eb) else one 0
  | 0x16 => num (ec.add ((ea.sub ec).clamp eb.neg eb))
  | 0x17 => one (if ffinite a then a else b)
  | 0x18 => one (if F then a else b)
  | 0x19 => one (if F then a else 0)
  | 0x1A => one (if eb.lt ea then f1 else 0)
  | 0x1B => one (if !fisNan a && !fisNan b && !ea.lt eb then f1 else 0)
  | 0x1C => one (if !fisNan a && !fisNan b && !ea.lt eb && !eb.lt ea then f1 else 0)
  | 0x1D => num (ea.add (ec.mul (eb.sub ea)))
  | 0x1F => if F then [(o.d, a), (o.d + 1, a1)] else [(o.d, b), (o.d + 1, b1)]
  | 0x20 => [(o.d, sinOf (fflush a)), (o.d + 1, cosOf (fflush a))]
  | 0x21 => one (atan2Of (fflush a) (fflush b))
  | 0x22 => one (fmag a b)
  | 0x23 => [(o.d, fmag a a1), (o.d + 1, atan2Of (fflush a1) (fflush a))]
  | 0x24 => [(o.d, rotOf false false (fflush a) (fflush a1) (fflush b)), (o.d + 1, rotOf false true (fflush a) (fflush a1) (fflush b))]
  | 0x25 => [(o.d, rotOf true false (fflush a) (fflush a1) (fflush b)), (o.d + 1, rotOf true true (fflush a) (fflush a1) (fflush b))]
  | 0x26 => one (fwrap a)
  | 0x27 => one (match ea, eb with
      | .fin p n, .fin q _ => if q = 0 then fnan else fromExt (let r := p - q * (p / q).floor; .fin r (if r = 0 then n && decide (q < 0) else decide (r < 0)))
      | _, _ => fnan)
  | 0x28 =>
    let e2 := toExt a2
    [(o.d, fromExt ((((Ext.c 2).mul ea).sub ea1).sub e2 |>.div (Ext.c 3))), (o.d + 1, fromExt ((ea1.sub e2).div (Ext.c sqrt3R)))]
  | 0x29 =>
    let h := (ea.neg).mul half; let k := (Ext.c (sqrt3R / 2)).mul ea1
    [(o.d, fromExt ea), (o.d + 1, fromExt (h.add k)), (o.d + 2, fromExt (h.sub k))]
  | 0x2A =>
    let e2 := toExt a2
    let mid := ((ea.max (ea1.max e2)).add (ea.min (ea1.min e2))).mul half
    let w := fun (x : Ext) => fromExt (half.add ((x.sub mid).mul eb))
    [(o.d, w ea), (o.d + 1, w ea1), (o.d + 2, w e2)]
  | 0x2B => one (interpOf a c (f (o.c + 1)) o.aux (fun k => f (o.b + k)))
  | 0x2C => one (intxyOf a o.aux (fun k => f (o.b + k)))
  | 0x2D => num (ed.add (eb.mul (ea.sub ed)))
  | 0x2E =>
    let e := fun (k : Nat) => toExt (f (o.b + k))
    let y := fromExt (((e 0).mul ea).add ec)
    let ey := toExt y
    [(o.d, y), (o.c, fromExt ((((e 1).mul ea).sub ((e 3).mul ey)).add (toExt (f (o.c + 1))))),
     (o.c + 1, fromExt (((e 2).mul ea).sub ((e 4).mul ey)))]
  | 0x2F => num ((ed.add (ea.mul eb)).clamp ec.abs.neg ec.abs)
  | 0x30 => one (fofInt a.toInt)
  | 0x31 => one (fofInt a.toNat)
  | 0x32 => one (BitVec.ofInt 32 (satInt a (-2147483648) 2147483647))
  | 0x33 => one (BitVec.ofInt 32 (satInt a 0 4294967295))
  | 0x34 => one (turnsRad a.toNat)
  | 0x35 => one (fracOf a)
  | 0x36 => one (turnsRad (a - b).toInt)
  | 0x37 => one (turnsRad ((a1.toInt - b1.toInt) * 4294967296 + (a.toNat : Int) - (b.toNat : Int)))
  | 0x38 => one (env.port o.aux)
  | 0x39 => (List.range o.c).map (fun k => (o.d + k, env.port (o.aux + k)))
  | 0x3A => one (env.port o.aux)
  | 0x3B => one (env.port o.aux)
  | 0x3E => one (env.port o.aux)
  | _ => []

/-- Operand words an op reads, for the NaN flag (R149). -/
def opReads (o : Op) (f : Nat → Word) : List Word :=
  let s := shapeOf o
  let run := fun (a n : Nat) => (List.range n).map (fun k => f (a + k))
  run o.a s.an ++ run o.b s.bn ++ run o.c s.cn ++ (if s.dRead then [f o.d] else [])

/-- Ops whose result is computed as a float: the others move a word as it is or give an integer (Table 7.2). -/
def floatOp (o : Op) : Bool :=
  !([0x01, 0x02, 0x1F, 0x32, 0x33, 0x35, 0x38, 0x39, 0x3A, 0x3B, 0x3E].contains o.opc)
/-- One op (R147, R149, R151). -/
def opStep (env : OpEnv) (r : OpRun) (w : BitVec 64) : OpRun :=
  if r.ended then r
  else
    let o := opOf w
    let f := mapRead 0 r.file
    let out := opWrites env o f
    let fresh := floatOp o && out.any (fun p => fisNan p.2) && !(opReads o f).any fisNan
    let r1 := { r with file := out.foldl (fun m p => mapWrite 0 m p.1 p.2) r.file, nan := r.nan || fresh }
    if o.opc = 0x1E then { r1 with posts := r.posts ++ [(BitVec.ofNat 8 o.aux, f o.a)] }
    else if o.opc = 0x3C then { r1 with tele := r.tele ++ [(o.aux, f o.a)] }
    else if o.opc = 0x3D then { r1 with duty := some ((List.range 6).map (fun k => f (o.a + k))) }
    else if o.opc = opEnd then { r1 with ended := true }
    else r1
/-- A segment from its first op to END. -/
def runSeg (env : OpEnv) (r : OpRun) (ops : List (BitVec 64)) : OpRun :=
  { ops.foldl (opStep env) { r with ended := false } with ended := false }

/-- Words an op reads and writes, for the interlock of R147: BIQ writes its two states too. -/
def opTouches (o : Op) : List Nat × List Nat :=
  let s := shapeOf o
  let run := fun (a n : Nat) => (List.range n).map (a + ·)
  let cs := if o.opc = 0x39 then [] else run o.c s.cn
  (run o.a s.an ++ run o.b s.bn ++ cs ++ (if s.dRead then [o.d] else []),
   run o.d s.dn ++ (if o.opc = 0x2E then run o.c 2 else []))
/-- Cycles of a segment, stalls included (R147): issue cycle so far and the ready cycle of written words. The words an RDCB
writes are all ready L cycles after its issue: DESIGN CHOICE (log 124), the rule gives the op one latency and C issue
cycles. -/
def segGo : List (BitVec 64) → Nat → List (Nat × Nat) → Nat
  | [], t, _ => t
  | w :: ws, t, ready =>
    let o := opOf w
    let p := opTouches o
    let go := (p.1 ++ p.2).foldl (fun m k => max m ((mapGet ready k).getD 0)) t
    let n := if o.opc = 0x39 then max o.c 1 else 1
    let ready' := p.2.foldl (fun m k => mapPut m k (go + (shapeOf o).lat)) ready
    segGo ws (go + n) ready'
/-- Cycle count of a segment, which depends on its ops alone (R147). -/
def segCycles (ops : List (BitVec 64)) : Nat := segGo ops 0 []

/-! Checks on tables (R161). -/

/-- Reserved and unused fields are zero, and AUX and C lie in the op's range (R150, R161; Table 7.10 reason 3). -/
def opFieldsOk (w : BitVec 64) : Bool :=
  let o := opOf w
  if o.opc = 0x02 then w.toNat % 65536 == 0
  else
    let s := shapeOf o
    (s.dn != 0 || o.opc == 0x39 || o.d == 0) && (s.an != 0 || o.a == 0) && (s.bn != 0 || o.opc == 0x2B || o.opc == 0x2C || o.b == 0) &&
    (s.cn != 0 || o.opc == 0x39 || o.c == 0) && (s.np || !o.np) && (s.nc || !o.nc) && (s.fsel || o.fsel == 0) &&
    (s.aux || o.aux == 0) &&
    (o.opc != 0x0B || o.aux < 64) && (o.opc != 0x2B || (2 ≤ o.aux && o.aux ≤ 64)) &&
    (o.opc != 0x2C || (2 ≤ o.aux && o.aux ≤ 16)) && (o.opc != 0x39 || (1 ≤ o.c && o.c ≤ 16)) &&
    (o.opc != 0x1E || o.aux < 256)

/-- Address range with an axis half: base, words per axis. -/
def portHalf (base n : Nat) (x : Axis) (p : Nat) : Bool := base + axisNo x * n ≤ p && p < base + (axisNo x + 1) * n
/-- A port address is valid for the op class and the segment's axis (R152, Table 7.3). -/
def portOk (x : Axis) (opc p : Nat) : Bool :=
  if opc = 0x38 ∨ opc = 0x39 then portHalf 0 0x60 x p || portHalf 0xC0 0x60 x p || (0x180 ≤ p && p ≤ 0x1FF)
  else if opc = 0x3A then portHalf 0x200 0x20 x p
  else if opc = 0x3B then portHalf 0x240 0x20 x p
  else if opc = 0x3D then p == 0x280 + axisNo x * 8
  else if opc = 0x3E then portHalf 0x300 0x80 x p
  else if opc = 0x3C then portHalf 0x500 0x80 x p
  else true
/-- Every port an op reaches is valid; RDCB reaches C of them. -/
def opPortOk (x : Axis) (o : Op) : Bool :=
  if o.opc = 0x39 then (List.range o.c).all (fun k => portOk x o.opc (o.aux + k)) else portOk x o.opc o.aux
/-- Every state address of an op lies in the axis's block (R148, R161). -/
def opBlockOk (x : Axis) (o : Op) : Bool :=
  let p := opTouches o
  (p.1 ++ p.2).all (fun k => k / 512 == axisNo x)

/-- A directory entry taken apart (Table 7.4). -/
structure DirEntry where
  axis : Nat
  mode : Nat
  rate : Nat
  start : Nat
  len : Nat
  cyc : Nat
  resv : Bool
deriving DecidableEq, Repr
/-- Fields of a directory entry; `resv` when a reserved field is nonzero. -/
def dirOf (w : BitVec 64) : DirEntry :=
  { axis := (w >>> 62).toNat, mode := (w >>> 59).toNat % 8, rate := (w >>> 57).toNat % 4, start := (w >>> 44).toNat % 4096,
    len := (w >>> 32).toNat % 4096, cyc := (w >>> 16).toNat % 65536, resv := w.getLsbD 56 || w.toNat % 65536 != 0 }
/-- The words of one entry's segment. -/
def segOps (img : BankImage) (d : DirEntry) : List (BitVec 64) := (img.ops.drop d.start).take d.len
/-- One used entry passes the checks of R161. -/
def dirOk (img : BankImage) (d : DirEntry) : Bool :=
  let ops := segOps img d
  let x := axisOf d.axis
  d.axis < 2 && d.mode < 5 && d.rate < 3 && !d.resv && d.start + d.len ≤ 4096 && ops.length == d.len &&
  ops.all opFieldsOk && ops.all (fun w => opPortOk x (opOf w) && opBlockOk x (opOf w)) &&
  (ops.filter (fun w => (opOf w).opc == opEnd)).length == 1 && (ops.getLast?.map (fun w => (opOf w).opc == opEnd)).getD false
/-- Used directory entries. -/
def dirUsed (img : BankImage) : List DirEntry := (img.dir.map dirOf).filter (fun d => d.len != 0)
/-- The part of a chain: the segment of an axis, mode and rate, where the directory holds one (R157). -/
def partOf (img : BankImage) (x : Axis) (mode rate : Nat) : Option DirEntry :=
  (dirUsed img).find? (fun d => d.axis == axisNo x && d.mode == mode && d.rate == rate)
/-- The 8 check bits of every op word and directory entry of a bank, generated at write (R156). -/
def checkBits (img : BankImage) : List (BitVec 8) := (img.ops ++ img.dir).map Config.secded
/-- The active bank of an engine. -/
def activeBank (s : State) (e : Engine) : BankImage := let g := getEng s e; if g.active then g.bank1 else g.bank0
/-- A hosted axis has a current part in all five modes. -/
def fiveModes (img : BankImage) (x : Axis) : Bool :=
  (List.range 5).all (fun m => (dirUsed img).any (fun d => d.axis == axisNo x && d.mode == m && d.rate == 0))
/-- CRC-32 of a bank's op words and directory (R161). -/
def bankCrc (img : BankImage) : Word := crc32 ((img.ops ++ img.dir).flatMap (fun w => leBytes 8 w.toNat))
/-- Init entries of an axis. -/
def initOf (img : BankImage) (x : Axis) : List (Bool × Nat × Word) := img.init.filter (fun p => p.1 == (x == .b))
/-- The checks of an armed bank (R161): every op word keeps its reserved and unused fields zero, every unused directory entry
all of them; at most 256 init entries an axis (R163). -/
def bankOk (img : BankImage) : Bool :=
  img.ops.length ≤ 4096 && img.dir.length ≤ 32 && img.crc == bankCrc img && img.ops.all opFieldsOk &&
  img.dir.all (fun w => (dirOf w).len != 0 || w == 0) && (dirUsed img).all (dirOk img) &&
  (initOf img .a).length ≤ 256 && (initOf img .b).length ≤ 256 &&
  (!img.hostA || fiveModes img .a) && (!img.hostB || fiveModes img .b)

/-! User segments (R171 to R173). -/

/-- Interface words readable and writable at a hook 0 to 3 (Table 7.9). -/
def hookReads (hook : Nat) : List Nat :=
  let all := [0x204, 0x207, 0x208, 0x209, 0x20A]
  match hook with
  | 0 => 0x200 :: all
  | 1 => 0x202 :: 0x205 :: all
  | 2 => [0x201, 0x202, 0x203, 0x205] ++ all
  | _ => [0x203, 0x205, 0x206] ++ all
/-- The one interface word a hook may write (Table 7.9). -/
def hookWord (hook : Nat) : Nat := match hook with | 0 => 0x200 | 1 => 0x202 | 2 => 0x201 | _ => 0x206
/-- A user address exists. -/
def userAddr (k : Nat) : Bool := k < 0x80 || (0x200 ≤ k && k ≤ 0x20A)
/-- First failing reason 2 to 6 of one op; `last` when it is the last op (Table 7.10). -/
def userOpReason (hook : Nat) (last : Bool) (w : BitVec 64) : Option Nat :=
  let o := opOf w
  let p := opTouches o
  if !(shapeOf o).user then some 2
  else if !opFieldsOk w then some 3
  else if !(p.1 ++ p.2).all userAddr then some 4
  else if !(p.2.all (fun k => k < 0x80 || k == hookWord hook) && p.1.all (fun k => k < 0x80 || (hookReads hook).contains k)) then some 5
  else if o.opc = opEnd ∧ !last then some 6
  else none
/-- The ops in ascending index: the first failure with its index. -/
def userOpsGo (hook n : Nat) : Nat → List (BitVec 64) → Option (Nat × Nat)
  | _, [] => none
  | i, w :: ws => match userOpReason hook (i + 1 == n) w with
    | some r => some (r, i)
    | none => userOpsGo hook n (i + 1) ws
/-- The whole check order of R173 for a load: reason and op index, none when it passes. `others` are the stored
segments of the axis but the one replaced, `rest` those of the other axis. -/
def userCheck (hook : Nat) (ops : List (BitVec 64)) (init : List (Nat × Word)) (others rest : List UserSeg) : Option (Nat × Nat) :=
  let total := others.foldl (fun n g => n + g.ops.length) ops.length
  let all := init ++ others.flatMap (·.init)
  let bytes := fun (g : List (BitVec 64)) (i : List (Nat × Word)) => 8 * g.length + 6 * i.length
  let area := (others ++ rest).foldl (fun n g => n + bytes g.ops g.init) (bytes ops init)
  if ops.isEmpty ∨ 512 < total then some (1, 0xFFF)
  else match userOpsGo hook ops.length 0 ops with
    | some r => some r
    | none =>
      if !(ops.getLast?.map (fun w => (opOf w).opc == opEnd)).getD false then some (6, ops.length - 1)
      else if 128 < init.length ∨ init.any (fun p => 0x80 ≤ p.1) ∨
          init.any (fun p => all.any (fun q => q.1 == p.1 && q.2 != p.2)) then some (7, 0xFFF)
      else if 12288 < area then some (8, 0xFFF)
      else none

end Sys2Proof.Machine
end

