-- ==== Sys2Proof/Machine/Crest.lean ====
section
/-!
DEFINITION. The Crest observer as the current part runs it (chapter 09, R198 to R216) and the rows of convergence, loss
and clamps. Formulas are evaluated exactly and rounded at each named quantity (log 22).
-/

namespace Sys2Proof.Machine
open Sys2Proof

/-- Round a named quantity. -/
abbrev rd (q : Rat) : F32 := frnd q
/-- An αβ or dq pair, exact. -/
structure Vec where
  x : Rat
  y : Rat
deriving DecidableEq, Repr
/-- Rotate by an angle whose sin and cos the engine computes (07 R149): forward by +angle. -/
def vrot (v : Vec) (th : F32) : Vec :=
  let c := fval (cosOf th); let s := fval (sinOf th)
  ⟨v.x * c - v.y * s, v.x * s + v.y * c⟩
/-- Rotate by −angle. -/
def virot (v : Vec) (th : F32) : Vec := vrot v (fneg th)
/-- CLARKE (07 Table 7.2). -/
def vclarke (u v w : Rat) : Vec := ⟨(2 * u - v - w) / 3, (v - w) / sqrt3R⟩
/-- Magnitude, rounded. -/
def vmag (v : Vec) : F32 := fsqrtRat (v.x * v.x + v.y * v.y)
/-- Wrap an angle into [−π, π). -/
def wrapR (q : Rat) : F32 := fwrap (rd q)

/-- Pole pairs. -/
def polePairs (s : State) (x : Axis) : Rat := ((parX s x Par.motPolePairs).toNat : Rat)
/-- Terminal L_d in H (R198). -/
def termLd (s : State) (x : Axis) : Rat :=
  (fval (parX s x Par.motLd) + (if dualStar s x then 0 else fval (parX s x Par.phaseLsig) / 2)) / 1000000
/-- Terminal L_q in H (R198). -/
def termLq (s : State) (x : Axis) : Rat :=
  (fval (parX s x Par.motLq) + (if dualStar s x then 0 else fval (parX s x Par.phaseLsig) / 2)) / 1000000
/-- Half the winding scale of a dropped star (R215): L × Ls / (Ls + M). -/
def starScale (s : State) (x : Axis) : Rat :=
  if dualStar s x ∧ (getAx s x).stage.bypassMask ≠ 0 then
    let l := fval (parX s x Par.motLs); let m := fval (parX s x Par.motM)
    l / (l + m)
  else 1
/-- Stored terminal ratio (R198). -/
def termRatio (ld lq : Rat) : Rat := if ld = 0 ∨ lq = 0 then 0 else if lq < ld then ld / lq else lq / ld
/-- Observer mechanical speed. -/
def crestWm (s : State) (x : Axis) : Rat := fval (getAx s x).crest.we / polePairs s x
/-- Rated speed. -/
def wRated (s : State) (x : Axis) : Rat := fval (parX s x Par.motWRated)
/-- |ω̂_m| as a fraction of rated speed. -/
def wFrac (s : State) (x : Axis) : Rat := let w := crestWm s x / wRated s x; if w < 0 then -w else w
/-- Profile delay and spacing in whole ticks, a half tick up (06 R122). -/
def profD (s : State) (x : Axis) : Nat := nsTicks (parX s x Par.profDelay)
/-- The spacing. -/
def profS (s : State) (x : Axis) : Nat := nsTicks (parX s x Par.profSpacing)
/-- Profile delay and spacing in s, and the number of points. -/
def profDelay (s : State) (x : Axis) : Rat := mkRat (profD s x) 4000000000
def profSpacing (s : State) (x : Axis) : Rat := mkRat (profS s x) 4000000000
def profN (s : State) (x : Axis) : Nat := (parX s x Par.profN).toNat
/-- T_meas (08 R179). -/
def tMeas (s : State) (x : Axis) : Rat :=
  periodSec s x - profDelay s x - ((profN s x : Rat) - 1) * profSpacing s x / 2

/-- The bridge voltage of an axis. -/
def busV (s : State) (x : Axis) : F32 := match x with | .a => s.bus.vmA | .b => s.bus.vmB
/-- Ticks a course of level changes, newest first, is high between two ticks; `lvl` is the level after the newest one. -/
def highSpan (t0 : Nat) : List (Nat × Bool) → Bool → Nat → Nat
  | [], lvl, right => if lvl then right - t0 else 0
  | (t, up) :: es, _, right =>
    let cut := max t t0
    (if up then right - cut else 0) + highSpan t0 es (!up) (min right cut)
/-- Switch-node crossings of a leg as Crest and the loops take them: as sensed, a missing one at its commanded instant (R73);
commanded timing alone for an edge-suspect leg (R215). -/
def legCourse (g : LegSt) : List (Nat × Bool) := if g.edgeSuspect then g.trans.map (fun e => (e.1, e.2.2)) else g.edges
/-- Time a leg's switch node is high between two ticks, s (R199). -/
def highIn (s : State) (x : Axis) (l : Leg) (t0 t1 : Nat) : Rat :=
  let g := getLeg s x l
  mkRat (highSpan t0 (legCourse g) g.hi t1) 4000000000
/-- Switch-node high time of a leg summed over the control period completed last, s (07 Table 7.3; 08 R182). -/
def highTime (s : State) (x : Axis) (l : Leg) : Rat := highIn s x l (getAx s x).pwm.lastPer (getAx s x).pwm.perAt
/-- αβ volt-seconds of an interval: phase midpoints in phase mode, the mean of the stars in dual-star mode (R199). A leg
held off by a bypass drives nothing: its phase has the voltage of its other leg (DESIGN CHOICE, log 125). -/
def voltSec (s : State) (x : Axis) (h0 : Leg → Rat) : Vec :=
  let v := fval (busV s x)
  let h := fun (l : Leg) => if !dualStar s x && (heldLegs s x).contains l then h0 (partnerLeg l) else h0 l
  if dualStar s x then
    let a := vclarke (h .u1 * v) (h .v1 * v) (h .w1 * v)
    let b0 := vclarke (h .u2 * v) (h .v2 * v) (h .w2 * v)
    let b := if parX s x Par.dsShift == 30 then virot b0 (fdeg 0x41F00000) else b0
    match heldLegs s x with
    | .u1 :: _ => b
    | .u2 :: _ => a
    | _ => ⟨(a.x + b.x) / 2, (a.y + b.y) / 2⟩
  else vclarke ((h .u1 + h .u2) * v / 2) ((h .v1 + h .v2) * v / 2) ((h .w1 + h .w2) * v / 2)
/-- A profile point of a leg: its current and whether it carries weight 1.0 (07 Table 7.3). -/
def profPoint (a : AxisSt) (l : Leg) (i : Nat) : Rat × Bool :=
  match mapGet a.conv.profile (legNo l * 16 + i) with
  | some (v, w) => (fval v, !w.getLsbD 7)
  | none => (0, false)
/-- αβ current of a profile point, and whether every leg taking part carries weight 1.0 (R199). -/
def profVec (s : State) (x : Axis) (i : Nat) : Vec × Bool :=
  let a := getAx s x
  let held := heldLegs s x
  let p := fun (l : Leg) => if held.contains l then ((0 : Rat), true) else profPoint a l i
  let ok := allLegs.all (fun l => (p l).2)
  let v := fun (l : Leg) => (p l).1
  let vec :=
    if dualStar s x then
      let q1 := vclarke (v .u1) (v .v1) (v .w1)
      let q2 := vclarke (v .u2) (v .v2) (v .w2)
      let q3 := if parX s x Par.dsShift == 30 then virot q2 (fdeg 0x41F00000) else q2
      Vec.mk (q1.x + q3.x) (q1.y + q3.y)
    else vclarke (v .u1 + v .u2) (v .v1 + v .v2) (v .w1 + v .w2)
  (vec, ok)
/-- One usable gap: volt-seconds, current change, its middle relative to the mean sample instant (R199). -/
structure Gap where
  lam : Vec
  di : Vec
  mid : Rat
deriving DecidableEq, Repr
/-- The usable gaps of the period just measured (R199). -/
def gaps (s : State) (x : Axis) : List Gap :=
  let sp := profSpacing s x; let n := profN s x
  let start := (getAx s x).pwm.lastPer + profD s x
  (List.range (n - 1)).filterMap (fun i =>
    let p := profVec s x i; let q := profVec s x (i + 1)
    let t0 := start + i * profS s x
    if p.2 && q.2 then
      some ⟨voltSec s x (fun l => highIn s x l t0 (t0 + profS s x)), ⟨q.1.x - p.1.x, q.1.y - p.1.y⟩,
        ((i : Rat) + mkRat 1 2) * sp - ((n : Rat) - 1) * sp / 2⟩
    else none)

/-- The axis runs in IDENT mode: a motor measurement (R217; 11 R262). -/
def identing (a : AxisSt) : Bool := a.seq.mode == .ident
/-- A cleared fit window (R200, R207, R208). -/
def clearFit (c : CrestSt) : CrestSt := { c with p11 := 0, p12 := 0, p22 := 0, q11 := 0, q12 := 0, q21 := 0, q22 := 0 }
/-- The saliency fit is paused (R215): a leg edge-suspect, a converter of the axis suspect, or a profile result with
REF_NOK. -/
def fitPaused (a : AxisSt) : Bool :=
  (sixList a.legs).any (fun l => l.edgeSuspect || l.cv.suspect) || a.conv.profile.any (fun p => p.2.2.getLsbD 2)
/-- The fit of R200 over the gaps of a period. -/
def crestFit (s : State) (x : Axis) : State :=
  let c := (getAx s x).crest
  let gs := gaps s x
  if gs.length < 3 ∨ fitPaused (getAx s x) = true then s
  else
    let sp := profSpacing s x
    let dt := (gs.length : Rat) * sp
    let sum := fun (f : Gap → Rat) => gs.foldl (fun t g => t + f g) 0
    let lb : Vec := ⟨sum (·.lam.x) / dt, sum (·.lam.y) / dt⟩
    let ib : Vec := ⟨sum (·.di.x) / dt, sum (·.di.y) / dt⟩
    let xy := gs.map (fun g =>
      let th := rd (fval c.th + fval c.we * g.mid)
      (virot ⟨g.lam.x - lb.x * sp, g.lam.y - lb.y * sp⟩ th, virot ⟨g.di.x - ib.x * sp, g.di.y - ib.y * sp⟩ th))
    let f := expR (-(periodSec s x) / (fval (parX s x Par.crestFitTau) / 1000))
    let acc := fun (p : F32) (h : Vec → Vec → Rat) => rd (f * fval p + xy.foldl (fun t v => t + h v.1 v.2) 0)
    let p11 := acc c.p11 (fun u _ => u.x * u.x); let p12 := acc c.p12 (fun u _ => u.x * u.y)
    let p22 := acc c.p22 (fun u _ => u.y * u.y)
    let q11 := acc c.q11 (fun u w => w.x * u.x); let q12 := acc c.q12 (fun u w => w.x * u.y)
    let q21 := acc c.q21 (fun u w => w.y * u.x); let q22 := acc c.q22 (fun u w => w.y * u.y)
    let det := fval p11 * fval p22 - fval p12 * fval p12
    let g := fun (q1 q2 : F32) (c1 c2 : F32) => if det = 0 then (0 : Rat) else (fval q1 * fval c1 - fval q2 * fval c2) / det
    -- q × p⁻¹ with p⁻¹ = [p22 −p12; −p12 p11] / det
    let g11 := g q11 q12 p22 p12; let g12 := g q12 q11 p11 p12; let g21 := g q21 q22 p22 p12; let g22 := g q22 q21 p11 p12
    let go := (g12 + g21) / 2
    let half := (fval p11 + fval p22) / 2
    let dif := (fval p11 - fval p22) / 2
    let lmin := half - fval (fsqrtRat (dif * dif + fval p12 * fval p12))
    let exc := rd ((g11 + g22) / 2 * fval (fsqrtRat lmin))
    let gm := (g11 + g22) / 2; let gd := (g11 - g22) / 2
    let gr := fval (fsqrtRat (gd * gd + go * go))
    let sal := if gm - gr ≤ 0 then (0 : Rat) else (gm + gr) / (gm - gr)
    -- E = Λ̄ − g⁻¹ ī, rotated to dq, the frame of g
    let gdet := g11 * g22 - go * go
    let ld := virot lb c.th; let idq := virot ib c.th
    let edq : Vec := if gdet = 0 then ld else ⟨ld.x - (g22 * idq.x - go * idq.y) / gdet, ld.y - (g11 * idq.y - go * idq.x) / gdet⟩
    onAx s x (fun a => { a with crest := { a.crest with
      p11 := p11, p12 := p12, p22 := p22, q11 := q11, q12 := q12, q21 := q21, q22 := q22,
      g11 := rd g11, g12 := rd go, g22 := rd g22, exc := exc, saliency := if det = 0 then c.saliency else rd sal,
      eD := rd edq.x, eQ := rd edq.y } })

/-- e_s of R201, rad; the sign turns where L_q < L_d (R198). -/
def salErr (s : State) (x : Axis) : Rat :=
  let c := (getAx s x).crest
  let a := fval (atan2Of (rd (2 * fval c.g12)) (rd (fval c.g11 - fval c.g22))) / 2
  let a := if termLq s x < termLd s x then -a else a
  a - fval (fdeg (parX s x Par.crestXsat)) * fval (getAx s x).ctl.iq
/-- psi_x of R203. -/
def psiX (s : State) (x : Axis) : Rat :=
  fval (getAx s x).crest.psiEst + (termLd s x - termLq s x) * starScale s x * fval (getAx s x).ctl.id
/-- The flux part (R203) with the mean αβ voltage u and current i; `pull` false while its correction is off (10 R228). -/
def crestFlux (s : State) (x : Axis) (u i : Vec) (pull : Bool) : State :=
  let c := (getAx s x).crest
  let t := periodSec s x
  let r := fval c.rsEst; let lq := termLq s x * starScale s x
  let k := if pull then t / (fval (parX s x Par.crestFluxTau) / 1000) else 0
  let ps := psiX s x
  let la := fval c.lamA + t * (u.x - r * i.x) - k * (fval c.lamA - lq * i.x - ps * fval (cosOf c.th))
  let lb := fval c.lamB + t * (u.y - r * i.y) - k * (fval c.lamB - lq * i.y - ps * fval (sinOf c.th))
  onAx s x (fun a => { a with crest := { a.crest with lamA := rd la, lamB := rd lb, fxA := rd (la - lq * i.x), fxB := rd (lb - lq * i.y) } })
/-- e_f of R203, rad. -/
def fluxErr (a : AxisSt) : Rat := fval (wrapR (fval (atan2Of a.crest.fxB a.crest.fxA) - fval a.crest.th))
/-- The saliency part is off (R198, R215): not enabled, switched off, or a leg bypassed in phase mode. -/
def salInactive (s : State) (x : Axis) : Bool := salOff s x || ((getAx s x).stage.bypassMask != 0 && !dualStar s x)
/-- An open-loop vector leads the rotor: Crest runs in parallel with its saliency weight at zero (10 R229). -/
def openLoop (a : AxisSt) : Bool := a.start.ax == .ramp || (a.start.ax == .converge && a.start.path == .align)
/-- Blend weight w (R204). -/
def blendW (s : State) (x : Axis) : Rat :=
  if salInactive s x || openLoop (getAx s x) then 1 else max 0 (min 1 ((wFrac s x - mkRat 2 100) / mkRat 6 100))
/-- The tracker (R204) with the hold of R206. -/
def crestTrack (s : State) (x : Axis) : State :=
  let c := (getAx s x).crest
  let w := blendW s x
  let hold := decide (w < 1) && decide (wFrac s x < mkRat 2 100) && flt c.exc (parX s x Par.crestExcMin)
  let es := if w < 1 then (if hold then 0 else salErr s x) else 0
  let ef := if 0 < w then fluxErr (getAx s x) else 0
  let e := (1 - w) * es + w * ef
  let wn := 2 * piR * fval (parX s x Par.crestPllBw)
  let t := periodSec s x
  let we := fval c.we + wn * wn * t * e
  onAx s x (fun a => { a with crest := { a.crest with
    w := rd w, err := rd e, hold := hold,
    we := if hold then 0 else rd we,
    th := if hold then a.crest.th else wrapR (fval c.th + t * (we + 2 * wn * e)) } })
/-- First-order filter toward a value over a time constant in s. -/
def lowPass (y : F32) (v t tau : Rat) : F32 := rd (fval y + (v - fval y) * t / tau)
/-- Range of CREST_RS_EST (R212). -/
def rsRange (s : State) (x : Axis) : F32 × F32 := let r := fval (parX s x Par.motRs); (rd (r / 2), rd (2 * r))
/-- Range of CREST_PSI_EST (R212). -/
def psiRange (s : State) (x : Axis) : F32 × F32 := let p := fval (parX s x Par.motPsi); (rd (p * mkRat 7 10), rd (p * mkRat 11 10))
/-- An estimate is held at an end of its range. -/
def atClamp (r : F32 × F32) (y : F32) : Bool := y == r.1 || y == r.2
/-- Resistance and flux tracking with the temperatures (R212, R213); an estimate off its clamp clears its status bit. -/
def crestParams (s : State) (x : Axis) : State :=
  let c := (getAx s x).crest; let k := (getAx s x).ctl
  let t := periodSec s x
  let i2 := fval k.id * fval k.id + fval k.iq * fval k.iq
  let rs0 := fval (parX s x Par.motRs); let ps0 := fval (parX s x Par.motPsi)
  let s1 :=
    if flt c.w f1 && decide (4 ≤ i2) then
      let r := (fval c.eD * fval k.id + (fval c.eQ - fval c.we * psiX s x) * fval k.iq) / i2
      let y := fclamp (lowPass c.rsEst r t (fval (parX s x Par.crestRTau))) (rsRange s x).1 (rsRange s x).2
      let tw := rd (fval (parX s x Par.motTRef) + (fval y / rs0 - 1) / mkRat 393 100000)
      onAx s x (fun a => { a with crest.rsEst := y, crest.tWind := tw, crest.rsClamp := a.crest.rsClamp && atClamp (rsRange s x) y })
    else s
  if decide (mkRat 1 10 ≤ wFrac s x) && c.conv then
    let p := fval (fsqrtRat (fval c.fxA * fval c.fxA + fval c.fxB * fval c.fxB)) - (termLd s x - termLq s x) * starScale s x * fval k.id
    let y := fclamp (lowPass c.psiEst p t (fval (parX s x Par.crestPsiTau))) (psiRange s x).1 (psiRange s x).2
    let tm := rd (fval (parX s1 x Par.motTRef) + (fval y / ps0 - 1) / mkRat (-12) 10000)
    onAx s1 x (fun a => { a with crest.psiEst := y, crest.tMag := tm, crest.psiClamp := a.crest.psiClamp && atClamp (psiRange s x) y })
  else s1
/-- 2^32 per mechanical turn of an electrical angle step (R211). -/
def angleCounts (s : State) (x : Axis) (th : Rat) : Int := roundEven (th / (2 * piR * polePairs s x) * 4294967296)
/-- The relative position counts the tracked angle from the first convergence (R211). -/
def crestPos (before : F32) (s : State) (x : Axis) : State :=
  let c := (getAx s x).crest
  if c.posStarted then
    let d := fval (wrapR (fval c.th - fval before))
    onAx s x (fun a => { a with crest.pos := c.pos + angleCounts s x d })
  else s
/-- Cross-check difference and its mean (R216). -/
def crestXchk (s : State) (x : Axis) (thSensor : F32) : State :=
  let c := (getAx s x).crest
  if parX s x Par.crestMode == 2 && c.conv && !c.hold then
    let d := wrapR (fval c.th - fval thSensor)
    onAx s x (fun a => { a with crest.xchkD := d, crest.xchkMean := lowPass c.xchkMean (fval (ftodeg d)) (periodSec s x) 1,
                                crest.xchkOver := flt (fdeg (parX s x Par.crestXchkAng)) (fabs d) })
  else s
/-- Terminal saliency too low: the saliency part is off until the next enable, WARN 0x2701 once per enable (R215). -/
def salLow (s : State) (x : Axis) : State :=
  let c := (getAx s x).crest
  if salInactive s x || fisZero c.saliency || !flt c.saliency (parX s x Par.crestSalMin) then s
  else
    let s1 := onAx s x (fun a => { a with crest.salOff := true, crest.salWarned := true })
    if c.salWarned then s1 else raise s1 0x2701 (scopeOf x) noDetail c.saliency false
/-- Crest in one current part with switching gates (R199 to R216); frozen with the gates off (R215). `track` is false
while a start step owns the angle; `pull` as in the flux part. A motor measurement runs its parts whatever CREST_MODE says
(R217, R218). -/
def crestStep (s : State) (x : Axis) (u i : Vec) (thSensor : F32) (track pull : Bool) : State :=
  let id := identing (getAx s x)
  if (parX s x Par.crestMode == 0 && !id) ∨ !(getAx s x).pwm.switching then s
  else
    let before := (getAx s x).crest.th
    let s0 := onAx s x (fun a => { a with crest.paused := fitPaused a })
    let s1 := if salInactive s0 x && !id then s0 else crestFit s0 x
    let s2 := crestFlux s1 x u i pull
    let s3 := if track then crestPos before (crestTrack s2 x) x else s2
    if id then s3 else crestXchk (salLow (crestParams s3 x) x) x thSensor

/-- The saliency part's own condition (R209): hold counts as meeting it (R210). -/
def salMeets (s : State) (x : Axis) : Bool :=
  let c := (getAx s x).crest
  c.hold || (fle (parX s x Par.crestSalMin) c.saliency && fle (parX s x Par.crestExcMin) c.exc)
/-- The flux part's own condition (R209); with the saliency part off `low` is its least fraction of rated speed. -/
def fluxMeets (s : State) (x : Axis) (low : Rat) : Bool :=
  let c := (getAx s x).crest
  let lim : Rat := if salInactive s x then low else mkRat 2 100
  let fx := fval (fsqrtRat (fval c.fxA * fval c.fxA + fval c.fxB * fval c.fxB)); let ps := psiX s x
  decide (lim ≤ wFrac s x) && decide (ps * mkRat 75 100 ≤ fx) && decide (fx ≤ ps * mkRat 125 100)
/-- Every part with nonzero weight meets its own condition (R209). -/
def partsMeet (s : State) (x : Axis) : Bool :=
  let c := (getAx s x).crest
  (feq c.w f1 || salMeets s x) && (fisZero c.w || fluxMeets s x (mkRat 4 100))
/-- What R210 takes for a loss when it lasts: |e| beyond CREST_LOSS_ERR, or a part of weight 1 that fails its condition. -/
def lossSeen (s : State) (x : Axis) : Bool :=
  let c := (getAx s x).crest
  flt (fdeg (parX s x Par.crestLossErr)) (fabs c.err) || (fisZero c.w && !salMeets s x) || (feq c.w f1 && !fluxMeets s x (mkRat 3 100))

/-- CREST_LOSS (R210): CREST_CONV clears; with Crest as the angle source in RUN, STOP 0x4701. A start, and the open-loop
crossing of a reversal, await convergence under their own timeouts; a spin of identification has failed (Table 9.6). -/
def execCrestLoss (x : Axis) (s : State) : Out :=
  let a := getAx s x
  let s1 := onAx s x (fun a => { a with crest.conv := false, crest.polarity := false, crest.lostCnt := a.crest.lostCnt + 1,
                                        crest.ident.spinFail := a.crest.ident.spinFail || identing a })
  let inRun := a.start.ax == .run || a.start.ax == .stopping
  when_ s (a.crest.conv && (parX s x Par.crestMode != 0 || identing a) && lossSeen s x)
    (if parX s x Par.crestMode == 1 && inRun then raise0 s1 0x4701 (scopeOf x) noDetail else s1)

/-- CREST_CLAMP_TIMEOUT (R212): an estimate stayed at its clamp for 1 s. -/
def execCrestClampTimeout (x : Axis) (flux : Bool) (s : State) : Out :=
  let c := (getAx s x).crest
  let held := if flux then atClamp (psiRange s x) c.psiEst && !c.psiClamp else atClamp (rsRange s x) c.rsEst && !c.rsClamp
  when_ s (parX s x Par.crestMode != 0 && held)
    (if flux then raise (onAx s x (fun a => { a with crest.psiClamp := true })) 0x2703 (scopeOf x) noDetail c.psiEst false
     else raise (onAx s x (fun a => { a with crest.rsClamp := true })) 0x2702 (scopeOf x) noDetail c.rsEst false)

/-- CREST_XCHK_TIMEOUT (R216): |d| stayed beyond CREST_XCHK_ANG, or below it again, for CREST_XCHK_T. -/
def execCrestXchkTimeout (x : Axis) (s : State) : Out :=
  let c := (getAx s x).crest
  let s1 := onAx s x (fun a => { a with crest.xchk := true })
  when_ s (parX s x Par.crestMode == 2 && c.conv && c.xchkOver != c.xchk)
    (if !c.xchkOver then endCause (onAx s x (fun a => { a with crest.xchk := false })) 0x4703 (scopeOf x) noDetail
     else if parX s x Par.crestXchkAct == 1 then raise s1 0x4703 (scopeOf x) noDetail (ftodeg c.xchkD) true
     else raise s1 0x2704 (scopeOf x) noDetail (ftodeg c.xchkD) false)

end Sys2Proof.Machine
end

