-- ==== Sys2Proof/Machine/Chain.lean ====
section
/-!
DEFINITION. What a chain computes: feedback words of the boundary, references of each axis state, the position, speed
and current parts with the user hooks (07 R171 to R174; 08 R176 to R189; 09 R207, R208; 10 R226 to R237; 11 R242, R254
to R256). Formulas are evaluated exactly and rounded at each named quantity (log 22).
-/

namespace Sys2Proof.Machine
open Sys2Proof

def absR (q : Rat) : Rat := if q < 0 then -q else q
def sgnR (q : Rat) : Rat := if q < 0 then -1 else if q = 0 then 0 else 1
def clampR (q lo hi : Rat) : Rat := min (max q lo) hi
/-- A parameter in force as an exact number. -/
def pf (s : State) (x : Axis) (i : Nat) : Rat := fval (parX s x i)

/-! Feedback at a boundary (chapter 11). -/

/-- Position of R242 as the signed 64-bit value. -/
def fbPos (s : State) (x : Axis) : Int := let p := (getAx s x).fb.pos; if parX s x Par.fbDir == 1 then -p else p
/-- Position of the feedback interface (R240, Table 11.1): the source's, or Crest's relative one with none. -/
def srcPos (s : State) (x : Axis) : Int := if parX s x Par.fbSrc == 0 then (getAx s x).crest.pos else fbPos s x
/-- Reported position of the placed source: the sensor's, or Crest's relative one (09 R211). -/
def posOf (s : State) (x : Axis) : Int := if parX s x Par.crestMode == 1 then (getAx s x).crest.pos else fbPos s x
/-- θ_ofs, °e (R242). -/
def thetaOfs (s : State) (x : Axis) : F32 :=
  if parX s x Par.fbHallUse == 1 then (getAx s x).fb.hallOfs.getD 0 else parX s x Par.fbAngleOfs
/-- Index of a legal Hall state in the order of Table 11.3. -/
def hallIdx (h : BitVec 3) : Option Nat := [1, 3, 2, 6, 4, 5].findIdx? (· == h.toNat)
/-- Sector centre in °e: Table 11.3, negated with FB_HALL_REV = 1, plus FB_HALL_OFS (R247). -/
def hallCentre (s : State) (x : Axis) (k : Nat) : Rat :=
  let c : Rat := (60 * k : Nat)
  (if parX s x Par.fbHallRev == 1 then -c else c) + pf s x Par.fbHallOfs
/-- θ_e of R242, rad in [−π, π); before the first Hall edge the present sector's centre (R248). -/
def elecOf (s : State) (x : Axis) (pos : Int) : F32 :=
  if fbCoarse s x then wrapR (hallCentre s x ((hallIdx (getAx s x).fb.hall).getD 0) * piR / 180)
  else wrapR (polePairs s x * 2 * piR * ((pos % 4294967296 : Int) : Rat) / 4294967296 + fval (thetaOfs s x) * piR / 180)
/-- Mechanical angle of one qualified edge (R255). -/
def edgeAngle (s : State) (x : Axis) : Rat :=
  let src := parX s x Par.fbSrc
  if src == 1 then 2 * piR / (4 * ((parX s x Par.fbQepLines).toNat : Rat))
  else if src == 2 then 2 * piR / (6 * polePairs s x)
  else ((parX s x Par.fbSmpGrid).toNat : Rat) * 2 * piR / 4294967296
/-- The estimate of R255 at the boundary t. -/
def speedEst (s : State) (x : Axis) (t : Nat) : Rat :=
  let f := (getAx s x).fb
  match f.edges with
  | t1 :: t0 :: _ =>
    let dir : Rat := if f.dirRev then -1 else 1
    let dth := edgeAngle s x
    let gap := if t1 - t0 < t - t1 then t - t1 else t1 - t0
    let wp := if gap = 0 then 0 else dir * dth / nsSec gap
    let k := (parX s x Par.fbSpdWin).toNat
    let w := (k : Rat) * periodSec s x
    let ne := (f.edges.filter (fun (e : Nat) => decide ((t : Rat) - w * 1000000000 < (e : Rat)))).length
    let wc := match f.hist[k]? with
      | some p0 => if 2 ≤ ne then ((fbPos s x - p0 : Int) : Rat) * 2 * piR / 4294967296 / w else wp
      | none => wp
    let n1 := ((parX s x Par.fbSpdN1).toNat : Rat); let n2 := ((parX s x Par.fbSpdN2).toNat : Rat)
    let g := if n1 = n2 then 0 else clampR (((ne : Rat) - n1) / (n2 - n1)) 0 1
    (1 - g) * wp + g * wc
  | _ => 0
/-- A sampled source: sin/cos, SSI or a serial profile (Table 11.1). -/
def sampledSrc (s : State) (x : Axis) : Bool := let f := parX s x Par.fbSrc; f == 3 || f == 4 || f == 5
/-- From the sample instant of the position to the boundary t, ns: nothing for a source that is sampled every ENC cycle (R254). -/
def sampleLag (s : State) (x : Axis) (t : Nat) : Nat := if sampledSrc s x then t - (getAx s x).fb.sampleAt else 0
/-- The sample event and, every FB_SER_DIV-th period, the serial request of the period that begins are due (R249, R251). -/
def sampleDue (div perAt : Nat) (f : FbSt) : FbSt :=
  let req := decide (div ≤ f.serSkip + 1)
  { f with scDue := some perAt, serDue := if req then some perAt else f.serDue, serSkip := if req then 0 else f.serSkip + 1 }
/-- The interface latches its words at a boundary (R254 to R256): a sampled source's latest sample reaches the port; the
speed is held at zero until the second edge of a direction. -/
def latchFeedback (s : State) (x : Axis) (t : Nat) : State :=
  let f := (getAx s x).fb
  let s1 := match f.sample with
    | some p => onAx s x (fun a => { a with fb.pos := p, fb.sample := none })
    | none => s
  let s2 := onAx s1 x (fun a => { a with fb.hist := (fbPos s1 x :: a.fb.hist).take 65 })
  let ok := decide (2 ≤ f.inDir) && !f.standstill
  onAx s2 x (fun a => { a with
    fb := { sampleDue (parX s x Par.fbSerDiv).toNat a.pwm.perAt a.fb with
              speedValid := ok, speed := if ok then rd (speedEst s2 x t) else 0 } })
/-- W_FB and whether it is valid (08 R187, 09 R211, 11 R256); Crest's in a motor measurement (09 R218). -/
def speedFb (s : State) (x : Axis) : Rat × Bool :=
  let a := getAx s x
  if identing a then (crestWm s x, true)
  else if parX s x Par.crestMode == 1 then
    if a.crest.conv then (if a.crest.hold then 0 else crestWm s x, true) else (0, false)
  else (if a.fb.speedValid then fval a.fb.speed else 0, a.fb.speedValid)
/-- Angle a Hall source gives the loops, rad (R248): the last edge angle advanced at the reported speed, within ±30 °e of
the sector centre; the centre without a valid speed. -/
def hallAngle (s : State) (x : Axis) (t : Nat) : F32 :=
  let f := (getAx s x).fb
  let c := hallCentre s x ((hallIdx f.hall).getD 0)
  match f.hallEdge, f.edges with
  | some e, t1 :: _ =>
    if f.speedValid then
      let adv := fval e + fval f.speed * polePairs s x * nsSec (t - t1) * 180 / piR
      let d := adv - c
      let d := d - 360 * (((roundEven (d / 360)) : Int) : Rat)
      wrapR ((c + clampR d (-30) 30) * piR / 180)
    else wrapR (c * piR / 180)
  | _, _ => wrapR (c * piR / 180)
/-- θ_b and ω_e the placed source delivers for the boundary t (08 R179, 09 R205, 11 R254). -/
def angleB (s : State) (x : Axis) (t : Nat) : F32 × Rat :=
  let a := getAx s x
  if parX s x Par.crestMode == 1 || identing a then (wrapR (fval a.crest.th + fval a.crest.we * tMeas s x), fval a.crest.we)
  else
    let we := (speedFb s x).1 * polePairs s x
    if parX s x Par.fbSrc == 2 then (hallAngle s x t, we)
    else (wrapR (fval (elecOf s x (fbPos s x)) + we * nsSec (sampleLag s x t)), we)

/-! Limits (08 R183, 12 R272). -/

/-- The share of a leg or star under a commanded bypass still to be given up has gone by this fraction (04 R81). -/
def bypassGone (s : State) (x : Axis) (t : Nat) : Rat :=
  let g := (getAx s x).stage
  match g.bypass with
  | .none => 0
  | .ramp _ =>
    let d := pf s x Par.legBypassRamp / 1000
    if d = 0 then 1 else clampR (nsSec (t - g.bypassFrom) / d) 0 1
  | .atSwap _ => 1
/-- The leg a commanded bypass is giving up (04 R81). -/
def leavingLeg (a : AxisSt) : Option Leg := match a.stage.bypass with | .none => none | .ramp l => some l | .atSwap l => some l
/-- i_lim (R183). With a star dropped, or leaving under a commanded bypass, its legs keep their own limits, which are half of the
axis's (04 Table 4.6, R81). -/
def iLim (s : State) (x : Axis) : Rat :=
  let a := getAx s x
  let p0 := if a.stage.i2tLimit then fval a.stage.iCont else fval a.stage.iPeak
  let p := if dualStar s x && (a.stage.bypassMask != 0 || (leavingLeg a).isSome) then p0 / 2 else p0
  let m := min (pf s x Par.curLim) p
  match (match x with | .a => s.th.ithA | .b => s.th.ithB) with
  | some i => min m (fval i)
  | none => m
/-- P_regen in W (12 R272). -/
def pRegen (s : State) (x : Axis) : Rat :=
  let p := pf s x Par.regenPMax
  let p := if s.bus.loadLimit || s.bus.chopThrottle then min p (fval (parD s Par.brkPCont) / 2) else p
  if s.bus.e1 then 0 else p
/-- iq limit of the root (R183). -/
def iqRoot (s : State) (x : Axis) (idRef : Rat) : Rat :=
  let l := iLim s x; fval (fsqrtRat (l * l - idRef * idRef))
/-- The limits of R183 on an iq reference. -/
def limitIq (s : State) (x : Axis) (idRef we iq : Rat) : Rat :=
  let r := iqRoot s x idRef
  let i1 := clampR iq (-r) r
  let i2 := clampR i1 (-(pf s x Par.iqLimNeg)) (pf s x Par.iqLimPos)
  if i2 * we < 0 then
    let g := pRegen s x / (mkRat 3 2 * absR we * pf s x Par.motPsi)
    clampR i2 (-g) g
  else i2
/-- A start current: scaled with the retry and clamped to i_lim (10 R231). -/
def startAmp (s : State) (x : Axis) (i : Nat) : Rat :=
  min (pf s x i * (1 + ((getAx s x).start.retry : Rat) / 4)) (iLim s x)
/-- Handoff speed w_h (10 R229). -/
def wHandoff (s : State) (x : Axis) : Rat := pf s x Par.stWHandoff * wRated s x / 100

/-! User hooks (07 R171 to R174). -/

/-- Values of the interface words at a hook (Table 7.9). -/
structure Iface where
  posErr : F32 := 0
  iqRef : F32 := 0
  wRef : F32 := 0
  iqLim : F32 := 0
  wFb : F32 := 0
  accRef : F32 := 0
  iqFf : F32 := 0
  idRef : F32 := 0
  vmBus : F32 := 0
  ts : F32 := 0
  spdValid : F32 := 0
deriving DecidableEq, Repr
/-- The words from 0x200. -/
def ifaceWords (i : Iface) : List F32 :=
  [i.posErr, i.iqRef, i.wRef, i.iqLim, i.wFb, i.accRef, i.iqFf, i.idRef, i.vmBus, i.ts, i.spdValid]
/-- The stored segment of a hook that is linked and enabled, in RUN chains alone (R171, R172). -/
def hookSeg (s : State) (x : Axis) (hook : Nat) : Option UserSeg :=
  if (parX s x Par.usrEn).getLsbD hook && (getAx s x).seq.mode == .run then
    s.nv.segs.find? (fun g => g.key == axisNo x * 4 + hook && g.linked)
  else none
/-- User ops run over user space: private words and interface words (R172). -/
def hookEnv (s : State) (x : Axis) : OpEnv := { flag := fun n => (getAx s x).seq.flags.getLsbD n, port := fun _ => 0 }
/-- Run a hook: the word it may write, guarded by FIX, and the state with its private words (R174). -/
def runHook (s : State) (x : Axis) (hook : Nat) (i : Iface) (held : F32) : F32 × State :=
  match hookSeg s x hook, (getAx s x).seq.host with
  | some g, some e =>
    let base := axisNo x * 512 + 0x180
    let file := (getEng s e).file
    let user := ((List.range 0x80).filterMap (fun k => (mapGet file (base + k)).map (fun v => (k, v))))
    let m0 := ((ifaceWords i).zipIdx).foldl (fun m p => mapWrite 0 m (0x200 + p.2) p.1) user
    let r := runSeg (hookEnv s x) { file := m0 } g.ops
    let file' := (List.range 0x80).foldl (fun m k => mapWrite 0 m (base + k) (mapRead 0 r.file k)) file
    let v := mapRead 0 r.file (hookWord hook)
    let s1 := onEng s e (fun n => { n with file := file' })
    let s2 := onAx s1 x (fun a => { a with seq.nanFlag := a.seq.nanFlag || r.nan })
    if ffinite v then (v, s2)
    else
      let s3 := onAx s2 x (fun a => { a with seq.usrNan := a.seq.usrNan + 1 })
      let due := match (getAx s x).seq.usrNanAt with | some t => decide (t + 1000000000 ≤ s.clk.now) | none => true
      (held, if due then raise (onAx s3 x (fun a => { a with seq.usrNanAt := some s.clk.now })) 0x2502 (scopeOf x) (BitVec.ofNat 8 hook) v false else s3)
  | _, _ => (held, s)
/-- Interface words every hook reads. -/
def ifaceBase (s : State) (x : Axis) (ts : Rat) : Iface :=
  let v := speedFb s x
  { wFb := rd v.1, idRef := (getAx s x).ctl.idRef, vmBus := busV s x, ts := rd ts, spdValid := if v.2 then f1 else 0 }

/-! Position and speed parts (08 R187, R188). -/

/-- Speed-part and position-part multiples (01 R19). -/
def multM (s : State) (x : Axis) : Nat := match placedAx s x with | some p => max p.m 1 | none => 1
def multP (s : State) (x : Axis) : Nat := match placedAx s x with | some p => max p.p 1 | none => 1
/-- Speed-part period ts in s. -/
def tsOf (s : State) (x : Axis) : Rat := periodSec s x * multM s x
/-- A stop in force: ramp and quick stops run the speed part in speed mode (10 Table 10.8). -/
def stopping (a : AxisSt) : Bool := a.start.ax == .stopping || a.start.stop.isSome
/-- Control mode the parts use. -/
def modeNow (a : AxisSt) : BitVec 8 := if stopping a then 1 else if a.sp.accepted then a.sp.mode else 1
/-- Set or clear a bit of CTRL_STATUS's held part. -/
def ctlBit (n : Nat) (b : Bool) (a : AxisSt) : AxisSt :=
  let m := (bitW n).setWidth 16; { a with ctl.status := if b then a.ctl.status ||| m else a.ctl.status &&& ~~~m }
/-- Setpoint target of the speed part in speed mode: the curve's value, or the setpoint in force; zero before acceptance
(08 R176, R196; 10 R238); the spin's in identification (09 Table 9.5). -/
def speedTarget (s : State) (x : Axis) : Rat :=
  let a := getAx s x
  if identing a then fval a.crest.ident.spinTo
  else if !a.sp.accepted || stopping a then 0
  else if a.sp.src == 3 then
    if a.sp.curveOn then
      let n := (parX s x Par.curveNpts).toNat
      fval (intxyOf a.sp.curveX n (fun k => parX s x (Par.curveX0 + k)))
    else 0
  else fval a.sp.now.value
/-- POS_REF part (R188): pos_err through its hook, then w_tgt. -/
def positionPart (s : State) (x : Axis) : State :=
  let a := getAx s x
  let err := rd (((a.ctl.posRef - posOf s x : Int) : Rat) * 2 * piR / 4294967296)
  let inPos := modeNow a == 2
  let grows := decide (absR (fval a.ctl.posErr) < absR (fval err))
  if !inPos then onAx s x (fun a => { a with ctl.posRef := posOf s x, ctl.posErr := err, ctl.errGrows := grows, ctl.followRun := 0 })
  else
    let h := runHook s x 0 { ifaceBase s x (tsOf s x * multP s x) with posErr := err } err
    let s1 := h.2
    let wt := rd (pf s x Par.posKp * fval h.1 + pf s x Par.vffGain * fval a.sp.now.vff)
    let lim := pf s x Par.followErrMax
    let exceeds := decide (lim ≠ 0) && decide (lim < absR (fval err))
    let n := if exceeds then a.ctl.followRun + 1 else 0
    let s2 := onAx s1 x (fun a => { a with ctl.posErr := err, ctl.errGrows := grows, ctl.wTgt := wt, ctl.followRun := n })
    if n = 2 then raise s2 0x4606 (scopeOf x) noDetail err false else s2
/-- rate(a, c, b): c moved toward a by at most b. -/
def rateR (a c b : Rat) : Rat := c + clampR (a - c) (-b) b
/-- The saliency part is off with Crest as the angle source (10 R233). -/
def fluxOnly (s : State) (x : Axis) : Bool := parX s x Par.crestMode == 1 && salInactive s x
/-- The speed part (R187): w_ref with its hooks and limits, then iq_ref. In torque mode the regulator aims at SPD_MAX in the
direction of the iq setpoint and its output bounds the setpoint; a zero setpoint has no direction, and the regulator waits
(DESIGN CHOICE, log 127). The integrator moves only where the output it takes part in is the one that is taken. -/
def speedPart (s : State) (x : Axis) : State :=
  let a := getAx s x
  let ts := tsOf s x
  let m := modeNow a
  let torque := m == 0
  let iqs := fval a.sp.now.value
  let wfb := (speedFb s x).1
  let smax := pf s x Par.spdMax
  let bound := match a.ctl.fwBound with | some b => min smax (fval b) | none => smax
  let raw := if m == 2 then fval a.ctl.wTgt else if torque then sgnR iqs * smax else speedTarget s x
  -- R233: a target below w_h is raised with the saliency part off
  let wh := wHandoff s x
  let raise_ := fluxOnly s x && a.start.ax == .run && m == 1 && decide (absR raw < wh)
  let raw1 := if raise_ then (if raw ≠ 0 then sgnR raw * wh else if wfb < 0 then -wh else wh) else raw
  let wt := clampR raw1 (-bound) bound
  let dec := if (stopping a && !a.start.curveStop) || (a.start.backward && decide (fval a.ctl.wRef * wt ≤ 0)) then pf s x Par.stopDec
    else pf s x Par.decMax
  let prev := fval a.ctl.wRef
  let lim := if absR prev < absR wt ∧ 0 ≤ wt * prev ∧ !stopping a then pf s x Par.accMax else dec
  let hold := a.start.ax == .release || a.start.ax == .converge
  let w0 := if hold then prev else if m == 1 then rateR wt prev (lim * ts) else wt
  let h1 := runHook s x 1 { ifaceBase s x ts with wRef := rd w0, accRef := a.ctl.accRef } (rd w0)
  let w1 := clampR (fval h1.1) (-bound) bound
  let s1 := h1.2
  let acc := if m == 2 then (fval a.sp.now.vff - fval a.ctl.wRefPrev) / ts else (w1 - fval a.ctl.wRefPrev) / ts
  let e := if torque && decide (iqs = 0) then 0 else w1 - wfb
  let kt := mkRat 3 2 * polePairs s x * pf s x Par.motPsi
  let reg := pf s x Par.spdKp * e + fval a.ctl.xs
  let aff := pf s x Par.affGain * pf s x Par.loadJ * acc / kt
  let raw2 := if torque then (if 0 < iqs then min iqs reg else if iqs < 0 then max iqs reg else 0) else reg + aff + fval a.sp.now.tff
  let idr := fval a.ctl.idRef
  let h2 := runHook s1 x 2 { ifaceBase s1 x ts with wRef := rd w1, accRef := rd acc, iqRef := rd raw2, iqLim := rd (iqRoot s x idr) } (rd raw2)
  let we := fval a.ctl.we
  let quick := a.start.stop == some .quick && !a.stage.engageWait
  let want := if quick then -(sgnR wfb) * pf s x Par.stopIQuick else fval h2.1
  let iq := limitIq s x idr we want
  let free := (decide (iq = want) && (!torque || decide (raw2 = reg))) || decide (e * fval a.ctl.xs < 0)
  onAx h2.2 x (fun a => ctlBit 3 (decide (iq ≠ want)) (ctlBit 4 (raise_ || decide (raw1 ≠ wt) || decide (fval h1.1 ≠ w1)) { a with
    ctl.wRef := rd w1, ctl.wRefPrev := if m == 2 then a.sp.now.vff else rd w1, ctl.accRef := rd acc, ctl.iqRef := rd iq,
    ctl.iqClamped := decide (iq ≠ want),
    ctl.xs := if free && !quick then rd (fval a.ctl.xs + pf s x Par.spdKi * e * ts) else a.ctl.xs,
    start.backward := a.start.backward && decide (fval a.ctl.wRef * wt < 0) }))

/-! Current part (08 R178 to R186). -/

/-- Period mean of a leg over its usable points (R178). -/
def legMean (s : State) (x : Axis) (l : Leg) : Option Rat :=
  let a := getAx s x
  let ps := (List.range (profN s x)).filterMap (fun i => match mapGet a.conv.profile (legNo l * 16 + i) with
    | some (v, w) => if w.getLsbD 7 then none else some (fval v) | none => none)
  if ps.isEmpty then none else some (ps.foldl (· + ·) 0 / (ps.length : Rat))
/-- The means of all legs, with CUR_NO_POINT and WARN 0x2603 after 8 periods (R178); the check of a bypassed leg (R186). -/
def meanLeg (x : Axis) (s : State) (l : Leg) : State :=
  let held := (heldLegs s x).contains l
  let run := ((getAx s x).ctl.noPointRun[legNo l]?).getD 0
  match legMean s x l with
  | some m =>
    let big := held && decide (mkRat 1 2 < absR m) && decide ((getAx s x).stage.bypassAt + 1000000 ≤ s.clk.now)
    let n := if big then (getLeg s x l).bypassRun + 1 else 0
    let s1 := onLeg s x l (fun g => 
      { g with
        iMean := rd m, bypassRun := n, sqSum := rd (fval g.sqSum + m * m), absSum := rd (fval g.absSum + absR m), sumN := g.sumN + 1 })
    let s2 := onAx s1 x (fun a => { a with ctl.noPointRun := a.ctl.noPointRun.set (legNo l) 0 })
    if n = 16 then raise s2 0x4608 (scopeOf x) (legIdx x l) (rd m) false else s2
  | none =>
    let s1 := onAx s x (fun a => { a with ctl.noPoint := a.ctl.noPoint + 1, ctl.noPointRun := a.ctl.noPointRun.set (legNo l) (run + 1) })
    if run + 1 = 8 then raise0 s1 0x2603 (scopeOf x) (legIdx x l) else s1
/-- Mean of a leg that takes part, 0 for one held off. -/
def liveMean (s : State) (x : Axis) (l : Leg) : Rat := if (heldLegs s x).contains l then 0 else fval (getLeg s x l).iMean
/-- Block sums of R64, from the enable on. They go on for a phase one of whose legs is bypassed, with the mean that leg still
measures: DESIGN CHOICE (log 128), R64 does not except it. -/
def sumImb (s : State) (x : Axis) : State :=
  if (getAx s x).start.ax == .disabled then s else
  let d := fun (p q : Leg) => fval (getLeg s x p).iMean - fval (getLeg s x q).iMean
  onAx s x (fun a => { a with stage.imbU := rd (fval a.stage.imbU + d .u1 .u2), stage.imbV := rd (fval a.stage.imbV + d .v1 .v2),
                              stage.imbW := rd (fval a.stage.imbW + d .w1 .w2), stage.imbN := a.stage.imbN + 1 })
/-- αβ currents: the phases, or star 1 and star 2 (R179). -/
def starVecs (s : State) (x : Axis) : Vec × Vec :=
  let m := liveMean s x
  if dualStar s x then (vclarke (m .u1) (m .v1) (m .w1), vclarke (m .u2) (m .v2) (m .w2))
  else (vclarke (m .u1 + m .u2) (m .v1 + m .v2) (m .w1 + m .w2), ⟨0, 0⟩)
/-- What regulates the current in a chain: angle and speed of the frame and its references. -/
structure Refs where
  theta : F32
  we : Rat
  id : Rat
  iq : Rat
  /-- Crest tracks its angle. -/
  track : Bool := true
  /-- The flux part's correction acts. -/
  pull : Bool := true
  /-- No voltage: the axis is idle. -/
  zero : Bool := false
  /-- Reference of iΔ along d, for a read with star 2 at zero current (09 Table 9.5). -/
  difD : Rat := 0
deriving DecidableEq, Repr
/-- The dq voltage of one regulator with its integrators (R180). -/
structure Reg where
  ud : Rat
  uq : Rat
  uds : Rat
  uqs : Rat
  limited : Bool
  xd : F32
  xq : F32
deriving DecidableEq, Repr
/-- R180 for errors e, currents i, inductances L and gain scale k. -/
def regulate (s : State) (x : Axis) (we ed eq id iq ld lq k : Rat) : Reg :=
  let a := getAx s x
  let t := periodSec s x
  let um := pf s x Par.modMax * fval (busV s x) / sqrt3R
  let dc := parX s x Par.clDecouple
  let ud0 := pf s x Par.clKpD * k * ed + fval a.ctl.xd
  let uq0 := pf s x Par.clKpQ * k * eq + fval a.ctl.xq
  let ud := if dc.getLsbD 0 then ud0 - we * lq * iq else ud0
  let uq1 := if dc.getLsbD 0 then uq0 + we * ld * id else uq0
  let uq := if dc.getLsbD 1 then uq1 + we * pf s x Par.motPsi else uq1
  let uds := clampR ud (-um) um
  let r := fval (fsqrtRat (um * um - uds * uds))
  let uqs := clampR uq (-r) r
  let lim := decide (uds ≠ ud) || decide (uqs ≠ uq)
  let int := fun (xk : F32) (e ki : Rat) =>
    if !lim || decide (e * fval xk < 0) then rd (clampR (fval xk + ki * e * t) (-um) um) else xk
  ⟨ud, uq, uds, uqs, lim, int a.ctl.xd ed (pf s x Par.clKiD), int a.ctl.xq eq (pf s x Par.clKiQ)⟩
/-- Field weakening after the voltage limit (R181); otherwise the plain bound of ID_REF (R183). -/
def fieldWeaken (s : State) (x : Axis) (ud uq : Rat) (limited : Bool) : State :=
  let a := getAx s x
  let il := iLim s x
  if parX s x Par.fwEn == 1 then
    let um := pf s x Par.modMax * fval (busV s x) / sqrt3R
    let ex := fval (fsqrtRat (ud * ud + uq * uq)) - pf s x Par.fwThr * um
    let lo := pf s x Par.idFwMin
    let f := clampR (fval a.ctl.idFw + pf s x Par.fwKi * ex * periodSec s x) lo 0
    onAx s x (fun a => ctlBit 1 (decide (f < 0)) (ctlBit 2 (decide (f = lo) && limited) { a with
      ctl.idFw := rd f, ctl.idRef := rd (max (min (pf s x Par.idRef) f) (-il)) }))
  else onAx s x (fun a => ctlBit 1 false (ctlBit 2 false { a with ctl.idRef := rd (max (pf s x Par.idRef) (-il)) }))
/-- Voltages of the two sets in their stationary frames. -/
def uStar (s : State) (x : Axis) (u : Vec) (th : F32) (second : Bool) : Vec :=
  if second && parX s x Par.dsShift == 30 then vrot u (wrapR (fval th - piR / 6)) else vrot u th
/-- SVM of one set (07 Table 7.2): three duties. -/
def svm3 (s : State) (x : Axis) (u : Vec) : List F32 :=
  let v := fval (busV s x)
  let a := u.x; let b := -u.x / 2 + sqrt3R / 2 * u.y; let c := -u.x / 2 - sqrt3R / 2 * u.y
  let mid := (max a (max b c) + min a (min b c)) / 2
  if v = 0 then [fnan, fnan, fnan] else [a, b, c].map (fun w => rd (mkRat 1 2 + (w - mid) / v))
/-- Balance state of one phase (R184); a leg under a commanded bypass gives up its share of the phase current (04 R81). -/
def balance (s : State) (x : Axis) (gone : Rat) (b : F32) (p q : Leg) : F32 :=
  let i1 := fval (getLeg s x p).iMean; let i2 := fval (getLeg s x q).iMean
  let want := match leavingLeg (getAx s x) with
    | some l => if l = p then -(gone * (i1 + i2)) else if l = q then gone * (i1 + i2) else 0
    | none => 0
  rd (clampR (fval b + pf s x Par.balKi * (i1 - i2 - want) * periodSec s x) (mkRat (-5) 1000) (mkRat 5 1000))
/-- Volt-second correction of one leg (R182). -/
def correct (s : State) (x : Axis) (l : Leg) (d : F32) : F32 :=
  let a := getAx s x
  if !(parX s x Par.clDecouple).getLsbD 2 || (getLeg s x l).edgeSuspect || (heldLegs s x).contains l || !a.pwm.switching || !ffinite d then d
  else
    let c := fval ((a.ctl.dutyApplied[legNo l]?).getD 0) - highTime s x l / periodSec s x
    rd (clampR (fval d + clampR c (mkRat (-2) 100) (mkRat 2 100)) 0 1)
/-- The current part (R178 to R186): the duty set of the chain. -/
def currentPart (s0 : State) (x : Axis) (rf : Refs) (thSensor : F32) (now : Nat) : State :=
  let s1 := sumImb (allLegs.foldl (meanLeg x) s0) x
  let t := periodSec s1 x
  let vs := starVecs s1 x
  let thM := wrapR (fval rf.theta - rf.we * tMeas s1 x)
  let thA := wrapR (fval rf.theta + rf.we * mkRat 3 2 * t)
  let d1 := virot vs.1 thM
  let d2 := if parX s1 x Par.dsShift == 30 then virot vs.2 (wrapR (fval thM - piR / 6)) else virot vs.2 thM
  let dual := dualStar s1 x
  let a := getAx s1 x
  let byp := a.stage.bypassMask != 0
  let both := dual && !byp
  -- currents of the axis: the phases, twice the mean of the stars, or the remaining star alone
  let id := if both then d1.x + d2.x else if dual then d1.x + d2.x else d1.x
  let iq := if both then d1.y + d2.y else if dual then d1.y + d2.y else d1.y
  -- mean voltage and current of the measured period in the stationary frame of star 1 (09 R199, R203)
  let l0 := voltSec s1 x (fun l => highTime s1 x l)
  let u0 : Vec := ⟨l0.x / t, l0.y / t⟩
  let v2 := if parX s1 x Par.dsShift == 30 then virot vs.2 (fdeg 0x41F00000) else vs.2
  let iab : Vec := if dual then ⟨vs.1.x + v2.x, vs.1.y + v2.y⟩ else vs.1
  if rf.zero then
    onAx s1 x (fun a => { a with ctl.id := rd id, ctl.iq := rd iq, ctl.theta := rf.theta, ctl.we := rd rf.we,
                                 seq.duty := some (List.replicate 6 0x3F000000) })
  else
    let idm := if both then id / 2 else id; let iqm := if both then iq / 2 else iq
    let idr := if both then rf.id / 2 else rf.id
    let h := runHook s1 x 3 { ifaceBase s1 x t with accRef := a.ctl.accRef, iqLim := rd (iqRoot s1 x (fval a.ctl.idRef)) } 0
    let want := rf.iq + fval h.1
    let iqSum := limitIq s1 x rf.id rf.we want
    let iqr := if both then iqSum / 2 else iqSum
    let ld := if dual then fval (parX s1 x Par.motLd) / 1000000 else termLd s1 x
    let lq := if dual then fval (parX s1 x Par.motLq) / 1000000 else termLq s1 x
    let dropped := dual && byp
    let s2 := h.2
    let g := regulate s2 x rf.we (idr - idm) (iqr - iqm) idm iqm (if dropped then 0 else ld) (if dropped then 0 else lq) (starScale s2 x)
    let um := pf s2 x Par.modMax * fval (busV s2 x) / sqrt3R
    -- Δ regulator (R185)
    let gone := bypassGone s2 x now
    -- a star under a commanded bypass gives up its share (04 R81)
    let share := match leavingLeg a with | some l => if legOne l then -gone else gone | none => 0
    let dd := (d1.x - d2.x) / 2 - rf.difD - share * idr; let dq := (d1.y - d2.y) / 2 - share * iqr
    let vd := -(pf s2 x Par.dsKpDiff) * dd + fval a.ctl.xdDiff
    let vq := -(pf s2 x Par.dsKpDiff) * dq + fval a.ctl.xqDiff
    let left := um - fval (fsqrtRat (g.uds * g.uds + g.uqs * g.uqs))
    let vm := fval (fsqrtRat (vd * vd + vq * vq))
    let k := if vm ≤ left ∨ vm = 0 then 1 else (max left 0) / vm
    let uD : Vec := if both then ⟨vd * k, vq * k⟩ else ⟨0, 0⟩
    let intD := fun (xk : F32) (e : Rat) => if decide (k = 1) || decide (e * fval xk < 0) then rd (clampR (fval xk + pf s2 x Par.dsKiDiff * e * t) (-um) um) else xk
    let s3 := fieldWeaken (onAx s2 x (fun a => ctlBit 0 g.limited (ctlBit 3 (a.ctl.iqClamped || decide (iqSum ≠ want)) { a with
      ctl.xd := g.xd, ctl.xq := g.xq, ctl.id := rd id, ctl.iq := rd iq, ctl.ud := rd g.uds, ctl.uq := rd g.uqs,
      ctl.xdDiff := if both then intD a.ctl.xdDiff (-dd) else a.ctl.xdDiff, ctl.xqDiff := if both then intD a.ctl.xqDiff (-dq) else a.ctl.xqDiff,
      ctl.theta := rf.theta, ctl.we := rd rf.we }))) x g.ud g.uq g.limited
    let uA := svm3 s3 x (uStar s3 x ⟨g.uds + uD.x, g.uqs + uD.y⟩ thA false)
    let uB := svm3 s3 x (uStar s3 x ⟨g.uds - uD.x, g.uqs - uD.y⟩ thA true)
    let bu := balance s3 x gone a.ctl.balU .u1 .u2; let bv := balance s3 x gone a.ctl.balV .v1 .v2; let bw := balance s3 x gone a.ctl.balW .w1 .w2
    let at3 := fun (l : List F32) (n : Nat) => (l[n]?).getD 0
    let duty := if dual then [at3 uA 0, at3 uB 0, at3 uA 1, at3 uB 1, at3 uA 2, at3 uB 2]
      else [fsub (at3 uA 0) bu, fadd (at3 uA 0) bu, fsub (at3 uA 1) bv, fadd (at3 uA 1) bv, fsub (at3 uA 2) bw, fadd (at3 uA 2) bw]
    let s4 := onAx s3 x (fun a => { a with
      ctl.balU := if dual then a.ctl.balU else bu, ctl.balV := if dual then a.ctl.balV else bv, ctl.balW := if dual then a.ctl.balW else bw,
      seq.nanFlag := a.seq.nanFlag || fisZero (busV s3 x) })
    let out := (duty.zip allLegs).map (fun p => correct s4 x p.2 p.1)
    let s5 := onAx s4 x (fun a => { a with seq.duty := some out })
    crestStep s5 x u0 iab thSensor rf.track rf.pull

/-! References of each axis state (Table 10.1; 09 R207, R208). -/

/-- Whole control periods in CREST_READ_T. -/
def readPeriods (s : State) (x : Axis) (readT : Word) : Nat := (fval readT / 1000 / periodSec s x).floor.toNat
/-- Full half-waves between the first and the last one of a rest read of n periods (09 R207). -/
def readWaves (n : Nat) : Nat := (n - 8) / 8
/-- Periods of the square wave of a rest read: it ends with its last half-wave. What CREST_READ_T leaves beyond whole half-waves
is at zero current (DESIGN CHOICE, log 129). -/
def readLen (n : Nat) : Nat := 8 + 8 * readWaves n
/-- The rest read's square wave in period k of n: the first and the last half-wave last 4 periods, every other one 8, with the
sign reversed at each (09 R207). -/
def readSign (n k : Nat) : Rat :=
  if k < 4 then 1 else if readLen n ≤ k then 0 else if (k - 4) / 8 % 2 = 0 then -1 else 1
/-- Reference of the polarity test after t s (09 R208). -/
def polRef (t amp : Rat) : Rat :=
  if t < mkRat 2 1000 then amp else if t < mkRat 25 10000 then 0 else if t < mkRat 45 10000 then -amp else 0
/-- The sign of the start direction. -/
def dirS (a : AxisSt) : Rat := if a.start.dirNeg then -1 else 1
/-- The open-loop vector moves on by one period toward a speed (10 R229, R233). -/
def turnVector (s : State) (x : Axis) : State :=
  let a := getAx s x
  let w := min (fval a.start.wRamp + pf s x Par.stRampAcc * periodSec s x) (wHandoff s x)
  onAx s x (fun a => { a with start.wRamp := rd w, start.phi := wrapR (fval a.start.phi + dirS a * w * polePairs s x * periodSec s x) })
/-- The stored motor model's terminal saliency ratio reaches CREST_SAL_MIN (09 R198, 11 R262). -/
def storedSalient (s : State) (x : Axis) : Bool :=
  let sig := if dualStar s x then 0 else fval (storX s x Par.phaseLsig) / 2
  decide (fval (storX s x Par.crestSalMin) ≤ termRatio (fval (storX s x Par.motLd) + sig) (fval (storX s x Par.motLq) + sig))
/-- The fit of a polarity test around time e of the test (09 R208): the window is cleared as the last 1 ms of a pulse begins, and
its d-axis entry is taken as the pulse ends. -/
def polarityFit (s : State) (x : Axis) (e : Rat) : State :=
  let t := periodSec s x
  let begins := fun (q : Rat) => decide (e - t < q) && decide (q ≤ e)
  let ends := fun (q : Rat) => decide (e ≤ q) && decide (q < e + t)
  onAx s x (fun a =>
    let c := if ends (mkRat 2 1000) then { a.crest with gPlus := a.crest.g11 } else if ends (mkRat 45 10000) then { a.crest with gMinus := a.crest.g11 } else a.crest
    { a with crest := if begins (mkRat 1 1000) || begins (mkRat 35 10000) then clearFit c else c })
/-- k of a polarity test, a fraction (09 R208). -/
def polarityK (gp gm : F32) : Rat := let m := (fval gp + fval gm) / 2; if m = 0 then 0 else (fval gp - fval gm) / m

/-! Motor measurements: identification (09 R217, R218) and the angle offset (11 R262). -/

/-- The measurement under way is that of the angle offset. -/
def angleOnly (s : State) : Bool := match s.mbx.long with | some (.angleOfs _, _) => true | _ => false
/-- CREST_READ_T as set, s. -/
def readSec (s : State) (x : Axis) : Rat := fval (storX s x Par.crestReadT) / 1000
/-- Time from the start of a measurement to its polarity test. -/
def identPol (s : State) (x : Axis) : Rat := if angleOnly s then readSec s x else mkRat 1 1000 + 2 * readSec s x
/-- Time from its start to the spin: the read of star 2 comes between in dual-star mode. -/
def identSpinAt (s : State) (x : Axis) : Rat := identPol s x + mkRat 5 1000 + (if dualStar s x then readSec s x else 0)
/-- The step of a measurement at e s from its start (09 Table 9.5; 11 R262). -/
def identStepAt (s : State) (x : Axis) (t : Nat) : IdentStep :=
  let a := getAx s x
  let e := nsSec (t - a.start.t0); let r := readSec s x
  if angleOnly s then
    if storedSalient s x then (if e < r then .readA else if e < r + mkRat 5 1000 then .polarity else .ended)
    else if e < pf s x Par.stAlignT / 1000 then .zero else .ended
  else if e < mkRat 1 1000 then .zero
  else if e < mkRat 1 1000 + r then .readA
  else if e < identPol s x then .readB
  else if e < identPol s x + mkRat 5 1000 then .polarity
  else if e < identSpinAt s x then .star
  else if parX s x Par.identSpin != 1 || a.crest.ident.spinFail then .ended
  else match a.crest.ident.reached with
    | none => if e < identSpinAt s x + 2 then .spin else .ended
    | some t0 => if t < t0 + 500000000 then .spin else if fisZero a.ctl.wRef then .ended else .down
/-- Peak-to-peak current of each leg over the profile of a period; the largest of them (04 R66). -/
def legRipple (s : State) (x : Axis) : F32 :=
  let a := getAx s x
  let span := fun (l : Leg) =>
    let ps := (List.range (profN s x)).map (fun i => (profPoint a l i).1)
    match ps with
    | [] => (0 : Rat)
    | p :: qs => qs.foldl max p - qs.foldl min p
  rd (allLegs.foldl (fun m l => max m (span l)) 0)
/-- The angle of the fit's d-axis in [0, π): the branch a read leaves open (09 R201, R207). -/
def fitAxis (s : State) (x : Axis) : F32 :=
  let d := fval (getAx s x).crest.th + salErr s x
  rd (if d < 0 then d + piR else if piR ≤ d then d - piR else d)
/-- What a step that ended leaves (09 Table 9.5): the fits of the reads, the d-axis θ̂ takes, the polarity. -/
def identLeave (s : State) (x : Axis) : State :=
  let c := (getAx s x).crest
  match c.ident.step with
  | .readA =>
    let s1 := onAx s x (fun a => { a with crest := clearFit { a.crest with
      ident := { a.crest.ident with a11 := a.crest.g11, a12 := a.crest.g12, a22 := a.crest.g22 } } })
    if angleOnly s then onAx s1 x (fun a => { a with crest.th := fitAxis s x }) else s1
  | .readB =>
    let half := fun (p q : F32) => rd ((fval p + fval q) / 2)
    let s1 := onAx s x (fun a => { a with crest := clearFit { a.crest with
      ident := { a.crest.ident with b11 := a.crest.g11, b12 := a.crest.g12, b22 := a.crest.g22, ripple := legRipple s x },
      g11 := half c.ident.a11 c.g11, g12 := half c.ident.a12 c.g12, g22 := half c.ident.a22 c.g22 } })
    onAx s1 x (fun a => { a with crest.th := fitAxis s1 x })
  | .polarity =>
    let back := decide (polarityK c.gPlus c.gMinus ≤ -(pf s x Par.crestPolMin / 100))
    onAx s x (fun a => { a with crest := clearFit { a.crest with
      th := if back then wrapR (fval a.crest.th + piR) else a.crest.th, polarity := true } })
  | .star => onAx s x (fun a => { a with crest.ident.gStar := rd ((fval c.g11 + fval c.g22) / 2) })
  | _ => s
/-- A step begins: the spin's target, or its end (09 Table 9.5). -/
def identEnter (s : State) (x : Axis) (n : IdentStep) : State :=
  match n with
  | .spin => onAx s x (fun a => { a with crest.ident.spinTo := rd (wRated s x / 5), ctl.wRef := 0, ctl.wRefPrev := 0, ctl.xs := 0 })
  | .down => onAx s x (fun a => { a with crest.ident.spinTo := 0 })
  | .ended => onAx s x (fun a => { a with crest.ident.spinFail :=
      a.crest.ident.spinFail || (parX s x Par.identSpin == 1 && !angleOnly s && a.crest.ident.reached.isNone) })
  | _ => s
/-- A chain of a measurement moves to the step of its time. -/
def identMove (s : State) (x : Axis) (t : Nat) : State :=
  let n := identStepAt s x t
  if (getAx s x).crest.ident.step = n then s
  else onAx (identEnter (identLeave s x) x n) x (fun a => { a with crest.ident.step := n })
/-- What a chain of a measurement adds: E · i of the reads, the fit of the polarity test, the speed reached and the flux of the
spin (09 Table 9.5). -/
def identSample (s : State) (x : Axis) (t : Nat) : State :=
  let a := getAx s x; let c := a.crest
  match c.ident.step with
  | .polarity => polarityFit s x (nsSec (t - a.start.t0) - identPol s x)
  | .spin =>
    let at_ := decide (wRated s x / 5 ≤ absR (crestWm s x))
    let fx := fval (fsqrtRat (fval c.fxA * fval c.fxA + fval c.fxB * fval c.fxB))
    match c.ident.reached with
    | none => if at_ then onAx s x (fun a => { a with crest.ident.reached := some t }) else s
    | some _ => onAx s x (fun a => { a with crest.ident.fxSum := rd (fval c.ident.fxSum + fx), crest.ident.fxN := c.ident.fxN + 1 })
  | .readA | .readB => 
    let i := fval a.ctl.id; let j := fval a.ctl.iq
    onAx s x (fun a => { a with crest.ident.eSum := rd (fval c.ident.eSum + fval c.eD * i + fval c.eQ * j),
                                crest.ident.iSum := rd (fval c.ident.iSum + i * i + j * j) })
  | _ => s
/-- References of a measurement in its step (09 Table 9.5; 11 R262): CREST_READ_I and CREST_POL_I as set. -/
def identRefs (s : State) (x : Axis) (t : Nat) : Refs :=
  let a := getAx s x
  let e := nsSec (t - a.start.t0); let r := readSec s x
  let k := fun (from_ : Rat) => ((e - from_) / periodSec s x).floor.toNat
  let n := readPeriods s x (storX s x Par.crestReadT)
  let i := min (fval (storX s x Par.crestReadI)) (iLim s x)
  let z : Refs := { theta := 0, we := 0, id := 0, iq := 0, track := false }
  match a.crest.ident.step with
  | .zero =>
    -- the alignment of the angle measurement (11 R262)
    if angleOnly s then
      { z with theta := wrapR (fval (fdeg (parX s x Par.stAlignAng))),
               id := min (pf s x Par.stAlignI) (iLim s x) * min 1 (e / (pf s x Par.stAlignRise / 1000)) }
    else z
  | .readA => { z with id := readSign n (k (if angleOnly s then 0 else mkRat 1 1000)) * i }
  | .readB => { z with iq := readSign n (k (mkRat 1 1000 + r)) * i }
  | .polarity => { z with theta := a.crest.th, id := polRef (e - identPol s x) (min (fval (storX s x Par.crestPolI)) (iLim s x)) }
  | .star =>
    let j := readSign n (k (identPol s x + mkRat 5 1000)) * i
    { z with id := j, difD := j / 2 }
  | .spin | .down =>
    let ab := angleB s x t
    { theta := ab.1, we := ab.2, id := 0, iq := fval a.ctl.iqRef }
  | .ended => z
/-- The references the selected mode and axis state give the current part, with the start steps advanced. -/
def chainRefs (s : State) (x : Axis) (mode : SeqMode) (t : Nat) : State × Refs :=
  let a := getAx s x
  let ab := angleB s x t
  let loops : Refs := { theta := ab.1, we := ab.2, id := fval a.ctl.idRef, iq := fval a.ctl.iqRef }
  let vec := fun (s : State) (i : Rat) (w : Rat) (pull : Bool) =>
    ({ theta := (getAx s x).start.phi, we := w, id := i, iq := 0, track := (getAx s x).start.ax != .align, pull := pull } : Refs)
  match mode with
  | .idle => (s, { loops with zero := true })
  | .ident => (s, identRefs s x t)
  | _ =>
    match a.start.ax with
    | .measure => (s, { loops with zero := true })
    | .blockedWait => (s, { loops with zero := true })
    | .disabled => (s, { loops with zero := true })
    | .retryWait => (s, { loops with zero := true })
    | .activeShort => (s, { loops with zero := true })
    | .read =>
      (onAx s x (fun a => { a with start.readPos := a.start.readPos + 1 }),
       { theta := 0, we := 0, id := readSign (readPeriods s x (parX s x Par.crestReadT)) a.start.readPos * startAmp s x Par.crestReadI, iq := 0, track := false })
    | .polarity =>
      (onAx s x (fun a => { a with start.readPos := a.start.readPos + 1 }),
       { theta := a.crest.th, we := 0, id := polRef ((a.start.readPos : Rat) * periodSec s x) (startAmp s x Par.crestPolI), iq := 0, track := false })
    | .align =>
      let rise := pf s x Par.stAlignRise / 1000
      let k := if a.start.phase2 then 1 else min 1 (nsSec (t - a.start.t0) / rise)
      (s, vec s (startAmp s x Par.stAlignI * k) 0 false)
    | .ramp =>
      let s1 := turnVector s x
      (s1, vec s1 (startAmp s x Par.stRampI) (dirS a * fval (getAx s1 x).start.wRamp * polePairs s x) true)
    | .converge =>
      if a.start.path == .align then
        let s1 := turnVector s x
        (s1, vec s1 (startAmp s x Par.stRampI) (dirS a * fval (getAx s1 x).start.wRamp * polePairs s x) true)
      else if a.start.path == .saliency then (s, loops)
      else (s, { loops with id := 0, iq := 0 })
    | _ =>
      match a.start.merge with
      | some t0 =>
        let k := min 1 (nsSec (t - t0) / (pf s x Par.stMergeT / 1000))
        (s, { loops with id := (1 - k) * fval a.start.mergeD + k * loops.id, iq := (1 - k) * fval a.start.mergeQ + k * loops.iq })
      | none => (s, loops)

/-- Rotation against the start direction in alignment phase 1 steps the vector once by 135 °e (10 R228). -/
def alignStep (before : F32) (s : State) (x : Axis) : State :=
  let a := getAx s x
  if a.start.ax == .align && !a.start.alignDone then
    let now := atan2Of a.crest.fxB a.crest.fxA
    let turned := rd (fval a.start.turned + fval (wrapR (fval now - fval before)))
    let back := decide (dirS a * fval turned ≤ -(piR / 4))
    onAx s x (fun a => { a with
      start.turned := turned,
      start.stepped := a.start.stepped || (back && !a.start.phase2),
      start.phi := if back && !a.start.phase2 && !a.start.stepped then wrapR (fval a.start.phi + dirS a * 3 * piR / 4) else a.start.phi })
  else s

/-- The loops of R157 run in RUN and FAULT chains, in a start that converges, and the speed part in the spin of identification. -/
def loopsLive (a : AxisSt) (mode : SeqMode) : Bool :=
  mode == .run || mode == .fault || (mode == .start && a.start.ax == .converge) ||
    (mode == .ident && (a.crest.ident.step == .spin || a.crest.ident.step == .down))
/-- A chain (R157): position, speed and current parts of the selected mode, each where the directory holds it. -/
def runChain (s : State) (x : Axis) (mode : SeqMode) (posDue spdDue curDue : Bool) (t : Nat) : State :=
  let s0 := if mode == .ident then identMove s x t else s
  let live := loopsLive (getAx s0 x) mode
  let s1 := if live && posDue then positionPart s0 x else s0
  let s2 := if live && spdDue then speedPart s1 x else s1
  if !curDue then s2
  else
    let e := ((getAx s2 x).start.readPos : Rat) * periodSec s2 x
    let p := chainRefs s2 x mode t
    let flux0 := atan2Of (getAx s x).crest.fxB (getAx s x).crest.fxA
    let thS := (wrapR (fval (elecOf s x (fbPos s x))))
    let s3 := alignStep flux0 (currentPart p.1 x p.2 thS t) x
    if mode == .ident then identSample s3 x t
    else if mode == .start && (getAx s2 x).start.ax == .polarity then polarityFit s3 x e
    else s3

end Sys2Proof.Machine
end

