-- ==== Sys2Proof/Machine/Attempt.lean ====
section
/-!
DEFINITION. A start attempt: its measurement, the method it resolves to, its failure (10 R223 to R231).
-/

namespace Sys2Proof.Machine
open Sys2Proof

/-- Target in the sense of a start's alignment: the setpoint kept for acceptance, by mode (10 R224, R228, R238). -/
def startTarget (s : State) (x : Axis) : Rat :=
  let a := getAx s x
  if a.sp.src == 3 then (if a.sp.curveOn then fval (intxyOf a.sp.curveX (parX s x Par.curveNpts).toNat (fun k => parX s x (Par.curveX0 + k))) else 0)
  else match (if a.sp.kept.isSome then a.sp.kept else a.sp.shadow) with
    | some p => if p.kind == 2 then 0 else fval p.value
    | none => 0
/-- An attempt begins at MEASURE with the start direction of its t0 (10 R223, R228, R231). -/
def enterMeasure (s : State) (x : Axis) (path : StartPath) (retry : Nat) : State :=
  let g := startTarget s x
  onAx s x (fun a =>
    let b := setAx .measure a
    { b with start := { ax := .measure, path := path, retry := retry, dirNeg := decide (g < 0), anyDir := decide (g = 0),
                        attempts := a.start.attempts + 1, lastFail := a.start.lastFail, legTest := a.start.legTest } })
/-- The angle of the axis comes from its sensor (11 R240; 10 R225). -/
def sensorAngle (s : State) (x : Axis) : Bool := parX s x Par.crestMode != 1
/-- Convergence ends a start: the brake release starts, or setpoints are accepted at once (10 Tables 10.3, 10.4). The
speed reference is the measured speed (Table 10.3), or zero after a saliency start. -/
def startConverged (s : State) (x : Axis) : State :=
  let w := if (getAx s x).start.path == .saliency then (0 : F32) else rd (speedFb s x).1
  let hb := parX s x Par.hbEn == 1 && (getAx s x).stage.brake == .off
  onAx s x (fun a =>
    let b := { a with ctl.wRef := w, ctl.wRefPrev := w, start.seeded := false }
    if hb then releaseBrake (setAx .release b) else acceptSp (setAx .run b))
/-- The caught angle is carried to the first boundary, with its flux (10 R226). -/
def seedCatch (s : State) (x : Axis) (t : Nat) : State :=
  let a := getAx s x
  if !a.start.seeded then s
  else
    let th := wrapR (fval a.crest.th + fval a.crest.we * nsSec (t - a.start.t0))
    let ps := pf s x Par.motPsi
    onAx s x (fun a => { a with
      start.seeded := false, crest.th := th, crest.lamA := rd (ps * fval (cosOf th)), crest.lamB := rd (ps * fval (sinOf th)) })

/-- Terminal saliency ratio of the motor model (09 R198). -/
def modelRatio (s : State) (x : Axis) : Rat := termRatio (termLd s x) (termLq s x)
/-- The method of a start from rest with Crest as the angle source, on a view of the parameters (R225). -/
def restMethod (s : State) (x : Axis) (g : Nat → Word) : StartPath :=
  if g Par.crestMode != 1 then .sensor
  else if g Par.stMethod == 1 then .saliency
  else if g Par.stMethod == 2 then .align
  else if g Par.crestSalEn == 1 && decide (fval (g Par.crestSalMin) ≤ modelRatio s x) then .saliency
  else .align
/-- A failed attempt (R231): gates off at the next boundary, or the wait at once where they are off already. -/
def failAttempt (s : State) (x : Axis) (reason : Nat) : State :=
  let a := getAx s x
  let more := decide (a.start.retry < (parX s x Par.stRetries).toNat)
  let r := BitVec.ofNat 8 reason
  let s1 := raise0 s 0x1806 (scopeOf x) r
  let s2 := onAx s1 x (fun a => { a with start.lastFail := r })
  if a.pwm.switching then
    onAx s2 x (fun a => { a with start.gateOffNext := true, start.retryNext := more, start.failReason := r })
  else if more then onAx s2 x (fun a => setAx .retryWait (brakeOff (gatesOff a)))
  else raise0 (onAx s2 x (fun a => disableAxis (brakeOff a))) 0x4802 (scopeOf x) noDetail
/-- The alignment begins: the vector stands at ST_ALIGN_ANG and rotation counts from zero (R228). -/
def beginAlign (s : State) (x : Axis) : State :=
  onAx s x (fun a =>
    let b := setAx .align (if a.pwm.switching then a else armGates a)
    { b with
      start := { a.start with
        ax := .align, path := .align, phi := wrapR (fval (fdeg (parX s x Par.stAlignAng))), t0 := s.clk.now, turned := 0, stepped := false,
        phase2 := false, risen := false, alignDone := false, wRamp := 0 } })
/-- The rest read begins with a new fit and no known angle (09 R207). -/
def beginRead (s : State) (x : Axis) : State :=
  onAx s x (fun a => { setAx .read (armGates a) with
    start.path := .saliency, start.readPos := 0, start.t0 := s.clk.now,
    crest := { a.crest with
      th := 0, we := 0, p11 := 0, p12 := 0, p22 := 0, q11 := 0, q12 := 0, q21 := 0, q22 := 0, polarity := false } })
/-- A start from rest (R225): from the sensor, by a rest read, or by alignment and ramp. -/
def startFromRest (s : State) (x : Axis) : State :=
  match restMethod s x (parX s x) with
  | .saliency => beginRead s x
  | .align => beginAlign s x
  | _ =>
    -- in cross-check Crest takes angle and polarity from the sensor (09 R216)
    let th := elecOf s x (fbPos s x)
    let cross := parX s x Par.crestMode == 2
    onAx s x (fun a => { setAx .converge (armGates a) with
      start.path := .sensor, start.t0 := s.clk.now,
      crest.th := if cross then wrapR (fval th) else a.crest.th, crest.polarity := a.crest.polarity || cross })
/-- The catch of a flying start (R226): Crest is seeded from the measurement, the current integrators from zero or the
back-EMF; backward rotation is braked through zero. -/
def catchRotor (s : State) (x : Axis) (th : F32) (we : Rat) (back : Bool) : State :=
  let seed := parX s x Par.crestMode != 0
  let xq : F32 := if (parX s x Par.clDecouple).getLsbD 1 then 0 else rd (we * pf s x Par.motPsi)
  onAx s x (fun a => { setAx .converge (armGates a) with
    start.path := .flying, start.t0 := s.clk.now, start.backward := back, start.seeded := seed,
    crest := if seed then { a.crest with th := th, we := rd we, polarity := true } else a.crest,
    ctl.xd := 0, ctl.xq := xq, ctl.xdDiff := 0, ctl.xqDiff := 0 })
/-- The rotor turns at ω_m, at least w_c (Table 10.2): forward, backward, or blocked. -/
def turning (s : State) (x : Axis) (th : F32) (we wm : Rat) : State :=
  let g := (getAx s x).start
  let forward := g.anyDir || (decide (wm < 0) == g.dirNeg)
  if forward then catchRotor s x th we false
  else if parX s x Par.fsRevEn == 1 then catchRotor s x th we true
  else onAx s x (fun a => setAx .blockedWait a)
/-- Threshold w_c (R224). -/
def wCatch (s : State) (x : Axis) : Rat := pf s x Par.fsCatch * wRated s x / 100
/-- Nominal reference of a converter, V (06 R136). -/
def vRef (s : State) (cv : Nat) : Rat :=
  let r := (getAx s (cvLeg cv).1).conv.refSel
  if r = 1 then fval (parD s Par.refExtNom) else if r = 2 then mkRat 33 10 else mkRat 5 2
/-- A signed code. -/
def sCode (c : BitVec 16) : Rat := (c.toInt : Rat)
/-- The leg whose land a phase is measured at: its leg 1, or the other one while a bypass holds that off (R223). -/
def landLeg (s : State) (x : Axis) (l : Leg) : Leg := if (heldLegs s x).contains l then partnerLeg l else l
/-- The converter that measures a leg's land (R223). -/
def landCv (s : State) (x : Axis) (l : Leg) : Nat := axisNo x * 6 + legNo (landLeg s x l)
/-- The land voltages of a sample as an αβ vector, on the scale of 06 Table 6.2. -/
def landVec (s : State) (x : Axis) (p : LandSample) : Vec :=
  let v := fun (l : Leg) (c : BitVec 16) => sCode c * mkRat 3125 1000000 * vRef s (landCv s x l) / mkRat 5 2
  vclarke (v .u1 p.u) (v .v1 p.v) (v .w1 p.w)
/-- Angles made continuous: each step is taken as the shortest one. -/
def unwrapGo : Rat → List F32 → List Rat
  | _, [] => []
  | q, th :: r => let q' := q + fval (wrapR (fval th - q)); q' :: unwrapGo q' r
/-- Least-squares slope of pairs. -/
def lsSlope (ps : List (Rat × Rat)) : Rat :=
  let n := (ps.length : Rat)
  let mt := ps.foldl (fun m p => m + p.1) 0 / n; let my := ps.foldl (fun m p => m + p.2) 0 / n
  let d := ps.foldl (fun m p => m + (p.1 - mt) * (p.1 - mt)) 0
  if d = 0 then 0 else ps.foldl (fun m p => m + (p.1 - mt) * (p.2 - my)) 0 / d
/-- What a measurement found (R223): mean |u| in V, ω_e in rad/s, θ_u at the window's end, and whether a converter that measured
is suspect (VLAND has no window of its own, 06 R141). -/
structure Measurement where
  u : F32
  we : F32
  thetaU : F32
  flagged : Bool
deriving DecidableEq, Repr
/-- Evaluation of the land samples of a window (R223): ω_e over its second half. Thoevo evaluates it; angles are rounded to binary32
(log 18). -/
def evalLands (s : State) (x : Axis) (m : List LandSample) : Measurement :=
  let vs := m.map (landVec s x)
  let th := vs.map (fun v => rd (angleR (rd v.y) (rd v.x)))
  let t1 := (m.getLast?.map (·.t)).getD 0
  let half := msNs (parX s x Par.fsMeasT) / 2
  let ps := (m.zip (unwrapGo 0 th)).filter (fun p => decide (t1 ≤ p.1.t + half))
  { u := rd (vs.foldl (fun n v => n + fval (vmag v)) 0 / (max m.length 1 : Nat)),
    we := rd (lsSlope (ps.map (fun p => (nsSec p.1.t, p.2)))),
    thetaU := (th.getLast?).getD 0,
    flagged := [Leg.u1, .v1, .w1].any (fun l => (getCv s (landCv s x l)).suspect) }
/-- The outcome of Table 10.2. -/
def measured (s : State) (x : Axis) (m : Measurement) : State :=
  let u := fval m.u; let we := fval m.we
  let wm := we / polePairs s x
  let emf := absR we * pf s x Par.motPsi
  let th := if sensorAngle s x then wrapR (fval (elecOf s x (fbPos s x))) else wrapR (fval m.thetaU - sgnR we * piR / 2)
  if m.flagged then failAttempt s x 4
  else if u < mkRat 1 10 then startFromRest s x
  else if u < emf * mkRat 7 10 ∨ emf * mkRat 13 10 < u then failAttempt s x 4
  else if absR wm < wCatch s x then startFromRest s x
  else turning s x th we wm
/-- The outcome from the sensor's speed with FS_MEAS_T = 0 (R223). -/
def measuredBySensor (s : State) (x : Axis) : State :=
  let v := speedFb s x
  if v.2 && decide (wCatch s x ≤ absR v.1) then turning s x (wrapR (fval (elecOf s x (fbPos s x)))) (v.1 * polePairs s x) v.1
  else startFromRest s x
/-- A measurement is evaluated; with FS_MEAS_T = 0 the sensor's speed decides (R223, R224). -/
def evaluated (s : State) (x : Axis) (m : List LandSample) : State :=
  if fisZero (parX s x Par.fsMeasT) then measuredBySensor s x else measured s x (evalLands s x m)
/-- An attempt begins; with FS_MEAS_T = 0 it passes MEASURE at once. -/
def beginAttempt (s : State) (x : Axis) (path : StartPath) (retry : Nat) : State :=
  let s1 := enterMeasure s x path retry
  if fisZero (parX s1 x Par.fsMeasT) then measuredBySensor s1 x else s1

end Sys2Proof.Machine
end

