-- ==== Sys2Proof/Machine/Leg.lean ====
section
/-!
DEFINITION. Legs: edge sensing and dead-time, bypass, imbalance, ratings, bootstrap refresh (chapter 04).
-/

namespace Sys2Proof.Machine
open Sys2Proof

/-- A duration parameter in ns as ticks of 250 ps, to the nearest, a half tick up (06 R122). -/
def ticksOf (w : Word) : Nat := nsTicks w
/-- Both dead-times of every leg start at DT_INIT on entry to RUN (R71). -/
def initDead (s : State) (x : Axis) (a : AxisSt) : AxisSt :=
  let d := ticksOf (parX s x Par.dtInit)
  { a with legs := sixMap (fun g => { g with dtRise := d, dtFall := d }) a.legs }
/-- The leg's switches are commanded: gates switch and no bypass holds the leg off. -/
def legLive (s : State) (x : Axis) (l : Leg) : Bool := (getAx s x).pwm.switching && !(heldLegs s x).contains l

/-- A 60 ns low-side pulse at a tick: its two commanded transitions, each with its dead-time (R68). -/
def refreshAt (t : Nat) (g : LegSt) : LegSt :=
  { g with trans := (t + 240, g.dtRise, true) :: (t, g.dtFall, false) :: g.trans }
/-- BOOT_REFRESH_PULSE (R68; 05 R106): a leg held on gets its pulse at the next valley of its own carrier. -/
def execBootRefreshPulse (x : Axis) (l : Leg) (s : State) : Out :=
  let v := nextValley (getAx s x).pwm l (max (nowTick s) (getAx s x).pwm.carAt)
  when_ s (legLive s x l && (getLeg s x l).hi)
    (onLeg (onAx s x (fun a => { a with stage.bootRefresh := a.stage.bootRefresh + 1 })) x l (refreshAt v))

/-- Dead-time after an edge (R71): adapted on a soft edge, DT_MIN on a hard one; DT_INIT without adaptation. -/
def deadTime (s : State) (x : Axis) (soft : Bool) (sinceGateOff : Nat) : Nat :=
  let lo := ticksOf (parX s x Par.dtMin); let hi := ticksOf (parX s x Par.dtMax)
  if parX s x Par.dtAdapt == 0 then ticksOf (parX s x Par.dtInit)
  else if soft then min (max (sinceGateOff + ticksOf (parX s x Par.dtMargin)) lo) hi
  else lo

/-- A crossing at a tick reaches the edge port, relative to the leg's carrier start, and the dead-time of its kind is
updated, for the leg's next edge of that kind on (R71). -/
def edgeSeen (s : State) (x : Axis) (l : Leg) (rising soft : Bool) (tick dt : Nat) (g : LegSt) : LegSt :=
  let rel := tick - (carrierStart (getAx s x).pwm l tick).getD 0
  let g1 := redate tick dt rising { g with edges := (tick, rising) :: g.edges }
  if rising then { g1 with riseAt := rel, riseSoft := soft, dtRise := dt } else { g1 with fallAt := rel, fallSoft := soft, dtFall := dt }
/-- SWITCH_NODE_EDGE (R71, R73): the crossing at a tick of the drive's time. -/
def execSwitchNodeEdge (x : Axis) (l : Leg) (rising soft : Bool) (tick sinceGateOff : Nat) (s : State) : Out :=
  let dt := deadTime s x soft sinceGateOff
  when_ s (legLive s x l) (onLeg s x l (fun g =>
    let n := g.seenRun + 1
    { edgeSeen s x l rising soft tick dt g with
      missRun := 0, seenRun := if 1000 ≤ n then 0 else n, edgeSuspect := g.edgeSuspect && decide (n < 1000) }))

/-- EDGE_MISSING (R73): counted; volt-seconds from the commanded instant, dead-time DT_MAX; 16 in a row mark the leg. With
DT_ADAPT = 0 the dead-time stays DT_INIT: R71 says so of every edge and R73 names DT_MAX (DESIGN CHOICE, log 121). -/
def execEdgeMissing (x : Axis) (l : Leg) (rising : Bool) (commanded : Nat) (s : State) : Out :=
  let dt := if parX s x Par.dtAdapt == 0 then ticksOf (parX s x Par.dtInit) else ticksOf (parX s x Par.dtMax)
  let n := (getLeg s x l).missRun + 1
  let s1 := onLeg s x l (fun g =>
    { edgeSeen s x l rising false commanded dt g with edgeMiss := g.edgeMiss + 1, missRun := n, seenRun := 0, edgeSuspect := g.edgeSuspect || decide (n = 16) })
  when_ s (legLive s x l) (if n = 16 then raise0 s1 0x2202 (scopeOf x) (legIdx x l) else s1)

/-- The leg whose trip the axis's first source names (R80): a leg comparator, or the bootstrap entry's detail. -/
def trippedLeg (s : State) (x : Axis) : Option Nat :=
  let n := (getAx s x).pwm.scarpFirst.toNat
  if n / 6 = axisNo x ∧ n < 12 then some (n % 6)
  else if n = 24 + axisNo x then
    (s.flt.list.find? (fun e => e.code == 0x520A && e.scope == scopeOf x)).map (fun e => e.detail.toNat % 6)
  else none

/-- Motor terminals still find a partner leg or star (R79, R81): phase mode needs PHASE_SAT_OK. -/
def mayBypass (s : State) (x : Axis) : Bool :=
  (getAx s x).stage.bypassMask == 0 && (dualStar s x || parX s x Par.phaseSatOk == 1)

/-- The bypass of a leg is in force: mask bit, LIMIT 0x3205 (R78, R80, R81). -/
def setBypass (s : State) (x : Axis) (l : Leg) : State :=
  raise1 (onAx { s with cairn.pendingTr := s.cairn.pendingTr ++ [(.legBypassed x l, s.clk.now)] } x (fun a =>
    { a with
      stage.bypassMask := a.stage.bypassMask ||| (bitW (legNo l)).setWidth 6, stage.bypass := .none,
      stage.bypassAt := s.clk.now }))
    0x3205 (scopeOf x) (legIdx x l)

/-- LEG_AUTO_BYPASS (R79, R80): the pulse test of the tripped leg; a shorted leg ends with TRIP 0x5209, otherwise the leg
is bypassed, the trip cleared for this cause, and a flying start follows. -/
def execLegAutoBypass (x : Axis) (pulseMa : Nat) (s : State) : Out :=
  match trippedLeg s x with
  | none => skip s
  | some k =>
    let l := legOf k
    let n := (getAx s x).pwm.scarpFirst.toNat
    let s1 := clearLatch s (bitW n)
    let s2 := (s1.flt.list.filter (fun e => entryBit e == some n)).foldl (fun t e => leaveList t e 2) s1
    let restart := (getAx s x).stage.autoBypass && !tripped s2 x && !s.pwr.safe
    let s3 := setBypass s2 x l
    let s4 := onAx s3 x (fun a => { a with stage.autoBypass := false, stage.tripHold := a.stage.tripHold && !restart })
    let s4 := if restart then beginAttempt s4 x .flying 0 else s4
    when_ s (isReady s && tripped s x && parX s x Par.legAutoBypass == 1 && mayBypass s x && hosted s x)
      (if 10000 < pulseMa then raise1 s 0x5209 (scopeOf x) (legIdx x l)
       else if s1.scarp.latch.getLsbD n then s
       else s4)

/-- LEG_BYPASS_RAMP_END (R81): the share is zero; at the next boundary the gates are held off. -/
def execLegBypassRampEnd (x : Axis) (s : State) : Out :=
  match (getAx s x).stage.bypass with
  | .ramp l => done s (onAx s x (fun a => { a with stage.bypass := .atSwap l }))
  | _ => skip s

/-- One phase of a 100 ms block (R64): raised when its mean exceeds LEG_IMB_WARN and the block before did not. -/
def imbPhase (x : Axis) (s : State) (p : Nat × F32) : State :=
  let a := getAx s x
  let exceeds := flt (parX s x Par.legImbWarn) (fabs p.2)
  let was := a.stage.imbRaised.getLsbD p.1
  let s1 := onAx s x (fun a => { a with stage.imbRaised :=
    if exceeds then a.stage.imbRaised ||| (bitW p.1).setWidth 3 else a.stage.imbRaised &&& ~~~((bitW p.1).setWidth 3) })
  if exceeds && !was then raise s1 0x2201 (scopeOf x) (BitVec.ofNat 8 p.1) p.2 false else s1

/-- LEG_IMB_BLOCK_END (R64): the block means of the three phases, phase mode only. -/
def execLegImbBlockEnd (x : Axis) (s : State) : Out :=
  let g := (getAx s x).stage
  let mean := fun (t : F32) => fThoevo (fval t / ((max g.imbN 1 : Nat) : Rat))
  let s1 := [(0, mean g.imbU), (1, mean g.imbV), (2, mean g.imbW)].foldl (imbPhase x) s
  when_ s (!dualStar s x && decide (0 < g.imbN))
    (onAx s1 x (fun a => { a with stage.imbU := 0, stage.imbV := 0, stage.imbW := 0, stage.imbN := 0 }))

/-- I_f of Table 4.4 at a leg frequency in kHz: linear between the rows (R75). -/
def ratedIf (kHz : Rat) : Rat := if kHz ≤ 100 then 25 else 25 - (kHz - 100) / 20
/-- I_cont² / I_f² and I_peak / 70 A at a case temperature (R75). -/
def derateFactor (tc : Rat) : Rat := if tc ≤ 80 then 1 else if 120 ≤ tc then 0 else (120 - tc) / 40
/-- I_cont and I_peak of R75, before a bypass. -/
def fullRatings (s : State) (x : Axis) : F32 × F32 :=
  let k := derateFactor (fval s.th.tCase)
  let vm : Rat := if flt 0x42700000 (vmHi s) then mkRat 9 10 else 1
  let i := ratedIf (fval (pwmFreqAct s x)) * vm
  (fsqrtRat (i * i * k), fThoevo (70 * k * vm))
/-- I_cont and I_peak of an axis (R76): halved in phase mode by a bypass, and from the acceptance of a commanded one on
(Table 4.6, R81). -/
def ratings (s : State) (x : Axis) : F32 × F32 :=
  let g := (getAx s x).stage
  let r := fullRatings s x
  if (g.bypassMask ≠ 0 ∨ g.bypass ≠ .none) ∧ !dualStar s x then (fThoevo (fval r.1 / 2), fThoevo (fval r.2 / 2)) else r
/-- Window of R77, newest first, 20 s of 1 ms blocks. -/
def pushI2 (w : List F32) (v : F32) : List F32 := (v :: w).take 20000
/-- Blocks of the window above a squared rating, and the window's mean square. -/
def i2Over (w : List F32) (r2 : Rat) : Nat := (w.filter (fun v => decide (r2 < fval v))).length
def i2Mean (w : List F32) : Rat := (w.foldl (fun t v => t + fval v) 0) / 20000
/-- One axis of the millisecond tick: ratings, then the I²t limit (R76, R77). The leg rating is half of R75's I_cont, which a
bypass leaves as it is (log 113). The whole 20 s window is judged by the rating of now: DESIGN CHOICE (log 134), the rule does not
say that time gathered under an earlier rating keeps that one. -/
def rateAxis (s : State) (x : Axis) : State :=
  let r := ratings s x
  let s1 := onAx s x (fun a => { a with stage.iCont := r.1, stage.iPeak := r.2 })
  let s2 := allLegs.foldl (fun t l => onLeg t x l (fun g =>
    { g with i2Window := pushI2 g.i2Window ((s.th.iSq[axisNo x * 6 + legNo l]?).getD 0) })) s1
  let i := fval (fullRatings s x).1
  let r2 := i * i / 4
  let ws := (sixList (getAx s2 x).legs).map (·.i2Window)
  if !(getAx s x).stage.i2tLimit && ws.any (fun w => decide (2000 ≤ i2Over w r2)) then
    raise1 (onAx s2 x (fun a => { a with stage.i2tLimit := true })) 0x3206 (scopeOf x) noDetail
  else if (getAx s x).stage.i2tLimit && ws.all (fun w => decide (i2Mean w ≤ r2 * mkRat 64 100)) then
    endCause (onAx s2 x (fun a => { a with stage.i2tLimit := false })) 0x3206 (scopeOf x) noDetail
  else s2

/-- RATING_UPDATE_TICK (R76, R77). -/
def execRatingUpdateTick (s : State) : Out := when_ s (thoevoUp s) (rateAxis (rateAxis s .a) .b)

end Sys2Proof.Machine
end

