-- ==== Sys2Proof/Machine/Place.lean ====
section
/-!
DEFINITION. Placements and banks: arming, swapping and activating what Cairn compiled (07 R161 to R164, R170; 14 R298
to R312).
-/

namespace Sys2Proof.Machine
open Sys2Proof

/-! Ledger (14 R304, R305). -/

/-- LEDGER_TOTAL of a load: the draw through the buck (R305). -/
def ledgerTotal (load : F32) : F32 := fThoevo (fval load * mkRat 100 85)
/-- LEDGER_TOTAL of the active placement. -/
def activeTotal (s : State) : F32 := match s.cairn.active with | some p => ledgerTotal p.load | none => 0
/-- The placement in force is judged against the budget in force: bit 6, and WARN 0x2C03 when it rises (R305). -/
def judgeBudget (s : State) (warn : Bool) : State :=
  let exceeds := flt (parD s Par.ledgerBudget) (activeTotal s)
  let s1 := { s with cairn.overBudget := exceeds }
  if exceeds && warn then raise s1 0x2C03 0 noDetail (activeTotal s) false else s1

/-- PLACE_ID of a placement: the CRC-32 of its banks and tables, whose serial form the spec leaves out (log 36). -/
def placeId (p : Placement) : Word :=
  let bank := fun (b : BankImage) => (b.ops ++ b.dir).flatMap (fun (w : BitVec 64) => [w.setWidth 32, (w >>> 32).setWidth 32])
  Config.tableCrc (bank p.out.imgA ++ bank p.out.imgB ++ p.out.tables.flatMap (fun t => t.2.2.1 :: t.2.2.2))
/-- PLACE_ID of the active placement. -/
def activeId (s : State) : Word := match s.cairn.active with | some p => placeId p | none => 0

/-! Banks (07 R161, R162). -/

/-- The inactive bank of an engine. -/
def inactiveBank (s : State) (e : Engine) : BankImage := let g := getEng s e; if g.active then g.bank0 else g.bank1
/-- A bank hosts an axis. -/
def bankHosts (img : BankImage) : Axis → Bool | .a => img.hostA | .b => img.hostB
/-- Write bank 0, or bank 1, of an engine, with its check bits (R156, R161). -/
def writeBank (one : Bool) (img : BankImage) (g : EngineSt) : EngineSt :=
  if one then { g with bank1 := img, check1 := checkBits img } else { g with bank0 := img, check0 := checkBits img }
/-- Thoevo writes the inactive bank and arms it (R161). -/
def armBank (img : BankImage) (s : State) (e : Engine) : State :=
  onEng s e (fun g => { writeBank (!g.active) img g with armed := true, swapPending := false, bankBad := false, swapRefused := false })
/-- Some arm or swap is under way (R161, R164): a further arm is refused with RG_SWAP_BUSY. -/
def swapBusy (s : State) : Bool :=
  s.ridge.rga.armed || s.ridge.rgb.armed || s.ridge.rga.swapPending || s.ridge.rgb.swapPending || s.ridge.handover.isSome
/-- Both engines' banks of a placement are armed. -/
def armAll (s : State) (o : CairnOut) : State := armBank o.imgB (armBank o.imgA s .rga) .rgb
/-- The axis whose boundary swaps an engine (R162); of a bank that hosts none, an axis that leaves it. -/
def leadAxis (s : State) (e : Engine) : Axis :=
  let img := inactiveBank s e
  if img.hostA then .a else if img.hostB then .b else if (getAx s .a).seq.host == some e then .a else .b
/-- One axis at the swap of an engine: hosted by the new bank, counts restart, FIRST and the init list are due (R162,
R163). -/
def swapAxis (e : Engine) (img : BankImage) (s : State) (x : Axis) : State :=
  onAx s x (fun a =>
    if bankHosts img x then
      { a with seq.host := some e, seq.first := true, seq.initPending := true, seq.periods := 0, seq.speedRuns := 0 }
    else if a.seq.host = some e then { a with seq.host := none } else a)
/-- An armed and checked bank becomes active (R162). -/
def swapEngine (s : State) (e : Engine) : State :=
  let img := inactiveBank s e
  bothAxes.foldl (swapAxis e img) (onEng s e (fun g => { g with active := !g.active, swapPending := false, armed := false }))

/-! Activation (14 R298, R299, R308). -/

/-- The Next placement values of a placement come into force (14 R298). -/
def bringPlacement (s : State) (p : Placement) : State :=
  let isNext := fun (a : Nat) => (parDef (a % 0x8000)).any (fun d => d.eff == .placement)
  { s with inForce := p.pars.foldl (fun m v => parPut m v.1 v.2) (s.inForce.filter (fun v => !isNext v.1)) }
/-- The axis part of a placement. -/
def placeOf (p : Placement) : Axis → Option AxisPlace | .a => p.axisA | .b => p.axisB
/-- A Next placement value as a placement was compiled with it. -/
def placedPar (p : Placement) (a : Nat) : Word := (mapGet p.pars a).getD (parDefault a)
/-- One axis when a placement takes effect: its timebase starts, or restarts when H, n or COMMIT_SEL changed (05 R93); a
changed reference clears REF_OK (06 R137). -/
def activateAxis (old : Option Placement) (p : Placement) (s : State) (x : Axis) : State :=
  let was := old.bind (fun q => placeOf q x)
  match placeOf p x with
  | none => onAx s x (fun a => { a with seq.host := none, pwm.running := false, stage.vgdOn := false, seq.mode := .idle,
                                        seq.chainBusy := false, seq.chainQueued := false })
  | some ap =>
    let restart := match was with | some w => w.h != ap.h || w.n != ap.n || w.commitSel != ap.commitSel | none => true
    let ref := (placedPar p (parAddr x Par.refSel)).setWidth 8
    let up := s.pwr.base == .ready
    onAx s x (fun a =>
      let b := { a with seq.host := some ap.engine,
                        stage.vgdOn := up && !stoHolds s }
      let c := if restart then
          { timebaseStart (nowTick s) ap b with pwm.running := up, seq.chainBusy := false, seq.chainQueued := false, seq.duty := none,
                                                conv.profBusy := false }
        else b
      if a.conv.refSel == ref then c
      else { c with conv.refSel := ref, conv.refOk := false, conv.refWait := true, conv.chkLast := none })
/-- The network and CAN run as the placement and the reference allow (02 R36, 15 Table 15.3). -/
def placeLinks (s : State) : State :=
  let up := thoevoUp s && !s.sum.pfCommit
  canPower (up && s.cairn.active.isSome && s.clk.extRef && parD s Par.canEn == 1)
    (netPower (up && netPlaced s && (s.pwr.base == .ready || parD s Par.holdNet == 1)) s)

/-- A placement is active: values, timebases, tables, links, user segments linked, INFO 0x1C01 for a compile (detail 0) or
a restored one (detail 1) (14 R298, R299, R312). -/
def activate (s : State) (p : Placement) (detail : Option (BitVec 8)) : State :=
  let old := s.cairn.active
  let s1 := bringPlacement { s with cairn.active := some p, cairn.arming := none } p
  let s2 := placeLinks (loadTables (bothAxes.foldl (activateAxis old p) s1) p.out)
  let s3 := { s2 with nv.segs := s2.nv.segs.map (fun g =>
      if (placedPar p (parAddr (axisOf (g.key / 4)) Par.usrEn)).getLsbD (g.key % 4) then { g with linked := true } else g),
                      pwr.noPlacement := false }
  match detail with
  | some d => raise0 { s3 with
      cairn.overBudget := false, cairn.streams := if d = 0 then List.replicate 16 {} else s3.cairn.streams } 0x1C01 0 d
  | none => s3
/-- A completed re-placement (14 R308): counted, with its time from trigger to swap. -/
def replaced (s : State) : State :=
  match s.cairn.pendingTr with
  | [] => s
  | (_, t0) :: rest =>
    let us := frnd (mkRat (s.clk.now - t0) 1000)
    judgeBudget { s with cairn.pendingTr := rest, cairn.replaceCount := s.cairn.replaceCount + 1,
                         cairn.replaceTMax := fmax s.cairn.replaceTMax us } true
/-- What follows a swap: once no bank of the incoming placement waits, it is active; one that found the engines busy is
armed now (14 Table 14.6). -/
def finishSwap (s : State) : State :=
  if swapBusy s then s
  else match s.cairn.arming with
    | none => s
    | some (rt, p) =>
      if activeBank s .rga == p.out.imgA && activeBank s .rgb == p.out.imgB then
        if rt then replaced (activate s p none) else activate s p (some 0)
      else armAll s p.out
/-- Bring in a compiled placement: armed now; while an arm, a swap or a hand-over is under way the request is refused with
RG_SWAP_BUSY, and Cairn arms again once the engines are free (07 R161, R165, 14 Table 14.6). -/
def bringBanks (s : State) (rt : Bool) (p : Placement) : State :=
  let s1 := { s with cairn.arming := some (rt, p) }
  if swapBusy s then { s1 with ridge.rga.swapRefused := true, ridge.rgb.swapRefused := true } else armAll s1 p.out

/-- Put a bank image into the active bank of an engine whose domain is off (15 Table 15.3). -/
def loadBank (s : State) (e : Engine) (img : BankImage) : State :=
  onEng s e (fun g => writeBank g.active img g)
/-- Entry to READY with the placement that waits for it, if any (14 R299, Table 14.6). -/
def toReady (s : State) : State :=
  match s.cairn.arming with
  | none => enterReady s
  | some (rt, p) =>
    let s1 := loadBank (loadBank s .rga p.out.imgA) .rgb p.out.imgB
    enterReady (if rt then replaced (activate s1 p none) else activate s1 p (some 0))

/-! Hand-over (07 R164) and engine test (07 R170). -/

/-- A used directory entry with the words of its segment. -/
def dirSegs (img : BankImage) : List (BitVec 64 × List (BitVec 64)) :=
  (img.dir.filter (fun w => (dirOf w).len != 0)).map (fun w => (w, segOps img (dirOf w)))
/-- The directory entry of a segment moved to another op address. -/
def dirAt (start : Nat) (w : BitVec 64) : BitVec 64 := (w &&& ~~~((0xFFF : BitVec 64) <<< 44)) ||| (BitVec.ofNat 64 start <<< 44)
/-- Segments laid one after the other; entries that share a segment go on sharing it. -/
def packSegs (l : List (BitVec 64 × List (BitVec 64))) : List (BitVec 64) × List (BitVec 64) :=
  let t := l.foldl (fun (acc : List (BitVec 64) × List (BitVec 64) × List (List (BitVec 64) × Nat)) g =>
    let (ops, dir, seen) := acc
    match seen.find? (fun q => q.1 == g.2) with
    | some q => (ops, dir ++ [dirAt q.2 g.1], seen)
    | none => (ops ++ g.2, dir ++ [dirAt ops.length g.1], (g.2, ops.length) :: seen)) ([], [], [])
  (t.1, t.2.1)
/-- A bank of given segments; it lists no init entry, since a hand-over copies the axis's words (R163, R164). -/
def packBank (hostA hostB : Bool) (l : List (BitVec 64 × List (BitVec 64))) : BankImage :=
  let p := packSegs l
  let i : BankImage := { ops := p.1, dir := p.2, hostA := hostA, hostB := hostB }
  { i with crc := bankCrc i }
/-- The two images of a hand-over of axis x: the source's without it, the destination's with it. -/
def handImages (x : Axis) (src dst : BankImage) : BankImage × BankImage :=
  let isX := fun (g : BitVec 64 × List (BitVec 64)) => (dirOf g.1).axis == axisNo x
  let a := x == .a; let b := x == .b
  (packBank (src.hostA && !a) (src.hostB && !b) ((dirSegs src).filter (fun g => !isX g)),
   packBank (dst.hostA || a) (dst.hostB || b) ((dirSegs dst).filter (fun g => !isX g) ++ (dirSegs src).filter isX))
/-- Cairn places the hand-over of an axis to the other engine (R164). -/
def beginHandover (s : State) (x : Axis) : State :=
  match (getAx s x).seq.host with
  | none => s
  | some e =>
    let i := handImages x (activeBank s e) (activeBank s (otherEng e))
    let s1 := armBank i.2 (armBank i.1 s e) (otherEng e)
    { s1 with ridge.handover := some x, ridge.handoverLate := false }
/-- The bracketed term of R166 for a placed axis: parts and dispatch cycles of its largest chain. -/
def chainTerm (p : AxisPlace) : Nat := p.cyc.1 + p.cyc.2.1 + p.cyc.2.2 + 4 * p.segs
/-- Cycles of 2.5 ns in a control period: T in ticks of 250 ps over ten. -/
def periodCycles (p : AxisPlace) : Nat := p.n * p.h / 10
/-- R166 for one axis alone. -/
def fitsAlone (p : AxisPlace) : Bool := decide (64 + chainTerm p + p.init.1 + p.init.2 ≤ periodCycles p)
/-- R166 and R167 for both axes on one engine. -/
def fitsBoth (p q : AxisPlace) : Bool :=
  p.n * p.h == q.n * q.h && decide (50000 ≤ p.n * p.h) &&
  decide (64 + chainTerm p + chainTerm q + p.init.1 + p.init.2 + q.init.1 + q.init.2 ≤ periodCycles p) &&
  decide (64 + chainTerm p ≤ periodCycles p - 600) && decide (64 + chainTerm q ≤ periodCycles q - 600)
/-- R164 for an axis handed to an engine that hosts no other: its chain ends on the source, its copy takes 600 cycles more,
and its first chain on the destination still ends within the period. -/
def handFits (p : AxisPlace) : Bool :=
  decide (((64 + chainTerm p + 600) - periodCycles p) + 64 + chainTerm p ≤ periodCycles p)
/-- Axes an engine hosts. -/
def hostedOn (s : State) (e : Engine) : List Axis := bothAxes.filter (fun x => (getAx s x).seq.host == some e)
/-- All placed axes fit on one engine, which works (R166, R167, R170). -/
def allFitOn (s : State) (e : Engine) : Bool :=
  !(getEng s e).failed && !(getEng s e).underTest &&
  (match placedAx s .a, placedAx s .b with
   | some p, some q => fitsBoth p q
   | some p, none => fitsAlone p && handFits p
   | none, some q => fitsAlone q && handFits q
   | none, none => true)
/-- The two banks' segments fit one bank (R156). -/
def banksFit (s : State) : Bool :=
  let i := handImages .a (activeBank s .rga) (activeBank s .rgb)
  let j := handImages .b i.1 i.2
  j.2.ops.length ≤ 4096 && j.2.dir.length ≤ 32
/-- An engine can be tested: the other one can host all placed axes (R164, R166, R167, R170). -/
def testFits (s : State) (e : Engine) : Bool := allFitOn s (otherEng e) && banksFit s
/-- The test of an engine begins (R170): its axes leave first, one at a time; skipped where the other engine cannot host
them all. -/
def startEngineTest (s : State) (e : Engine) : State :=
  let s1 := { s with ridge.nextTest := otherEng e }
  if !testFits s e then { s1 with ridge.testSkipped := true }
  else
    let s2 := onEng { s1 with ridge.testSkipped := false, ridge.testMoved := hostedOn s e } e (fun g => { g with underTest := true })
    match hostedOn s e with
    | x :: _ => beginHandover s2 x
    | [] => s2
/-- After a hand-over has swapped: the next axis leaves the engine under test, or the next one returns after the test
(R164, R170). -/
def nextHandover (s : State) : State :=
  if swapBusy s then s
  else
    match [Engine.rga, .rgb].find? (fun e => (getEng s e).underTest) with
    | some e => match hostedOn s e with | x :: _ => beginHandover s x | [] => s
    | none => match s.ridge.testMoved with
      | x :: rest => beginHandover { s with ridge.testMoved := rest } x
      | [] => s

end Sys2Proof.Machine
end

