-- ==== Sys2Proof/Machine/Control.lean ====
section
/-!
DEFINITION. Period boundaries, chain ends and commit points: setpoints, sequencer, network lock, duty sets (01 R18 to
R24; 05 R91 to R102; 07 R153 to R169; 08 R177, R190 to R196; 16 R340, 18 R382 for the telemetry latches).
-/

namespace Sys2Proof.Machine
open Sys2Proof

/-! Network lock (05 R99, R100). -/

/-- Largest frequency trim, 250 ppm of H, in 2^-16 tick (R100). -/
def trimLimit (s : State) (x : Axis) : Int := ((getAx s x).pwm.h * 65536 / 4000 : Nat)
/-- Half-periods of a control period (01 R18). -/
def halves (s : State) (x : Axis) : Int := match placedAx s x with | some p => (max p.n 1 : Nat) | none => 2
/-- The phase error at a boundary, ns (R99): where gPTP time modulo T stands against NL_PHASE_OFS, compared with 2 ns
resolution, in [−T/2, T/2). -/
def nlError (s : State) (x : Axis) : Int :=
  let t : Int := (periodTicks s x : Nat)
  let ofs : Int := (fval (parX s x Par.nlPhaseOfs) * 4000).floor
  let d := (((getAx s x).pwm.carAt : Int) + 4 * s.net.ofs - ofs) % t
  (if t ≤ 2 * d then d - t else d) / 8 * 2
/-- The shift in ticks that removes a phase error by one half-period (R100): shorter where that half-period allows it, else
longer, by up to one control period (log 25). -/
def nlJump (s : State) (x : Axis) (e : Int) : Int :=
  let p := (getAx s x).pwm
  if e * 4 < (thisHalf p : Nat) then -(e * 4) else (periodTicks s x : Nat) - e * 4
/-- The lock at a boundary with phase error e, ns: a late boundary is made up by shorter half-periods; at the limit of the
frequency trim the lock does not close (R99, R100; log 25). -/
def nlBoundary (s : State) (x : Axis) (e : Int) : State :=
  let a := getAx s x
  let mag := e.natAbs
  let lim := trimLimit s x
  let trim := max (-lim) (min lim (Config.nlTrim e (parX s x Par.nlBw) a.pwm.trim))
  let sl := slewLimit s x
  let want := max (-sl) (min sl (trim - e * 4 * 65536 / halves s x))
  let base := fun (n : NlState) (lk ls : Nat) => onAx s x (fun a => { a with
    pwm := { (if n == .acquire && !a.pwm.switching then shiftHalf (nlJump s x e) a.pwm else a.pwm) with
      nl := n, phaseErr := fofInt e, lockRun := lk, lossRun := ls, trim := trim,
      slew := if n == .acquire && a.pwm.switching then want - trim else 0 } })
  match a.pwm.nl with
  | .wait => if gptpOk s then onAx s x (fun a => { a with pwm.nl := .acquire, pwm.lockRun := 0, pwm.lossRun := 0 }) else s
  | .acquire =>
    let n := if mag ≤ 20 ∧ trim.natAbs < lim.natAbs then a.pwm.lockRun + 1 else 0
    if (parX s x Par.nlLockCnt).toNat ≤ n then base .locked 0 0 else base .acquire n 0
  | .locked =>
    let n := if decide (fval (parX s x Par.nlLossThr) < (mag : Rat)) then a.pwm.lossRun + 1 else 0
    if 4 ≤ n then raise (base .acquire 0 0) 0x2301 (scopeOf x) noDetail (fofInt e) false else base .locked 0 n
  | _ => s

/-! Setpoints (08 R177, R190 to R196). -/

/-- Fraction and turns of a position setpoint as one signed value (01 R4). -/
def spPos (p : Setpoint) : Int := p.turns.toInt * 4294967296 + (p.frac.toNat : Int)
/-- Cycle length of the source in force, ns: the receive set's, or the SYNC period (R192, R193). -/
def cycleNs (s : State) (x : Axis) : Nat :=
  if (getAx s x).sp.src == 2 then s.can.syncPeriod.toNat * 1000
  else match s.cairn.active with
    | some p => ((p.cyclic.find? (fun c => !c.transmit && c.set == (parX s x Par.tvRxSet).toNat)).map (·.cycleNs)).getD 0
    | none => 0
/-- A missed cycle (R193, Table 8.4): only after acceptance (10 R238). The counts are judged as they stand, so that a limit
lowered below the run acts at the next missed cycle. -/
def missCycle (s : State) (x : Axis) : State :=
  let a := getAx s x
  if !a.sp.accepted then s
  else
    let n := a.sp.missRun + 1
    let s1 := onAx s x (fun a => { a with
      sp.missRun := n, sp.missed := a.sp.missed + 1,
      sp.now := if a.sp.mode == 2 then { a.sp.now with vff := 0, tff := 0 } else a.sp.now })
    if (parX s x Par.spStopCnt).toNat ≤ n then raise0 s1 0x4605 (scopeOf x) noDetail
    else if (parX s x Par.spHoldCnt).toNat ≤ n ∧ a.sp.hold = false then
      raise0 (onAx s1 x (fun a => { a with sp.hold := true })) 0x2601 (scopeOf x) noDetail
    else s1
/-- A setpoint becomes the one in force at this boundary (R191, R192). -/
def applySetpoint (s : State) (x : Axis) (p : Setpoint) (t : Nat) : State :=
  onAx s x (fun a => { a with
    sp.now := p, sp.isNew := true,
    sp.prevPos := if p.kind == 2 then some (a.ctl.posRef, t) else none })
/-- A cyclic setpoint of the mode in force applies; the count of missed cycles restarts (Table 8.4). -/
def applyCyclic (x : Axis) (t : Nat) (s : State) (p : Setpoint) : State :=
  if p.kind == (getAx s x).sp.mode then
    onAx (applySetpoint s x p t) x (fun a => { a with sp.missRun := 0, sp.hold := false })
  else missCycle s x
/-- Network lock is on for an axis (05 Table 5.1; 01 R24). -/
def lockOn (s : State) (x : Axis) : Bool := (getAx s x).pwm.nl == .locked || (getAx s x).pwm.nl == .holdover
/-- Setpoints of a Traverse set apply by the instant of their cycle: frames carry it (18 R380) and the boundaries follow gPTP
time; else they apply by their arrival (01 R24; log 130). -/
def byInstant (s : State) (x : Axis) : Bool := parD s Par.tvReqSync == 1 && lockOn s x
/-- How long after its instant a cycle of a Traverse set is judged: its application offset; where a setpoint applies at its
arrival plus the offset, the cycle must have passed as well (01 R24; log 130). -/
def judgeLag (s : State) (x : Axis) (cyc : Nat) : Nat := usNs (parX s x Par.spOffset) + (if byInstant s x then 0 else cyc)
/-- One cycle of a Traverse set is judged: missed where no setpoint came for it (R193). -/
def judgeCycle (x : Axis) (s : State) (d : Nat) : State := if (getAx s x).sp.got.contains d then s else missCycle s x
/-- Setpoints of the cyclic sources at a boundary (R191, R193): the cycles of a Traverse set that are due are judged, then what
has come applies in its order. -/
def cyclicSetpoints (s : State) (x : Axis) (t : Nat) : State :=
  let now := gptpNow s
  let a := getAx s x
  let cyc := cycleNs s x
  let traverse := a.sp.src == 1 && decide (0 < cyc)
  let lag := judgeLag s x cyc
  let d0 := a.sp.nextDue.getD ((now - lag + cyc - 1) / cyc * cyc)
  let n := if traverse && decide (d0 + lag ≤ now) then (now - d0 - lag) / cyc + 1 else 0
  let s1 := (List.range n).foldl (fun (u : State) (k : Nat) => judgeCycle x u (d0 + k * cyc)) s
  let due := a.sp.cyclic.filter (fun e => decide (e.1 ≤ now))
  let s2 := due.foldl (fun (u : State) (e : Nat × Setpoint) => applyCyclic x t u e.2) s1
  onAx s2 x (fun b => { b with sp.cyclic := b.sp.cyclic.filter (fun e => decide (now < e.1)),
                               sp.nextDue := if traverse then some (d0 + n * cyc) else none })
/-- The change of CTRL_MODE, bumpless (R177): the references start where the axis is. Until a position part has run, the speed
parts of position mode hold the measured speed (DESIGN CHOICE, log 127). -/
def switchMode (s : State) (x : Axis) (m : BitVec 8) : State :=
  let w := rd (speedFb s x).1
  let own : Setpoint := if m == 0 then { kind := 0, value := (getAx s x).ctl.iqRef } else if m == 1 then { kind := 1, value := w }
    else { kind := 2, frac := BitVec.ofInt 32 (posOf s x % 4294967296), turns := BitVec.ofInt 32 (posOf s x / 4294967296) }
  onAx s x (fun a => { a with
    sp.mode := m, sp.now := own, sp.prevPos := none,
    ctl.posRef := if m == 2 then posOf s x else a.ctl.posRef,
    ctl.wTgt := if m == 2 then w else a.ctl.wTgt,
    ctl.wRef := if m == 0 then a.ctl.wRef else w,
    ctl.wRefPrev := if m == 2 then 0 else if m == 1 then w else a.ctl.wRef })
/-- Setpoints at a boundary: a mode change first (R194), then a visible mailbox setpoint, then the cycle's (R191, R193). -/
def boundarySetpoints (s : State) (x : Axis) (t : Nat) (spdDue : Bool) : State :=
  let s0 := onAx s x (fun a => { a with sp.isNew := false })
  let a := getAx s0 x
  let want := (parX s0 x Par.ctrlMode).setWidth 8
  if a.start.ax == .disabled then onAx s0 x (fun a => { a with sp.mode := want })
  else if a.sp.accepted && want != a.sp.mode && spdDue then switchMode s0 x want
  else if !a.sp.accepted then s0
  else
    let s1 := match a.sp.shadow with
      | some p => if p.kind == a.sp.mode then onAx (applySetpoint s0 x p t) x (fun a => { a with sp.shadow := none }) else s0
      | none => s0
    cyclicSetpoints s1 x t
/-- The position reference of the chain: stepped, or moved linearly over one cycle (R192). -/
def movePosRef (s : State) (x : Axis) (t : Nat) : State :=
  let a := getAx s x
  if a.sp.mode != 2 || !a.sp.accepted then s
  else
    let goal := spPos a.sp.now
    let cyc := cycleNs s x
    let cyclicSrc := a.sp.src == 1 || a.sp.src == 2
    let r := match a.sp.prevPos with
      | some (p0, t0) =>
        if parX s x Par.spInterp == 1 && cyclicSrc && decide (0 < cyc) && decide (t < t0 + cyc) then
          p0 + (goal - p0) * ((t - t0 : Nat) : Int) / (cyc : Int)
        else goal
      | none => a.ctl.posRef
    onAx s x (fun a => { a with ctl.posRef := r })
/-- CiA 402 state of an axis. -/
def getCia (s : State) (x : Axis) : Cia402 := match x with | .a => s.can.a | .b => s.can.b
/-- Change it. -/
def onCia (s : State) (x : Axis) (f : Cia402 → Cia402) : State :=
  match x with | .a => { s with can.a := f s.can.a } | .b => { s with can.b := f s.can.b }
/-- Radians of one CAN position unit (18 R390). -/
def canUnit (s : State) : Rat := 2 * piR / (2 ^ (parD s Par.canPosBits).toNat : Nat)
/-- Target reached: the position error has stayed within the window for its time (18 R390). -/
def canWindow (s : State) (x : Axis) (t : Nat) : State :=
  let inside := decide (absR (fval (getAx s x).ctl.posErr) ≤ ((getCia s x).window.toNat : Rat) * canUnit s)
  onCia s x (fun c =>
    let since := c.inWindow.getD t
    if inside then { c with inWindow := some since, reached := decide (since + c.windowMs.toNat * 1000000 ≤ t) }
    else { c with inWindow := none, reached := false })
/-- The queued target begins once the one before it is reached (18 R390). -/
def canNext (s : State) (x : Axis) : State :=
  let c := getCia s x
  if c.reached && c.queued.isSome && c.goal == some (getAx s x).ctl.posRef then
    onCia s x (fun c => { c with goal := c.queued, queued := none, reached := false, inWindow := none })
  else s
/-- One step of the trapezoid toward the target, fed as position and velocity feed-forward (18 R390): a free course whose
speed never exceeds the profile's. -/
def canPlan (s : State) (x : Axis) (goal : Int) : State :=
  let a := getAx s x
  let c := getCia s x
  let top := (c.profVel.toNat : Rat) * canUnit s
  let go := fun {α : Type} (f : Int → BitVec 32 → Int → Rat → Rat → Rat → Rat → α) =>
    f a.ctl.posRef c.planV goal top (pf s x Par.accMax) (pf s x Par.decMax) (tsOf s x * multP s x)
  let r := (go Config.ppPos, go Config.ppSpeed)
  let lim := max top (absR (fval c.planV))
  let v := if absR (fval r.2) ≤ lim then r.2 else rd (clampR (fval r.2) (-lim) lim)
  onCia (onAx s x (fun a => { a with
    sp.now := { kind := 2, frac := BitVec.ofInt 32 (r.1 % 4294967296), turns := BitVec.ofInt 32 (r.1 / 4294967296), vff := v },
    sp.isNew := true, sp.prevPos := none, ctl.posRef := r.1 })) x (fun c => { c with planV := v })
/-- Profile position mode at the position part (18 R390). -/
def canPosition (s : State) (x : Axis) (t : Nat) : State :=
  let a := getAx s x
  if a.sp.src != 2 || a.sp.mode != 2 || !a.sp.accepted then onCia s x (fun c => { c with goal := none, queued := none, planV := 0 })
  else
    let s1 := canNext (canWindow s x t) x
    match (getCia s1 x).goal with
    | some g => if (getCia s1 x).mode == 1 then canPlan s1 x g else s1
    | none => s1
/-- The filtered curve input at the speed-part rate (R195): a first-order low-pass (log 23). -/
def curveTick (s : State) (x : Axis) : State :=
  let a := getAx s x
  if (a.sp.src != 3 && a.start.ax != .disabled) || !a.sp.curveSeen then s
  else onAx s x (fun a => { a with sp.curveX := lowPass a.sp.curveX (fval a.sp.curveIn) (tsOf s x) (pf s x Par.curveFilt / 1000) })

/-! Sequencer (07 R157 to R160). -/

/-- The flags sampled at a boundary (Table 7.5). -/
def seqFlags (s : State) (x : Axis) (spdDue posDue : Bool) : BitVec 16 :=
  let a := getAx s x
  BitVec.ofNat 16 (bitsOf [a.seq.trip, s.pwr.safe, a.seq.hbLoss, a.seq.rgFault, a.seq.first, spdDue, posDue, a.sp.isNew,
    a.sp.hold, a.pwm.nl == .locked, a.stage.bypassMask != 0, dualStar s x && a.stage.bypassMask == 0, fbOk s x,
    a.seq.usr.getLsbD 0, a.seq.usr.getLsbD 1, a.seq.usr.getLsbD 2])
/-- Mode of the chain (R159). -/
def selectMode (a : AxisSt) : SeqMode := if a.seq.trip || a.seq.hbLoss || a.seq.rgFault then .fault else a.seq.written
/-- A STOP of the Ridge subsystem on an axis; the sequencer flag switches its brake output off at once (10 Table 10.9). -/
def ridgeStop (s : State) (x : Axis) (code : BitVec 16) (detail : BitVec 8) (value : F32) : State :=
  onAx (raise (onAx s x (fun a => { a with seq.rgFault := true })) code (scopeOf x) detail value true) x brakeOff
/-- A chain still running at the boundary is aborted and sends no duty set; two in a row set the fault flag (01 R23). R23 is silent
on the state words and POSTs of an aborted segment: they stand as if it had run to END (DESIGN CHOICE, log 131). -/
def overrun (s : State) (x : Axis) : State :=
  let a := getAx s x
  if a.seq.chainBusy || a.seq.chainQueued then
    let n := a.seq.overruns + 1
    let s1 := onAx s x (fun a => { a with seq.duty := none, seq.tele := [], seq.chainBusy := false, seq.chainQueued := false,
                                          seq.rgOvr := a.seq.rgOvr + 1, seq.overruns := n, seq.nanFlag := false })
    if n = 2 then ridgeStop s1 x 0x4501 noDetail fnan else s1
  else onAx s x (fun a => { a with seq.overruns := 0 })
/-- Gates change at a boundary: a stop, a failed attempt, an active short or a bypass takes effect (10 R231, R235; 12
R274; 04 R81). -/
def boundaryGates (s : State) (x : Axis) : State :=
  let a := getAx s x
  if a.start.gateOffNext then
    if a.start.retryNext then
      onAx s x (fun a => { setAx .retryWait (brakeOff (gatesOff a)) with start.retryNext := false, start.stop := none })
    else
      let s1 := onAx s x (fun a => disableAxis (brakeOff a))
      -- the last retry failed (10 R231)
      if a.start.failReason != 0 then raise0 s1 0x4802 (scopeOf x) noDetail else s1
  else if a.start.stop == some .activeShort && !a.pwm.shorted then
    onAx s x (fun a => { setAx .activeShort (brakeOff (gatesOff a)) with pwm.shorted := true })
  else match a.stage.bypass with
    | .atSwap l =>
      let s1 := setBypass s x l
      -- during a start the start is abandoned and begins again at MEASURE (10 Table 10.11)
      let st := a.start.ax
      if st == .disabled || st == .run || st == .stopping || st == .activeShort then s1
      else beginAttempt (onAx s1 x gatesOff) x .sensor a.start.retry
    | _ => s
/-- The engine whose lead axis this is swaps its pending bank; a hand-over swaps both engines at the axis's boundary,
withheld when the source chain has not ended (R162, R164). -/
def boundarySwap (s : State) (x : Axis) : State :=
  if s.ridge.handover = some x then
    if !(s.ridge.rga.swapPending && s.ridge.rgb.swapPending) then s
    else if (getAx s x).seq.chainBusy || (getAx s x).seq.chainQueued then { s with ridge.handoverLate := true }
    else
      let src := ((getAx s x).seq.host).getD .rga
      nextHandover (finishSwap { swapEngine (swapEngine s src) (otherEng src) with ridge.handover := none })
  else
    let due := fun (s : State) (e : Engine) => (getEng s e).swapPending && s.ridge.handover.isNone && leadAxis s e == x
    let one := fun (s : State) (e : Engine) => if due s e then swapEngine s e else s
    -- an engine that gives the axis up swaps before the one that takes it
    let src := ((getAx s x).seq.host).getD .rga
    let s1 := one (one s src) (otherEng src)
    finishSwap s1
/-- The first chain on a new bank writes the axis's init list (R163). -/
def writeInit (s : State) (x : Axis) (e : Engine) : State :=
  if !(getAx s x).seq.initPending then s
  else
    let mine := initOf (activeBank s e) x
    onAx (onEng s e (fun g => { g with file := mine.foldl (fun m p => mapWrite 0 m p.2.1 p.2.2) g.file })) x
      (fun a => { a with seq.initPending := false })
/-- A value in force by its parameter index, of the axis where it has one. -/
def parOf (s : State) (x : Axis) (i : Nat) : Word := if (parDef i).any (·.perAxis) then parX s x i else parD s i
/-- A supervisor word of an axis (Table 7.3): a run-time parameter, or a word of the setpoint in force, as Cairn placed it. -/
def supWord (s : State) (x : Axis) (k : Nat) : Word :=
  let n := (Config.supName (activeId s) (axisNo x) k).toNat
  let p := (getAx s x).sp.now
  if n < 0xFFF0 then parOf s x n
  else match n - 0xFFF0 with
    | 0 => p.value
    | 1 => p.frac
    | 2 => p.turns
    | 3 => p.vff
    | 4 => p.tff
    | 5 => (getAx s x).sp.mode.setWidth 32
    | _ => 0
/-- What the channel of a shared-channel view holds: its latest SI value and its status (Table 7.3). -/
def viewOf (s : State) (k : Nat) : F32 × Bool := (s.conv.si[(Config.viewChannel (activeId s) k).toNat]?).getD (0, false)
/-- The word a port shows a chain (Table 7.3), frozen at the boundary t (R153). -/
def portWordOf (s : State) (x : Axis) (t p : Nat) : Word :=
  let a := getAx s x
  let f := a.fb
  let b := fun (v : Bool) => if v then f1 else (0 : F32)
  let pos := srcPos s x
  if portHalf 0 0x60 x p then (match mapGet a.conv.profile ((p - axisNo x * 0x60)) with | some (v, _) => v | none => 0)
  else if portHalf 0xC0 0x60 x p then
    (match mapGet a.conv.profile (p - 0xC0 - axisNo x * 0x60) with | some (_, w) => b (!w.getLsbD 7) | none => 0)
  else if 0x180 ≤ p ∧ p < 0x1C0 then (viewOf s (p - 0x180)).1
  else if 0x1C0 ≤ p ∧ p < 0x200 then b (viewOf s (p - 0x1C0)).2
  else if portHalf 0x200 0x20 x p then
    match p - 0x200 - axisNo x * 0x20 with
    | 0 => BitVec.ofInt 32 (pos % 4294967296)
    | 1 => BitVec.ofInt 32 (pos / 4294967296)
    | 2 => fofInt (-((sampleLag s x t : Nat) : Int))
    | 3 => f.speed
    | 4 => b f.speedValid
    | 5 => let e := fval (if parX s x Par.fbSrc == 2 then hallAngle s x t else elecOf s x (fbPos s x)); rd (if e < 0 then e + 2 * piR else e)
    | 6 => b (fbOk s x)
    | 7 => (fbStatus s x).setWidth 32
    | 8 => f.hall.setWidth 32
    | 9 => f.sin
    | 10 => f.cos
    | 11 => f.amp
    | _ => 0
  else if portHalf 0x240 0x20 x p then
    let k := p - 0x240 - axisNo x * 0x20
    let l := legOf (k / 5); let g := getLeg s x l
    match k % 5 with
    | 0 => rd (mkRat g.riseAt 4)
    | 1 => rd (mkRat g.fallAt 4)
    | 2 => fofInt ((if g.riseSoft then 1 else 0) + (if g.fallSoft then 2 else 0))
    | 3 => busV s x
    | _ => rd (highTime s x l * 1000000000)
  else if portHalf 0x300 0x80 x p then supWord s x (p - 0x300 - axisNo x * 0x80)
  else 0
/-- Post one event: queued, or dropped and counted, with WARN 0x2504 at four drops in a second (R155). -/
def postOne (e : Engine) (s : State) (p : BitVec 8 × Word) : State :=
  if (getEng s e).events.length < 16 then onEng s e (fun g => { g with events := g.events ++ [p] })
  else
    let keep := s.clk.now :: ((getEng s e).dropStamps.filter (fun t => decide (s.clk.now < t + 1000000000)))
    let s1 := onEng { s with ridge.evtDrop := s.ridge.evtDrop + 1 } e (fun g => { g with dropStamps := keep })
    if keep.length = 4 then raise0 s1 0x2504 0 (BitVec.ofNat 8 (engNo e)) else s1
/-- Thoevo has read events of an engine's FIFO by the time of a POST: how many is free (R152, log 36). -/
def readEvents (s : State) (e : Engine) : State :=
  onEng { s with clk.free := s.clk.free + 1 } e (fun g => { g with events := g.events.drop (Config.eventsRead s.clk.free) })
/-- The op words Cairn placed for the chain run on the state file: their events are posted and their telemetry kept for
the chain's end; what they compute for the loops is what the loop chapters state (log 24). The chain sends that duty set where
its ops issue a WDUTY; one that issues none leaves the previous duties in force (R154). Private words of the user segments are
those of the hooks. -/
def runImage (s : State) (x : Axis) (e : Engine) (mode : SeqMode) (posDue spdDue : Bool) (t : Nat) : State :=
  let img := activeBank s e
  let part := partOf img x (modeCode mode).toNat
  let rates := (if posDue then [2] else []) ++ (if spdDue then [1] else []) ++ [0]
  let env : OpEnv := { flag := fun n => (getAx s x).seq.flags.getLsbD n, port := portWordOf s x t }
  -- each part's END ends that part only
  let run := rates.foldl (fun r rate => match part rate with | some d => runSeg env r (segOps img d) | none => r)
    ({ file := (getEng s e).file } : OpRun)
  let user := fun (k : Nat) => decide (0x180 ≤ k % 512)
  let file := ((getEng s e).file.filter (fun p => user p.1)).foldl (fun m p => mapWrite 0 m p.1 p.2) (run.file.filter (fun p => !user p.1))
  let s1 := onEng s e (fun g => { g with file := file })
  let s2 := onAx s1 x (fun a => { a with
    seq.nanFlag := a.seq.nanFlag || run.nan, seq.duty := if run.duty.isSome then a.seq.duty else none,
    seq.tele := run.tele.foldl (fun m p => mapWrite 0 m (p.1 % 0x80) p.2) (a.seq.tele) })
  if run.posts.isEmpty then s2 else run.posts.foldl (postOne e) (readEvents s2 e)
/-- A memory error in the chain (R169). RG_ECC_CORR holds at 0xFFFF in each half (DESIGN CHOICE, log 133); the state words and POSTs
of a chain that an uncorrectable error aborts stand as if it had run to END (DESIGN CHOICE, log 132): the rule says neither. -/
def eccError (s : State) (x : Axis) (e : Engine) (mode : SeqMode) (v : EccEvent) : State :=
  match v with
  | .none => s
  | .corrected =>
    let c := s.ridge.eccCorr
    let add : Word := match e with | .rga => 1 | .rgb => 0x10000
    let sat := match e with | .rga => c &&& 0xFFFF == 0xFFFF | .rgb => c >>> 16 == 0xFFFF
    let keep := s.clk.now :: ((getEng s e).eccStamps.filter (fun t => decide (s.clk.now < t + 1000000000)))
    let s1 := onEng { s with ridge.eccCorr := if sat then c else c + add } e (fun g => { g with eccStamps := keep.take 17 })
    if keep.length = 17 then raise0 s1 0x2501 0 (BitVec.ofNat 8 (engNo e)) else s1
  | .uncorrectable w =>
    let s1 := ridgeStop (onAx s x (fun a => { a with seq.duty := none, seq.tele := [], seq.chainBusy := false, seq.chainQueued := false }))
      x 0x4502 (BitVec.ofNat 8 (engNo e)) (fofInt w.toNat)
    if mode = .fault then scarpFire (onAx s1 x (fun a => { a with seq.dead := true })) (30 + axisNo x) 0 else s1

/-- The 28 bytes of an axis block before LATCH_OFS, and its telemetry words 1 to n (18 R381). -/
def axisLatch (s : State) (x : Axis) : List Byte :=
  let a := getAx s x
  let sc := scopeOf x
  let mine := s.flt.list.filter (fun e => e.scope == sc)
  let top := mine.foldl (fun best e => if codeClass best < codeClass e.code then e.code else best) (0 : BitVec 16)
  let st := bitsOf [a.start.ax == .run, a.sp.hold, (speedFb s x).2,
    if parX s x Par.fbSrc == 0 then a.crest.conv else fbOk s x,
    (a.ctl.status &&& 0x18) != 0, mine.any latched, a.stage.brake != .off, a.stage.bypassMask != 0]
  let pos := posOf s x
  let words := match x with | .a => s.hsp.teleA | .b => s.hsp.teleB
  let n := (parX s x Par.tvTxWords).toNat
  u16 st ++ [axCode a.start.ax, 0] ++ u32 (pos % 4294967296).toNat ++ u32 (BitVec.ofInt 32 (pos / 4294967296)).toNat ++
  w32 (rd (speedFb s x).1) ++ w32 a.ctl.iq ++ w32 (if modeNow a == 2 then a.ctl.posErr else 0) ++ u16 top.toNat ++
  u16 (a.sp.missed.toNat % 65536) ++ (List.range n).flatMap (fun k => w32 (mapRead 0 words (k + 1)))
/-- The drive block (18 R381). -/
def driveLatch (s : State) : List Byte :=
  u8 (pwrState s).toNat ++ u8 (bitsOf [gptpOk s, s.axes.a.pwm.nl == .locked, s.axes.b.pwm.nl == .locked, throttleReq s, s.net.gptp == .holdover]) ++
  u16 (faultTop s).toNat ++ w32 (vmHi s) ++ w32 (tMax s) ++ u8 (faultActiveN s) ++ [0, 0, 0]
/-- What a transmit set takes at a boundary (18 R382). -/
def latchTransmit (s : State) (x : Axis) (t : Nat) : State :=
  let sets := x == .a || (placedAx s .a).isNone
  let s1 := match x with
    | .a => { s with net.latchA := ((t, axisLatch s .a) :: s.net.latchA).take 4 }
    | .b => { s with net.latchB := ((t, axisLatch s .b) :: s.net.latchB).take 4 }
  if sets then { s1 with net.latchD := ((t, driveLatch s) :: s.net.latchD).take 4 } else s1

/-- Start and reversal steps a boundary makes: the ramp of a waiting alignment, the handoff speed, the crossing of zero
with the saliency part off, and a coast below w_h (10 R226, R229, R233, Table 10.9). -/
def boundaryStart (s : State) (x : Axis) (t : Nat) : State :=
  let s := seedCatch s x t
  let a := getAx s x
  let wh := wHandoff s x
  let wm := crestWm s x
  if a.start.ax == .converge && sensorAngle s x && a.pwm.switching && fbOk s x && !a.start.gateOffNext then startConverged s x
  else if a.start.ax == .align && a.start.alignDone && !a.start.gateOffNext && startTarget s x != 0 then
    onAx s x (fun a => { setAx .ramp a with start.dirNeg := decide (startTarget s x < 0), start.wRamp := 0, start.t0 := t })
  else if a.start.ax == .ramp && decide (wh ≤ fval a.start.wRamp) then
    onAx s x (fun a => { setAx .converge a with start.path := .align, start.t0 := t })
  else if fluxOnly s x && a.start.ax == .run && a.start.merge.isNone && decide (absR wm ≤ wh) && decide (speedTarget s x * wm < 0) then
    onAx s x (fun a => { setAx .ramp a with start.crossing := true, start.path := .align, start.retry := 0, start.phi := a.crest.th,
                                            start.wRamp := rd (-wh), start.dirNeg := decide (0 < wm), start.t0 := t })
  else if fluxOnly s x && a.start.ax == .stopping && decide (absR wm ≤ wh) && (a.start.stop == some .ramp || a.start.stop == some .quick) &&
      !a.stage.engageWait then
    requestStop s x .coast
  else s

/-- The new period counts from the boundary's tick; what the legs' courses need of the periods before the one that ends is
dropped (01 R20). -/
def beginPeriod (s : State) (x : Axis) : State :=
  onAx s x (fun a =>
    let t0 := a.pwm.perAt
    { a with
      pwm.boundaryDue := false, pwm.lastPer := t0, pwm.perAt := a.pwm.carAt,
      legs := sixMap (fun g => { g with trans := keepFrom t0 (·.1) g.trans, edges := keepFrom t0 (·.1) g.edges }) a.legs })
/-- The profile at a boundary (06 R121, R124, R145): the block of the period that ends crosses, and the next one starts with the
period count; one still converting drops the trigger. -/
def profileBoundary (a : AxisSt) : AxisSt :=
  if a.conv.profBusy then { a with conv.profTrigOvr := if a.conv.profTrigOvr = 0xFFFFFFFF then 0xFFFFFFFF else a.conv.profTrigOvr + 1 }
  else { a with conv.profile := a.conv.profNow, conv.profNow := [], conv.profAt := a.pwm.perAt, conv.profRun := a.seq.periods }
/-- PERIOD_BOUNDARY (07 R157; Table 1.4, 01 R23, R24; 05 R99, R111; 06 R124; 08 R177, R191 to R193; 95 lists what it holds). -/
def execPeriodBoundary (x : Axis) (sense : BoundarySense) (s : State) : Out :=
  let s1 := at_ s ((getAx s x).pwm.carAt / 4)
  let t := s1.clk.now
  let s2 := boundarySwap s1 x
  let s3 := overrun s2 x
  let s4 := bringInAx (boundaryGates s3 x) x .boundary
  let s5 := nlBoundary (beginPeriod s4 x) x (nlError s4 x)
  let s6 := latchFeedback (onAx s5 x profileBoundary) x t
  let q := (getAx s6 x).seq
  let spdDue := decide (q.periods % multM s6 x = 0)
  let posDue := spdDue && decide (q.speedRuns % multP s6 x = 0)
  let s7 := boundarySetpoints (boundaryStart s6 x t) x t spdDue
  let s8 := movePosRef (if spdDue then curveTick s7 x else s7) x t
  let s8 := if posDue then canPosition s8 x t else s8
  let mode := selectMode (getAx s8 x)
  let first := q.first || mode != q.mode
  let s9 := onAx s8 x (fun a => { a with seq.first := first, seq.mode := mode, seq.nanFlag := false, seq.tele := [], seq.duty := none,
                                         seq.usr := Config.usrFlags (axisNo x) t })
  let sA := onAx s9 x (fun a => { a with seq.flags := seqFlags s9 x spdDue posDue, seq.first := false,
                                         seq.periods := a.seq.periods + 1, seq.speedRuns := if spdDue then a.seq.speedRuns + 1 else a.seq.speedRuns })
  match (getAx sA x).seq.host with
  | none => skip s
  | some e =>
    let wait := s1.ridge.copyPending && q.host == some (otherEng e) || (getAx sA (otherAxis x)).seq.chainBusy && (getAx sA (otherAxis x)).seq.host == some e
    let run := !(getAx sA x).seq.dead
    let has := fun (rate : Nat) => (partOf (activeBank sA e) x (modeCode mode).toNat rate).isSome
    let sB := runImage (runChain (writeInit sA x e) x mode (posDue && has 2) (spdDue && has 1) (has 0) t) x e mode posDue spdDue t
    let sC := onAx sB x (fun a => { a with seq.chainBusy := !wait, seq.chainQueued := wait })
    let sD := eccError sC x e mode sense.ecc
    when_ s ((getAx s x).pwm.running && (getAx s x).pwm.boundaryDue && isReady s && !s.sum.pfCommit) (latchTransmit (if run then sD else sA) x t)

/-- A duty at the PWM port (05 R95): clamped and counted, a NaN replaced by the leg's previous duty. -/
def portDuty (d prev : F32) : F32 × Bool :=
  if fisNan d then (prev, true) else if flt d 0 then (0, true) else if flt f1 d then (f1, true) else (d, false)
/-- The duty set as it enters the PWM port, with DUTY_CLAMP (05 R95). A leg's previous duty is the one committed last, not one that
still waits to commit: DESIGN CHOICE (log 135). -/
def portSet (a : AxisSt) (ds : List F32) : AxisSt × List F32 :=
  let ps := (ds.zip (sixList a.legs)).map (fun p => portDuty p.1 p.2.duty)
  let n := (ps.filter (·.2)).length
  ({ a with pwm.dutyClamp := a.pwm.dutyClamp + BitVec.ofNat 32 n }, ps.map (·.1))

/-- A duty set crosses (01 R22; 15 R322): within 8 ns; one that crosses less than 18 ns before the commit point of the next
boundary, or after it, misses it. After a boundary's commit point it waits for the next commit point at once. -/
def crossDuty (n ticks : Nat) (ds : List F32) (a : AxisSt) : AxisSt :=
  let p := portSet a ds
  let past := a.pwm.boundaryDue
  { p.1 with pwm := { p.1.pwm with
      crossed := some p.2, crossedLate := !past && decide (n < ticks + 72), crossedHeld := past,
      dutyLate := if past then p.1.pwm.dutyLate + 1 else p.1.pwm.dutyLate }, seq.duty := none }
/-- The chain of an axis ends `cycles` after its boundary (07 R149, R168). -/
def endChain (s : State) (x : Axis) (cycles : Nat) (a : AxisSt) : AxisSt :=
  let b := { a with seq.chainBusy := false, seq.nan := if a.seq.nanFlag then a.seq.nan + 1 else a.seq.nan, seq.nanFlag := false,
                    seq.cycMax := if a.seq.cycMax.toNat < cycles then BitVec.ofNat 16 (min cycles 65535) else a.seq.cycMax }
  match a.seq.duty with
  | some ds => crossDuty (periodTicks s x) (cycles * 10) ds b
  | none => b
/-- CHAIN_END (07 R149, R157, R164, R168; 01 R22). -/
def execChainEnd (x : Axis) (cycles : Nat) (s : State) : Out :=
  let a := getAx s x
  let s1 := onAx s x (endChain s x cycles)
  -- the axis's telemetry block is replaced whole; word 0 counts its periods (16 R340)
  let tele := mapWrite 0 a.seq.tele 0 (BitVec.ofNat 32 a.seq.periods)
  let s2 := match x with | .a => { s1 with hsp.teleA := tele } | .b => { s1 with hsp.teleB := tele }
  -- a queued chain of the other axis on this engine starts; a hand-over's copy begins
  let y := otherAxis x
  let s3 := if (getAx s2 y).seq.chainQueued && (getAx s2 y).seq.host == a.seq.host && !s2.ridge.copyPending then
      onAx s2 y (fun b => { b with seq.chainQueued := false, seq.chainBusy := true }) else s2
  let s4 := if s3.ridge.handover == some x && s3.ridge.rga.swapPending && s3.ridge.rgb.swapPending then { s3 with ridge.copyPending := true } else s3
  when_ s a.seq.chainBusy s4

/-- Commit a whole set to the duty registers (01 R22). -/
def commitSet (a : AxisSt) (ds : List F32) : AxisSt :=
  let legs := (allLegs.zip ds).foldl (fun m p => sixSet m p.1 { sixGet m p.1 with duty := p.2 }) a.legs
  { a with legs := legs, pwm.crossed := none, pwm.crossedLate := false, pwm.crossedHeld := false }
/-- The gates a start waits with begin to switch, unless a trip or STO holds them off (01 Table 1.5; 10 R226). -/
def gatesBegin (s : State) (x : Axis) (a : AxisSt) : AxisSt :=
  if a.pwm.gateArm && !tripped s x && !s.pwr.safe && a.stage.vgdOn then
    { initDead s x a with pwm.switching := true, pwm.gateArm := false }
  else a
/-- The waiting set at a commit point (01 R20, R22): at a boundary one that crossed in time commits, one that did not is
counted and held; a held one commits at the next commit point, between boundaries too. -/
def commitWaiting (s : State) (x : Axis) (due : Bool) (a : AxisSt) : AxisSt :=
  match a.pwm.crossed with
  | none => a
  | some ds =>
    if a.pwm.crossedHeld then gatesBegin s x (commitSet a ds)
    else if !due then a
    else if a.pwm.crossedLate then { a with pwm.dutyLate := a.pwm.dutyLate + 1, pwm.crossedLate := false, pwm.crossedHeld := true }
    else gatesBegin s x (commitSet a ds)
/-- COMMIT_POINT (01 R20, R22; 05 R94 to R97): the timebase reaches the next extreme that COMMIT_SEL selects; the waiting set
commits whole, and the carriers run on to the commit point after it. -/
def execCommitPoint (x : Axis) (peak : Bool) (s : State) : Out :=
  let a := getAx s x
  let sel := commitSel s x
  let n := match placedAx s x with | some p => p.n | none => 2
  let next := match a.pwm.exts with | (t, k) :: _ => decide (a.pwm.carAt < t) && k == peak | [] => false
  let p := reachCommit n a.pwm
  let b := { a with pwm := p, ctl.dutyApplied := if p.boundaryDue then (sixList a.legs).map (·.duty) else a.ctl.dutyApplied }
  let c := commitWaiting s x p.boundaryDue b
  let live := fun l => c.pwm.switching && !(heldLegs s x).contains l
  when_ s (a.pwm.running && isReady s && next)
    (onAx (at_ s (p.carAt / 4)) x (fun _ => layOut (slewLimit s x) sel live c))

/-- SP_MBX_TIMEOUT (08 R191): no mailbox setpoint for SP_MBX_TIMEOUT once setpoints are accepted. -/
def execSpMbxTimeout (x : Axis) (s : State) : Out :=
  let a := getAx s x
  when_ s (a.sp.accepted && a.sp.src == 0 && parX s x Par.spMbxTimeout != 0) (raise0 s 0x4605 (scopeOf x) noDetail)

/-- FW_EXHAUSTED_TIMEOUT (08 R181): bit 2 of CTRL_STATUS set, or clear again, for 100 ms. -/
def execFwExhaustedTimeout (x : Axis) (s : State) : Out :=
  let a := getAx s x
  let at_limit := a.ctl.status.getLsbD 2
  if at_limit && a.ctl.fwBound.isNone then
    done s (raise1 (onAx s x (fun a => { a with ctl.fwBound := some (rd (absR (speedFb s x).1)) })) 0x3604 (scopeOf x) noDetail)
  else if !at_limit && a.ctl.fwBound.isSome then
    done s (endCause (onAx s x (fun a => { a with ctl.fwBound := none })) 0x3604 (scopeOf x) noDetail)
  else skip s

/-- OVERSPEED_TIMEOUT (08 R189): |ω| beyond OVERSPEED at every speed part for 1 ms. -/
def execOverspeedTimeout (x : Axis) (s : State) : Out :=
  let v := speedFb s x
  when_ s (gatesOn (getAx s x) && v.2 && decide (pf s x Par.overspeed < absR v.1))
    (raise s 0x4607 (scopeOf x) noDetail (rd v.1) false)

end Sys2Proof.Machine
end

