-- ==== Sys2Proof/Machine/Start.lean ====
section
/-!
DEFINITION. Starting, reversing, stopping and stall (chapter 10), with the local command curve (08 R195, R196).
-/

namespace Sys2Proof.Machine
open Sys2Proof

/-! Enable (R222). -/

/-- The value a rule judges an enable by: stored where the effect point is At enable, else in force (R222). -/
def judged (s : State) (x : Axis) (i : Nat) : Word :=
  match parDef i with
  | some d => if d.eff == .enable then storX s x i else parX s x i
  | none => parX s x i
/-- CURVE_BAD (08 R195): x values not ascending, CURVE_ON not above CURVE_OFF, or a duty above 1.0. -/
def curveBad (s : State) (x : Axis) : Bool :=
  let g := judged s x
  let n := (g Par.curveNpts).toNat
  let xs := (List.range n).map (fun k => g (Par.curveX0 + 2 * k))
  let rising := (xs.zip (xs.drop 1)).all (fun p => flt p.1 p.2)
  !rising || !flt (g Par.curveOff) (g Par.curveOn) ||
    (g Par.curveIn == 1 && (g Par.curveOn :: g Par.curveOff :: xs).any (fun v => flt f1 v))
/-- Bits of CMP_TEST_FAIL of the axis's leg comparators (05 R115). -/
def legCmpBits : Axis → Word | .a => 0x3F | .b => 0xFC0
/-- Why an enable of an axis is refused, as the cause of 17 Table 17.4; none when it is accepted (R222). -/
def enableRefusal (s : State) (x : Axis) : Option Nat :=
  let a := getAx s x
  let g := judged s x
  let crest := g Par.crestMode == 1
  let salOffAt := g Par.crestSalEn == 0 || (a.stage.bypassMask != 0 && !dualStar s x)
  if !isReady s || s.boot.service != .none then some 0x10
  else if a.start.ax != .disabled then some 1
  else if s.pwr.safe then some 2
  else if blockedByFault s x then some 3
  else if a.seq.host.isNone then some 4
  else if !a.conv.refOk then some 5
  else if s.scarp.testFail &&& legCmpBits x != 0 then some 6
  else if g Par.spSrc == 3 && curveBad s x then some 7
  else if g Par.spSrc == 3 && g Par.ctrlMode != 1 then some 8
  else if crest && restMethod s x g == .align && g Par.ctrlMode != 1 then some 9
  else if crest && salOffAt && g Par.ctrlMode == 2 then some 10
  else if s.bus.e2 then some 11
  else if a.start.legTest.isSome then some 12
  else none

/-! Outcomes of the measurement (R223 to R229). -/

/-- An accepted enable (R222, R223; 09 R211 to R215; 08 R190; 04 R71): parameters come into force, Crest starts anew. -/
def startAxis (s : State) (x : Axis) : State :=
  -- the first axis to start takes the drive from READY to RUN: device-wide values come into force with its own (00 R9)
  let s1 := bringInAx (if anyRun s then s else bringInDev s .enable) x .enable
  let s2 := onAx s1 x (fun a =>
    let b := initDead s1 x a
    { b with
      sp.src := (parX s1 x Par.spSrc).setWidth 8, sp.mode := (parX s1 x Par.ctrlMode).setWidth 8,
      ctl.idFw := 0, ctl.fwBound := none,
      stage.imbU := 0, stage.imbV := 0, stage.imbW := 0, stage.imbN := 0,
      crest.rsEst := parX s1 x Par.motRs, crest.psiEst := parX s1 x Par.motPsi, crest.salOff := false, crest.salWarned := false, crest.rsClamp := false, crest.psiClamp := false,
      crest.posStarted := false })
  beginAttempt s2 x .sensor 0
/-- A refused enable changes nothing, but for STOP 0x4503 where no placement hosts the axis and an engine has failed (07
R170). -/
def enableRefused (s : State) (x : Axis) (cause : Nat) : State :=
  if cause = 4 ∧ (s.ridge.rga.failed || s.ridge.rgb.failed) then raise0 s 0x4503 (scopeOf x) noDetail else s
/-- An enable request of an axis. -/
def tryEnable (s : State) (x : Axis) : State :=
  match enableRefusal s x with | none => startAxis s x | some c => enableRefused s x c

/-- MEASURE_END (R223, R224). -/
def execMeasureEnd (x : Axis) (m : List LandSample) (s : State) : Out :=
  when_ s ((getAx s x).start.ax == .measure) (evaluated s x m)
/-- BLOCKED_WAIT_REPEAT (R224): the repeated measurement ends as in Table 10.2. -/
def execBlockedWaitRepeat (x : Axis) (m : List LandSample) (s : State) : Out :=
  when_ s ((getAx s x).start.ax == .blockedWait) (evaluated s x m)
/-- FS_CATCH_TIMEOUT (R224). -/
def execFsCatchTimeout (x : Axis) (s : State) : Out :=
  when_ s ((getAx s x).start.ax == .blockedWait)
    (raise0 (onAx s x (fun a => disableAxis (brakeOff a))) 0x4801 (scopeOf x) noDetail)

/-- REST_READ_END (R225, R227; 09 R207, R215), once the last half-wave has ended: θ̂ takes the d-axis on [0, π); a low saliency
leads to the alignment. -/
def execRestReadEnd (x : Axis) (s : State) : Out :=
  let a := getAx s x
  let passed := decide (readLen (readPeriods s x (parX s x Par.crestReadT)) ≤ a.start.readPos)
  let s1 := onAx s x (fun a => { a with crest.th := fitAxis s x })
  let low := flt a.crest.saliency (parX s x Par.crestSalMin)
  let s2 := salLow s1 x
  when_ s (a.start.ax == .read && passed && !a.start.gateOffNext)
    (if !low then onAx s1 x (fun a => { setAx .polarity a with start.readPos := 0 })
     else if parX s x Par.stMethod == 1 then failAttempt s2 x 3
     else beginAlign s2 x)

/-- POLARITY_TEST_END (R227; 09 R208, Table 9.1): 5 ms after its start, with the fits of its two pulses. -/
def execPolarityTestEnd (x : Axis) (s : State) : Out :=
  let a := getAx s x
  let k := polarityK a.crest.gPlus a.crest.gMinus
  let passed := decide (mkRat 5 1000 ≤ (a.start.readPos : Rat) * periodSec s x)
  let lim := pf s x Par.crestPolMin / 100
  let known := fun (turn : Bool) => onAx s x (fun a =>
    { setAx .converge a with
      start.t0 := s.clk.now, ctl.wRef := 0, ctl.wRefPrev := 0, crest.polarity := true,
      crest.th := if turn then wrapR (fval a.crest.th + piR) else a.crest.th })
  when_ s (a.start.ax == .polarity && passed && !a.start.gateOffNext)
    (if lim ≤ k then known false
     else if k ≤ -lim then known true
     else failAttempt (raise s 0x1705 (scopeOf x) noDetail (rd (k * 100)) false) x 3)

/-- CREST_CONVERGED (09 R209, R211; Tables 10.3, 10.4): the flag sets; with Crest as the angle source the first convergence
starts the relative position, and a catch or a saliency start goes on to RELEASE or RUN. -/
def execCrestConverged (x : Axis) (s : State) : Out :=
  let a := getAx s x
  let c := a.crest
  let polarity := c.polarity || openLoop a
  let ok := a.pwm.switching && !c.conv && polarity && (parX s x Par.crestMode != 0 || identing a) &&
    fle (fabs c.err) (fdeg (parX s x Par.crestConvErr)) && partsMeet s x
  let first := parX s x Par.crestMode == 1 && !c.posStarted
  let s1 := onAx s x (fun a => { a with
    crest.conv := true, crest.polarity := true, crest.posStarted := c.posStarted || first,
    crest.pos := if first then angleCounts s x (fval c.th) % 4294967296 else c.pos })
  let on := parX s x Par.crestMode == 1 && a.start.ax == .converge && a.start.path != .align && !a.start.gateOffNext
  when_ s ok (if on then startConverged s1 x else s1)

/-- ST_TIMEOUT (R231, Table 10.6; Table 10.7): no convergence in CONVERGE; during a reversal it is a loss of convergence. -/
def execStTimeout (x : Axis) (s : State) : Out :=
  let a := getAx s x
  when_ s (a.start.ax == .converge && !a.start.gateOffNext)
    (if a.start.crossing then raise0 s 0x4701 (scopeOf x) noDetail else failAttempt s x 1)
/-- ST_RETRY_DELAY_EXPIRY (R231). -/
def execStRetryDelayExpiry (x : Axis) (s : State) : Out :=
  when_ s ((getAx s x).start.ax == .retryWait) (beginAttempt s x .sensor ((getAx s x).start.retry + 1))

/-- ALIGN_RISE_END (R228, Table 10.5): the current is at ST_ALIGN_I and the brake release starts with HB_EN = 1. -/
def execAlignRiseEnd (x : Axis) (s : State) : Out :=
  let a := getAx s x
  let hb := parX s x Par.hbEn == 1 && a.stage.brake == .off
  when_ s (a.start.ax == .align && !a.start.risen)
    (onAx s x (fun a => let b := { a with start.risen := true }; if hb then releaseBrake b else b))
/-- ALIGN_PHASE2 (R228): φ steps by 90 °e in the start direction. -/
def execAlignPhase2 (x : Axis) (s : State) : Out :=
  let a := getAx s x
  when_ s (a.start.ax == .align && !a.start.phase2 && !a.start.alignDone)
    (onAx s x (fun a => { a with start.phase2 := true, start.phi := wrapR (fval a.start.phi + dirS a * piR / 2) }))
/-- ALIGN_END (R229, Table 10.5): with a target the ramp starts in the start direction; at a zero target the current
holds. The vector has led the rotor, so Crest's flux angle carries the polarity (log 27). -/
def execAlignEnd (x : Axis) (s : State) : Out :=
  let a := getAx s x
  when_ s (a.start.ax == .align && !a.start.alignDone && !a.stage.releaseWait && !a.start.gateOffNext)
    (if startTarget s x = 0 then onAx s x (fun a => { a with start.alignDone := true })
     else onAx s x (fun a => { setAx .ramp a with start.alignDone := true, start.wRamp := 0, start.t0 := s.clk.now }))
/-- START_IDLE_TIMEOUT (Table 10.5): the target is still zero. -/
def execStartIdleTimeout (x : Axis) (s : State) : Out :=
  let a := getAx s x
  when_ s (a.start.ax == .align && a.start.alignDone && startTarget s x == 0)
    (onAx (raise0 s 0x1805 (scopeOf x) noDetail) x (fun a => { a with start.gateOffNext := true, start.retryNext := false }))
/-- RAMP_HANDOFF (R229, Tables 10.5, 10.7): Crest takes over at w_h; setpoints are accepted at the start of the merge. -/
def execRampHandoff (x : Axis) (s : State) : Out :=
  let a := getAx s x
  let wh := wHandoff s x
  let i := startAmp s x Par.stRampI
  let d := wrapR (fval a.start.phi - fval a.crest.th)
  let iq := rd (i * fval (sinOf d))
  when_ s (openLoop a && decide (wh ≤ fval a.start.wRamp) && a.crest.conv && !a.start.gateOffNext)
    (onAx s x (fun a =>
      let w := rd (dirS a * wh)
      { acceptSp { setAx .run a with ctl.wRef := w } with
        ctl.wRefPrev := w, ctl.xs := iq, start.merge := some s.clk.now,
        start.mergeD := rd (i * fval (cosOf d)), start.mergeQ := iq, start.crossing := false, start.backward := false }))
/-- MERGE_END (R229). -/
def execMergeEnd (x : Axis) (s : State) : Out :=
  when_ s (getAx s x).start.merge.isSome (onAx s x (fun a => { a with start.merge := none }))
/-- RAMP_STALL (R230, R233): from 2 % of rated speed Crest's speed is more than 30 % away from the vector's. -/
def execRampStall (x : Axis) (s : State) : Out :=
  let a := getAx s x
  let w := fval a.start.wRamp
  let off := decide (mkRat 3 10 * absR w < absR (crestWm s x - dirS a * w))
  when_ s (openLoop a && decide (wRated s x * mkRat 2 100 ≤ absR w) && off && !a.start.gateOffNext)
    (if a.start.crossing then raise0 s 0x4701 (scopeOf x) noDetail else failAttempt s x 2)

/-! Stopping and stall (R234 to R237). -/

/-- Standstill as far as one instant shows it (R234). -/
def standsStill (s : State) (x : Axis) : Bool :=
  let v := speedFb s x
  let a := getAx s x
  (v.2 && decide (absR v.1 ≤ pf s x Par.stopWZero)) ||
    (if sensorAngle s x then a.fb.standstill else a.crest.hold)
/-- A ramp or quick stop is under way and has not reached standstill. -/
def decelerating (a : AxisSt) : Bool :=
  a.start.ax == .stopping && (a.start.stop == some .ramp || a.start.stop == some .quick) && !a.stage.engageWait
/-- STANDSTILL_REACHED (R236, Table 10.10). -/
def execStandstillReached (x : Axis) (s : State) : Out :=
  when_ s (decelerating (getAx s x) && standsStill s x)
    (onAx s x (fun a =>
      if parX s x Par.hbEn == 1 then { brakeOff a with stage.engageWait := true, ctl.wRef := 0, ctl.wRefPrev := 0 }
      else disableAxis (brakeOff a)))
/-- STOP_TMAX_EXPIRY (R235, Table 10.9). -/
def execStopTmaxExpiry (x : Axis) (s : State) : Out :=
  when_ s (decelerating (getAx s x)) (requestStop (raise0 s 0x2807 (scopeOf x) noDetail) x .coast)
/-- STALL_TIMEOUT (R237). -/
def execStallTimeout (x : Axis) (s : State) : Out :=
  let a := getAx s x
  let v := speedFb s x
  let slow := (v.2 && decide (absR v.1 < pf s x Par.stallW)) || (sensorAngle s x && a.fb.standstill)
  let hard := decide (pf s x Par.stallIFrac * iLim s x / 100 ≤ absR (fval a.ctl.iqRef)) || a.ctl.status.getLsbD 3
  let wants := if a.sp.mode == 1 then decide (pf s x Par.stallW < absR (fval a.ctl.wRef)) else if a.sp.mode == 2 then a.ctl.errGrows else true
  when_ s (a.start.ax == .run && slow && hard && wants) (raise s 0x4803 (scopeOf x) noDetail (rd v.1) false)

/-! Local command curve (08 R195, R196). -/

/-- The curve commands the axis: SP_SRC = 3, stored while the axis is DISABLED (08 R190). -/
def curveUsed (s : State) (x : Axis) : Bool :=
  if (getAx s x).start.ax == .disabled then storX s x Par.spSrc == 3 else (getAx s x).sp.src == 3
/-- A curve parameter as the curve uses it. -/
def curvePar (s : State) (x : Axis) (i : Nat) : Word :=
  if (getAx s x).start.ax == .disabled then storX s x i else parX s x i
/-- The curve turns off; with CURVE_AUTO = 1 the axis ramps down at DEC_MAX and is then disabled: a ramp stop (Table 8.6, 10
Table 10.9), unless a stop is under way already. -/
def curveOffNow (s : State) (x : Axis) : State :=
  let s1 := onAx s x (fun a => { a with sp.curveOn := false })
  if (getAx s x).sp.curveOn && curvePar s x Par.curveAuto == 1 then
    let t := requestStop s1 x .ramp
    if (getAx s x).start.ax == .stopping then t
    else onAx t x (fun a => { a with start.curveStop := a.start.ax == .stopping })
  else s1
/-- An input fault (R196): handled as x below CURVE_OFF. -/
def curveFaulted (s : State) (x : Axis) : State :=
  if (getAx s x).sp.curveFault then s
  else raise0 (onAx (curveOffNow s x) x (fun a => { a with sp.curveFault := true, sp.curveArmed := false })) 0x2602 (scopeOf x) noDetail
/-- A valid input result: the filter's input, and the end of a fault (R195, R196). -/
def curveInput (s : State) (x : Axis) (v : F32) : State :=
  onAx s x (fun a => { a with
    sp.curveIn := v, sp.curveSeen := true, sp.curveFault := false,
    sp.curveArmed := if a.sp.curveFault then flt a.sp.curveX (curvePar s x Par.curveOn) else a.sp.curveArmed })
/-- What an input of the curve brings to every axis that uses it: a value, or a fault. -/
def curveSource (inp : Nat) (v : Option F32) (s : State) (x : Axis) : State :=
  if !isReady s || !curveUsed s x || curvePar s x Par.curveIn != BitVec.ofNat 32 inp then s
  else match v with
    | some w => curveInput s x w
    | none => curveFaulted s x
/-- PWM_CMD_PERIOD (R195): the duty of a period of 40 µs to 20 ms; any other is invalid. -/
def execPwmCmdPeriod (periodNs highNs : Nat) (s : State) : Out :=
  let ok := decide (40000 ≤ periodNs ∧ periodNs ≤ 20000000 ∧ highNs ≤ periodNs)
  -- a pulse or a gap shorter than the filter is removed, and with it the period (02 R32)
  let w := parD s Par.pwmCmdFilt
  when_ s (filtPass w highNs && filtPass w (periodNs - highNs)) (bothAxes.foldl (curveSource 1 (if ok then some (rd (mkRat highNs periodNs)) else none)) s)
/-- PWM_CMD_TIMEOUT (R196). -/
def execPwmCmdTimeout (s : State) : Out := done s (bothAxes.foldl (curveSource 1 none) s)
/-- CURVE_FILTER_VALID (R196): the first valid value decides whether the next crossing may turn the curve on. -/
def execCurveFilterValid (x : Axis) (s : State) : Out :=
  let a := getAx s x
  when_ s (a.sp.curveSeen && !a.sp.curveValid)
    (onAx s x (fun a => { a with sp.curveValid := true, sp.curveArmed := flt a.sp.curveX (curvePar s x Par.curveOn) }))
/-- CURVE_CROSSING (R196, Table 8.6). -/
def execCurveCrossing (x : Axis) (value : F32) (s : State) : Out :=
  let a := getAx s x
  let s0 := onAx s x (fun a => { a with sp.curveX := value })
  let high := fle (curvePar s x Par.curveOn) value
  when_ s (isReady s && curveUsed s x && a.sp.curveValid && !a.sp.curveFault)
    (if high then
       if a.sp.curveOn || !a.sp.curveArmed then s0
       else
         let s1 := onAx s0 x (fun a => { a with sp.curveOn := true, sp.curveArmed := false })
         if curvePar s x Par.curveAuto == 1 then tryEnable s1 x else s1
     else
       let s1 := onAx s0 x (fun a => { a with sp.curveArmed := true })
       if a.sp.curveOn && flt value (curvePar s x Par.curveOff) then curveOffNow s1 x else s1)

end Sys2Proof.Machine
end

