-- ==== Sys2Proof/Machine/Thermal.lean ====
section
/-!
DEFINITION. Temperature: results of the 21 sensors, thresholds, throttle, derating, stop or trip, re-arming and the
case estimate (chapter 13).
-/

namespace Sys2Proof.Machine
open Sys2Proof

/-- Change one sensor. -/
def onSen (s : State) (n : Nat) (f : SensorSt → SensorSt) : State := { s with th.sensors := s.th.sensors.modify n f }
/-- Group of a sensor: 0 junction, 1 chopper, 2 die, 3 winding (Table 13.1). -/
def senGroup (n : Nat) : Nat := if n < 12 then 0 else if n = 12 then 1 else if n < 15 then 2 else 3
/-- Scope of a sensor (Table 13.1). -/
def senScope (n : Nat) : BitVec 8 :=
  if n < 6 then 1 else if n < 12 then 2 else if n < 15 then 0 else if n = 15 ∨ n = 16 ∨ n = 19 then 1 else 2
/-- The axis whose parameters a winding sensor uses. -/
def senAxis (n : Nat) : Axis := if senScope n = 2 then .b else .a
/-- Warn, limit and stop thresholds of a sensor (R290). -/
def senThr (s : State) (n : Nat) : Rat × Rat × Rat :=
  if n < 15 then (fval (parD s Par.tjWarn), fval (parD s Par.tjLimit), fval (parD s Par.tjStop))
  else let x := senAxis n; (pf s x Par.twWarn, pf s x Par.twLimit, pf s x Par.twStop)
/-- Results per second Cairn takes of a diode or declared NTC: 1,000, in READY and RUN 16,000 while its last result lies within
10 K below a threshold of its group, the hard trip of diodes included (R286, R144). -/
def senRate (s : State) (n : Nat) : Nat :=
  let t := senThr s n; let v := fval (getSen s n).t
  let thr := [t.1, t.2.1, t.2.2] ++ (if n < 15 then [fval (parD s Par.tjTrip)] else [])
  if s.pwr.base != .hold && thr.any (fun h => decide (h - 10 ≤ v) && decide (v < h)) then 16000 else 1000
/-- What an invalid diode reads as (R288). -/
def substitute (s : State) (n : Nat) : F32 :=
  let ids := (List.range 15).filter (fun (k : Nat) => k != n && (getSen s k).valid)
  let grp := ids.filter (fun (k : Nat) => senGroup k == senGroup n)
  let top := fun (l : List Nat) => l.foldl (fun m k => max m (fval (getSen s k).t)) (-300)
  if !grp.isEmpty then rd (top grp + 10) else if !ids.isEmpty then rd (top ids + 10) else parD s Par.tjTrip
/-- One threshold on one result: the flag, whether the result reached it, and whether it fell below by TH_HYST (R286). -/
def thrStep (v thr hyst : Rat) (flag once low : Bool) : Bool × Bool × Bool :=
  let reach := decide (thr ≤ v); let below := decide (v < thr - hyst)
  (if flag then !(below && low) else reach && once, reach, below)
/-- Least-squares slope of results in K/s (R292); 0 where the stamps do not differ. -/
def slopeOf (h : List (Nat × F32)) : Rat :=
  let n : Rat := (h.length : Rat)
  let t0 := (h.getLast?.map (·.1)).getD 0
  let xs := h.map (fun p => (nsSec (p.1 - t0), fval p.2))
  let sx := xs.foldl (fun a p => a + p.1) 0; let sy := xs.foldl (fun a p => a + p.2) 0
  let sxx := xs.foldl (fun a p => a + p.1 * p.1) 0; let sxy := xs.foldl (fun a p => a + p.1 * p.2) 0
  let d := n * sxx - sx * sx
  if d = 0 then 0 else (n * sxy - sx * sy) / d
/-- The enforced limit of one sensor, A (R291). -/
def senIth (s : State) (x : Axis) (n : Nat) : Rat :=
  let t := senThr s n; let dm := fval (parD s Par.thDerateMin)
  clampR (1 - (1 - dm) * (fval (getSen s n).t - t.2.1) / (t.2.2 - t.2.1)) dm 1 * fval (getAx s x).stage.iCont
/-- i_th of an axis: the smallest of its enforced sensors, and the limit of a lost winding source (R288, R291). -/
def axisIth (s : State) (x : Axis) : Option F32 :=
  let lost := match x with | .a => s.th.lostA | .b => s.th.lostB
  let l := ((axSensors x).filter (fun (n : Nat) => (getSen s n).enforced)).map (senIth s x)
  let l := if lost then fval (parD s Par.thDerateMin) * fval (getAx s x).stage.iCont :: l else l
  match l with
  | [] => none
  | i :: is => some (rd (is.foldl min i))
/-- Recompute both axes' limits and the chopper's (R290, R291). -/
def reIth (s : State) : State :=
  { s with th.ithA := axisIth s .a, th.ithB := axisIth s .b, bus.chopThrottle := (getSen s 12).enforced }
/-- The limit threshold is crossed: a throttle request, or the die's rate reduction (R290, R291). -/
def onLimit (s : State) (n : Nat) : State :=
  let v := (getSen s n).t
  if senGroup n = 2 then
    let s1 := raise s 0x3B09 0 (BitVec.ofNat 8 n) v true
    if s1.th.halved then s1 else { s1 with th.halved := true, cairn.pendingTr := s1.cairn.pendingTr ++ [(.dieLimit, s.clk.now)] }
  else
    let s1 := raise (onSen s n (fun d => { d with grace := true })) 0x2B02 (senScope n) (BitVec.ofNat 8 n) v false
    postEvent { s1 with hsp.intStatus := s1.hsp.intStatus ||| 0x0010 } 1 0x8F02
      ([BitVec.ofNat 8 n, senScope n, 0, 0] ++ w32 v)
/-- The derating of a sensor is enforced (R291, R295). -/
def enforce (s : State) (n : Nat) : State :=
  reIth (raise (onSen s n (fun d => { d with grace := false, enforced := true })) 0x3B03 (senScope n) (BitVec.ofNat 8 n) (getSen s n).t true)
/-- The limit threshold is released: the request is withdrawn, or the LIMIT ends by itself (R291; R290 for the die). -/
def offLimit (s : State) (n : Nat) : State :=
  if senGroup n = 2 then
    let s1 := endCause s 0x3B09 0 (BitVec.ofNat 8 n)
    if (getSen s1 13).limit || (getSen s1 14).limit || !s1.th.halved then s1
    else { s1 with th.halved := false, cairn.pendingTr := s1.cairn.pendingTr ++ [(.dieReleased, s.clk.now)] }
  else if (getSen s n).enforced then
    reIth (endCause (onSen s n (fun d => { d with grace := false, enforced := false })) 0x3B03 (senScope n) (BitVec.ofNat 8 n))
  else onSen s n (fun d => { d with grace := false })
/-- Scarp bits of a thermal trip's scope (R290). -/
def tripBits (scope : BitVec 8) : List Nat := if scope = 1 then [27] else if scope = 2 then [28] else [27, 28]
/-- A thermal trip: the Scarp bits of the scope, then the code (R290, R292). -/
def thermalTrip (s : State) (n : Nat) (code : BitVec 16) : State :=
  raise ((tripBits (senScope n)).foldl latchSource s) code (senScope n) (BitVec.ofNat 8 n) (getSen s n).t true
/-- The stop threshold is crossed (R290, R292, R295). -/
def onStop (s : State) (n : Nat) : State :=
  let d := getSen s n
  let s1 := if d.grace then enforce s n else s
  let m := slopeOf d.hist
  let soon := decide (0 < m) && decide ((fval (parD s Par.tjTrip) - fval d.t) / m ≤ fval (parD s Par.thStopT) / 1000)
  if senGroup n = 1 then chopFault s1 3
  else if senGroup n != 3 && soon then thermalTrip s1 n 0x5B06
  else raise s1 0x4B04 (senScope n) (BitVec.ofNat 8 n) d.t true
/-- The hard trip acts (R290). -/
def onTrip (s : State) (n : Nat) : State := if senGroup n = 1 then chopFault s 3 else thermalTrip s n 0x5B05
/-- A reading acts on the thresholds of its sensor (R286, R290). -/
def senLevels (s : State) (n : Nat) (v : F32) : State :=
  let d := getSen s n
  let th := senThr s n; let hy := fval (parD s Par.thHyst); let tr := fval (parD s Par.tjTrip)
  let q := fval v
  let w := thrStep q th.1 hy d.warn (d.once.getLsbD 0) (d.lowOnce.getLsbD 0)
  let l := thrStep q th.2.1 hy d.limit (d.once.getLsbD 1) (d.lowOnce.getLsbD 1)
  let p := thrStep q th.2.2 hy d.stop (d.once.getLsbD 2) (d.lowOnce.getLsbD 2)
  let t := thrStep q tr hy d.trip true (d.lowOnce.getLsbD 3)
  let trip := if n < 15 then t.1 else false
  let s1 := onSen s n (fun d => { d with
    t := v, hist := ((s.clk.now, v) :: d.hist).take 16, warn := w.1, limit := l.1, stop := p.1, trip := trip,
    once := BitVec.ofNat 3 (bitsOf [w.2.1, l.2.1, p.2.1]), lowOnce := BitVec.ofNat 4 (bitsOf [w.2.2, l.2.2, p.2.2, t.2.2]) })
  let s2 := if w.1 && !d.warn then raise s1 0x2B01 (senScope n) (BitVec.ofNat 8 n) v false else s1
  let s3 := if l.1 && !d.limit then onLimit s2 n else if d.limit && !l.1 then offLimit s2 n else s2
  let s4 := if p.1 && !d.stop then onStop s3 n else s3
  if trip && !d.trip then onTrip s4 n else s4
/-- The winding sources of an axis are all invalid: 0x3B08 (R288). A source that has not read yet is not invalid. -/
def checkWinding (s : State) (x : Axis) : State :=
  let src := windSources s x
  let lost := decide (parX s x Par.twSrc ≠ 0) && src.all (fun d => d.seen && !d.valid)
  let was := match x with | .a => s.th.lostA | .b => s.th.lostB
  let s1 := match x with | .a => { s with th.lostA := lost } | .b => { s with th.lostB := lost }
  if lost && !was then raise1 s1 0x3B08 (scopeOf x) noDetail
  else if was && !lost then endCause s1 0x3B08 (scopeOf x) noDetail
  else s1
/-- Entries of R293 follow their cause, and with TH_AUTO_REARM = 1 they clear with bits 27 and 28 of their scope (R293). -/
def rearmStep (s : State) : State :=
  let s1 := { s with flt.list := s.flt.list.map (fun e => if thermalCode e.code then { e with active := !rearmed s e.scope } else e) }
  if parD s Par.thAutoRearm == 1 then
    let s2 := (s1.flt.list.filter (fun e => thermalCode e.code)).foldl (clearEntry false) s1
    [1, 2].foldl (fun t (sc : BitVec 8) => if rearmed t sc then clearLatch t (if sc = 1 then bitW 27 else bitW 28) else t) s2
  else s1
/-- A result of a sensor, or a flagged one (R286 to R288, R293). -/
def sensorSample (s : State) (n : Nat) (r : Option F32) : State :=
  let d := getSen s n
  let bad := match r with
    | none => true
    | some t => decide (n < 15) && (flt t 0xC2480000 || flt 0x43480000 t || fisNan t)
  let turned := decide (d.valid = bad)
  let s1 := onSen s n (fun d => { d with
    valid := !bad, seen := true, hist := if turned && !bad then [] else d.hist, once := if turned && !bad then 0 else d.once })
  let s2 := if bad && (d.valid || !d.seen) && decide (n < 19) then raise0 s1 0x2B07 (senScope n) (BitVec.ofNat 8 n) else s1
  let v := if bad then (if n < 15 then some (substitute s2 n) else none) else r
  let s3 := match v with | some t => senLevels s2 n t | none => s2
  rearmStep (if n < 15 then s3 else checkWinding s3 (senAxis n))

/-- Temperature of an NTC from its pad voltage (R287): absolute zero at either end of the divider, where the logarithm has no
bound; beyond 3.3 V the formula gives no real value, and the reading is free (log 140). -/
def ntcTemp (s : State) (x : Axis) (v : Rat) : F32 :=
  if mkRat 33 10 < v then Config.ntcOver (fThoevo v)
  else if v ≤ 0 || v = mkRat 33 10 then rd (-(mkRat 27315 100))
  else
    let r := pf s x Par.ntcRpu * v / (mkRat 33 10 - v)
    let l := lnR (r / pf s x Par.ntcR25)
    rd (1 / (1 / mkRat 29815 100 + l / pf s x Par.ntcBeta) - mkRat 27315 100)

/-- TH_GRACE_EXPIRY (R291): the derating is enforced. -/
def execThGraceExpiry (sensor : Fin 21) (s : State) : Out :=
  when_ s ((getSen s sensor.val).grace && thoevoUp s) (enforce s sensor.val)

/-- THERMAL_DERATE_TICK (R288, R291): Crest's winding estimate is read, and i_th recomputed. -/
def execThermalDerateTick (s : State) : Out :=
  let crest := fun (t : State) (x : Axis) (n : Nat) =>
    if (parX t x Par.twSrc).getLsbD 2 then
      sensorSample t n (if parX t x Par.crestMode != 0 && (getAx t x).crest.conv then some (getAx t x).crest.tWind else none)
    else t
  let s1 := crest (crest s .a 19) .b 20
  when_ s (thoevoUp s) (reIth (checkWinding (checkWinding s1 .a) .b))

/-- Mean square and mean magnitude of a leg's current over the millisecond (R289); 0 with no period in it. -/
def legMs (g : LegSt) : F32 × F32 :=
  if g.sumN = 0 then (0, 0) else (rd (fval g.sqSum / (g.sumN : Rat)), rd (fval g.absSum / (g.sumN : Rat)))
/-- Loss of one leg in W (R289). -/
def legLoss (s : State) (x : Axis) (l : Leg) : Rat :=
  let m := legMs (getLeg s x l)
  mkRat 3 1000 * fval m.1 + mkRat 1 100000000 * (fval (pwmFreqAct s x) * 1000) * fval (vmHi s) * fval m.2
/-- Gate-charge power of R59 with the switches that switch. -/
def gatePower (s : State) : Rat :=
  bothAxes.foldl (fun p x =>
    if (getAx s x).pwm.switching then
      p + (2 * (6 - (heldLegs s x).length) : Nat) * mkRat 6 1000000000 * 6 * (fval (pwmFreqAct s x) * 1000) / mkRat 85 100
    else p) 0
/-- CASE_ESTIMATE_TICK (R289); an invalid leg diode enters with its substitute (R288). -/
def execCaseEstimateTick (s : State) : Out :=
  let legs := bothAxes.flatMap (fun x => allLegs.map (fun l => (x, l)))
  let p := legs.foldl (fun t q => t + legLoss s q.1 q.2) 0 + gatePower s + mkRat 15 100
  let hot := ((List.range 12).filter (fun (n : Nat) => (getSen s n).seen)).map (fun n => fval (getSen s n).t)
  let ms := legs.map (fun q => legMs (getLeg s q.1 q.2))
  let s1 := { s with th.pEst := rd p, th.iSq := ms.map (·.1), th.iAbs := ms.map (·.2),
                     th.tCase := match hot with | [] => s.th.tCase | t :: ts => rd (ts.foldl max t - mkRat 6 10 * p) }
  when_ s (thoevoUp s) (onBoth s1 (fun a => { a with legs := sixMap (fun g => { g with sqSum := 0, absSum := 0, sumN := 0 }) a.legs }))

end Sys2Proof.Machine
end

