-- ==== Sys2Proof/Machine/Conv.lean ====
section
/-!
DEFINITION. Conversion: tables, urgent requests, profiles, results with their flags, plausibility and arbitration,
reference settling and open-wire tests (chapter 06).
-/

namespace Sys2Proof.Machine
open Sys2Proof

/-- Axis group of a converter (R118). -/
def cvAxis (cv : Nat) : Axis := (cvLeg cv).1
/-- An unsigned code. -/
def uCode (c : BitVec 16) : Rat := ((c.toNat : Nat) : Rat)
/-- Channel index of Table 6.1: pair × 8 + (mux channel − 1). -/
def chanIdx (cv chan : Nat) : Nat := cv % 6 * 8 + (chan - 1)
/-- Single channels, marked † in Table 6.1: SIN, COS, VLAND, VBRK and IHB. -/
def singleChan (k : Nat) : Bool :=
  let c := k % 8 + 1
  c == 2 || c == 3 || k == 14 || k == 16 || k == 24 || k == 32 || k == 40 || k == 38 || k == 46
/-- Channels with signed codes: HV and DIF (Table 6.2). -/
def signedChan (k : Nat) : Bool :=
  let c := k % 8 + 1
  c == 1 || c == 2 || c == 3 || k == 6 || k == 14
/-- The external input of a channel, as an index in pad order (R141). -/
def extOf (k : Nat) : Option Nat :=
  match k with
  | 16 => some 0 | 24 => some 1 | 32 => some 2 | 40 => some 3 | 5 => some 4 | 21 => some 5 | 13 => some 6 | 29 => some 7
  | 22 => some 8 | 30 => some 9 | 45 => some 10 | _ => none
/-- Index of an external input in pad order. -/
def extNo : ExtIn → Nat
  | .sinA => 0 | .cosA => 1 | .sinB => 2 | .cosB => 3 | .ntcA0 => 4 | .ntcA1 => 5 | .ntcB0 => 6 | .ntcB1 => 7
  | .ain0 => 8 | .ain1 => 9 | .refExt => 10
/-- External input of an index. -/
def extIn : Nat → ExtIn
  | 0 => .sinA | 1 => .cosA | 2 => .sinB | 3 => .cosB | 4 => .ntcA0 | 5 => .ntcA1 | 6 => .ntcB0 | 7 => .ntcB1
  | 8 => .ain0 | 9 => .ain1 | _ => .refExt
/-- Number of an external input in a code's detail and a counter's index (17 Table 17.10). -/
def extDetail (n : Nat) : BitVec 8 :=
  match n with
  | 0 => 6 | 1 => 7 | 2 => 8 | 3 => 9 | 4 => 0 | 5 => 1 | 6 => 2 | 7 => 3 | 8 => 4 | 9 => 5 | _ => 10
/-- Scope of an external input: its axis, or the drive. -/
def extScope (n : Nat) : BitVec 8 :=
  if n = 0 ∨ n = 1 ∨ n = 4 ∨ n = 5 then 1 else if n = 2 ∨ n = 3 ∨ n = 6 ∨ n = 7 then 2 else 0
/-- Window word of an external input (Table 6.13). -/
def extWin (s : State) (n : Nat) : Word :=
  match n with
  | 0 => parX s .a Par.winSin | 1 => parX s .a Par.winCos | 2 => parX s .b Par.winSin | 3 => parX s .b Par.winCos
  | 4 => parX s .a Par.winNtc0 | 5 => parX s .a Par.winNtc1 | 6 => parX s .b Par.winNtc0 | 7 => parX s .b Par.winNtc1
  | 8 => parD s Par.winAin0 | 9 => parD s Par.winAin1 | _ => parD s Par.winRefext
/-- The SI value of a code of a shared channel on the scale of Table 6.2; a diode's is the temperature the trim gives (R118,
R120). -/
def siOf (s : State) (cv k : Nat) (code : BitVec 16) (degC : F32) : F32 :=
  let g := vRef s cv / mkRat 5 2
  let c := k % 8 + 1
  if k = 23 ∨ k = 31 ∨ k = 39 ∨ k = 47 then rd (uCode code * mkRat 10 65536 * g)
  else if k = 38 ∨ k = 46 then rd (uCode code * mkRat 4 65536 * g)
  else if c = 4 ∨ c = 5 ∨ k = 37 ∨ k = 7 ∨ k = 15 then degC
  else if k = 16 ∨ k = 24 ∨ k = 32 ∨ k = 40 then rd (sCode code * mkRat 125 3276800 * g)
  else if signedChan k then rd (sCode code * mkRat 3125 1000000 * g)
  else rd (uCode code * mkRat 5 65536 * g)
/-- State of one external input. -/
def getExt (s : State) (n : Nat) : ExtSt := (s.conv.ext[n]?).getD {}
def onExt (s : State) (n : Nat) (f : ExtSt → ExtSt) : State := { s with conv.ext := s.conv.ext.modify n f }
/-- A code rescaled to the 2.5 V scale lies outside an input's window (R141). -/
def outside (s : State) (cv n : Nat) (code : BitVec 16) : Bool :=
  let w := extWin s n
  let hi := (w >>> 16).setWidth 16; let lo := w.setWidth 16
  let k := vRef s cv / mkRat 5 2
  if n < 4 then decide (sCode code * k < sCode lo) || decide (sCode hi < sCode code * k)
  else decide (uCode code * k < uCode lo) || decide (uCode hi < uCode code * k)
/-- The open-wire test runs on an input. -/
def owOn (s : State) (n : Nat) : Bool :=
  match s.conv.ow with
  | .idle => false
  | .first i => extNo i == n
  | .second i _ => extNo i == n
  | .rest i => extNo i == n

/-! Service of a converter (R139). -/

/-- A converter leaves service, and Cairn moves its shared work to the partner (Table 6.9). -/
def cvOut (s : State) (cv : Nat) : State :=
  { onCv s cv (fun c => { c with outOfService := true }) with
    cairn.pendingTr := s.cairn.pendingTr ++ [(.converterOut (Fin.ofNat 12 cv), s.clk.now)] }
/-- A converter serves again; its shared work returns unless it is suspect. -/
def cvBack (s : State) (cv : Nat) : State :=
  let s1 := onCv s cv (fun c => { c with outOfService := false })
  if (getCv s cv).suspect then s1
  else { s1 with cairn.pendingTr := s1.cairn.pendingTr ++ [(.converterBack (Fin.ofNat 12 cv), s.clk.now)] }
/-- The calibration of a converter begins: at once, or after the urgent conversion that is pending on it (Table 6.7). -/
def calBegin (s : State) (cv : Nat) : State :=
  if (getCv s cv).urgent.isSome then { s with conv.calWait := s.conv.calWait ||| (bitW cv).setWidth 12 } else cvOut s cv
/-- The second phase of a calibration: 1 ms after the first began, CV6 to CV11 go out and their partners serve again (R139,
Table 6.9). -/
def calTurn (s : State) : State :=
  if s.conv.calNext ≠ 0 ∧ s.conv.calAt + 1000000 ≤ s.clk.now then
    (List.range 12).foldl (fun t cv => if s.conv.calNext.getLsbD cv then calBegin (cvBack t (cv % 6)) cv else t)
      { s with conv.calNext := 0 }
  else s

/-! Tables (R125 to R130). -/

/-- Conversions run: Thoevo is up and no power-fail commit has stopped them (03 R48). -/
def convUp (s : State) : Bool := thoevoUp s && !s.sum.pfCommit
/-- A triggered table runs: its sequence has entries left and it does not wait. -/
def tblRuns (t : ConvTable) : Bool := !t.todo.isEmpty && !t.pendingRun && t.trig != 9
/-- PAR of an entry admits a run (Table 6.5). -/
def admits (run : Nat) (e : Word) : Bool :=
  if e.getLsbD 30 then (if e.getLsbD 29 then run % 2 == 1 else run % 2 == 0) else true
/-- Channel of a table entry. -/
def entryChan (e : Word) : Nat := ((e >>> 20) &&& 0xF).toNat
/-- Change one table of a converter. -/
def onTbl (c : Converter) (n : Nat) (f : ConvTable → ConvTable) : Converter := { c with tables := c.tables.modify n f }
/-- The channel of converter cv that an open-wire test keeps its tables from (R142). -/
def owChan (s : State) (cv : Nat) : Option Nat :=
  (List.range 8).find? (fun c => match extOf (cv % 6 * 8 + c) with | some n => owOn s n | none => false) |>.map (· + 1)
/-- An entry is converted in a run: its PAR admits the run, and its input is not under test (R127, R142). -/
def takes (ow : Option Nat) (run : Nat) (e : Word) : Bool := admits run e && ow != some (entryChan e)

/-- Hold ticks of the profile points of the axis of a converter: of the profile started last, and of the next one (R122). -/
def profHolds (s : State) (cv : Nat) : List Nat :=
  let x := cvAxis cv
  if (getAx s x).pwm.running then
    let holds := (List.range (profN s x)).map (fun i => (getAx s x).conv.profAt + profD s x + i * profS s x)
    holds ++ holds.map (· + periodTicks s x)
  else []
/-- A hold whose occupancy would overlap a profile point's moves to 250 ns after that profile hold (R117, R127, R129). -/
def deferHold (ps : List Nat) (h : Nat) : Nat :=
  ps.foldl (fun h p => if h < p + 1000 ∧ p < h + 1000 then p + 1000 else h) h
/-- A conversion with its hold at a tick occupies the converter at another: from 28 ns before to 222 ns after (R117). -/
def occupies (hold t : Nat) : Bool := decide (hold ≤ t + 112) && decide (t < hold + 888)

/-- When the trigger source of a table last gave its event (R126, Table 6.6): a period boundary, a valley of c1, an elapsed
timer, a sin/cos sample event. -/
def trigTick (s : State) (t : ConvTable) : Option Nat :=
  let now := nowTick s
  let axis := fun (n : Nat) => if n % 2 = 1 then Axis.a else Axis.b
  let n := t.trig.toNat
  let x := axis n
  let timer := fun (ns : Nat) => if ns = 0 then none
    else match t.trigAt with
      | some k => if now < k + 4 * ns then none else some now
      | none => some now
  if n = 1 ∨ n = 2 then if (getAx s x).pwm.running then some (getAx s x).pwm.perAt else none
  else if n = 3 ∨ n = 4 then
    if (getAx s x).pwm.running then ((getAx s x).pwm.exts.find? (fun e => decide (e.1 ≤ now + 3) && !e.2)).map (·.1) else none
  else if n = 5 then timer s.conv.timers.1
  else if n = 6 then timer s.conv.timers.2
  else if n = 7 ∨ n = 8 then
    let k := (getAx s x).pwm.perAt + nsTicks (parX s x Par.fbScDelay)
    if parX s x Par.fbSrc == 3 && (getAx s x).pwm.running && decide (k ≤ now + 3) then some k else none
  else none
/-- A new event of the table's source has come since the last one it saw. -/
def trigDue (s : State) (t : ConvTable) : Option Nat :=
  match trigTick s t with
  | some k => if t.trigAt == some k && t.trig != 5 && t.trig != 6 then none else some k
  | none => none
/-- A trigger reaches a table (R127, Table 6.7): divided first, then dropped while the table is busy or pending, and in
Foothill mode during a start-up, a sequence or an urgent conversion of the converter (R144). -/
def trigger (foothill : Bool) (ow : Option Nat) (ps : List Nat) (at_ n : Nat) (c : Converter) : Converter :=
  match c.tables[n]? with
  | none => c
  | some t =>
    if t.divCount < t.div.toNat then onTbl c n (fun t => { t with divCount := t.divCount + 1, trigAt := some at_ })
    else if !t.todo.isEmpty || t.pendingRun || (foothill && (c.tables.any tblRuns || c.urgent.isSome)) then
      onTbl c n (fun t => { t with divCount := 0, trigAt := some at_, trigOvr := sat16 t.trigOvr })
    else
      let run := t.runs + 1
      let wake := if foothill then 32000 else 0
      onTbl c n (fun t => { t with
        divCount := 0, runs := run, trigAt := some at_, todo := t.entries.filter (takes ow run),
        holdAt := deferHold ps (at_ + t.delay.toNat + wake), pendingRun := c.tables.any tblRuns })
/-- TABLE_TRIGGER (R126 to R128): an event of the table's own source; no effect on a table that is off or continuous
(Table 6.7). -/
def execTableTrigger (cv : Fin 12) (tbl : Fin 4) (s : State) : Out :=
  match (getCv s cv.val).tables[tbl.val]? with
  | none => skip s
  | some t =>
    match trigDue s t with
    | some k => when_ s (!t.entries.isEmpty && convUp s)
        (onCv (calTurn s) cv.val (trigger s.conv.foothill (owChan s cv.val) (profHolds s cv.val) k tbl.val))
    | none => skip s

/-- Pending tables start in number order once no triggered table runs; one that admits no entry ends at once (R127). -/
def startPending (prev : Nat) (ps : List Nat) (c : Converter) : Converter :=
  (List.range 4).foldl (fun c n => if c.tables.any tblRuns then c else
    onTbl c n (fun t => if t.pendingRun then { t with pendingRun := false, holdAt := deferHold ps (max t.holdAt (prev + 1000)) } else t)) c
/-- A continuous table at the end of a pass begins the next one; a pass that admits no entry is passed over (R128). -/
def contFill (ow : Option Nat) (t : ConvTable) : ConvTable :=
  if !t.todo.isEmpty then t
  else
    let pass := fun (r : Nat) => t.entries.filter (takes ow r)
    if !(pass (t.runs + 1)).isEmpty then { t with runs := t.runs + 1, todo := pass (t.runs + 1) }
    else { t with runs := t.runs + 2, todo := pass (t.runs + 2) }
/-- The entry a table converts next. -/
def nextEntry (ow : Option Nat) (t : ConvTable) : Option Word := (if t.trig == 9 then contFill ow t else t).todo.head?
/-- The table whose next entry takes a result of a channel: the running one; else, while no triggered table runs, the
continuous one (R127, R128). -/
def taking (ow : Option Nat) (c : Converter) (chan : Nat) : Option Nat :=
  let mine := fun (t : ConvTable) => (nextEntry ow t).map entryChan == some chan
  if c.tables.any tblRuns then c.tables.findIdx? (fun t => tblRuns t && mine t)
  else c.tables.findIdx? (fun t => t.trig == 9 && mine t)
/-- A result is stored in its entry's word, and the sequence moves on (R121, R127, R128). -/
def storeResult (ow : Option Nat) (ps : List Nat) (c : Converter) (chan : Nat) (word : Word) : Converter :=
  match taking ow c chan with
  | none => c
  | some n =>
    let c0 := onTbl c n (fun t => if t.trig == 9 then contFill ow t else t)
    match c0.tables[n]? with
    | none => c
    | some t =>
      match t.todo.head? with
      | none => c
      | some e =>
        let c1 := { c0 with results := mapWrite 0 c.results (e &&& 0xFF).toNat (word ||| BitVec.ofNat 32 (t.runs % 4)) }
        let c2 := onTbl c1 n (fun t => { t with todo := t.todo.drop 1, holdAt := deferHold ps (t.holdAt + 1000) })
        if t.trig == 9 then c2 else startPending t.holdAt ps c2
/-- A regular conversion occupies a converter at a tick: the running table's, once its first hold has come, or a continuous
table's while none runs; not while a profile point is converted (R117, R127 to R129). -/
def regularOn (ow : Option Nat) (ps : List Nat) (t : Nat) (c : Converter) : Bool :=
  !ps.any (fun p => occupies p t) &&
  (if c.tables.any tblRuns then c.tables.any (fun b => tblRuns b && decide (b.holdAt ≤ t + 112))
   else c.tables.any (fun b => b.trig == 9 && (nextEntry ow b).isSome))
/-- An urgent request (R129, Table 6.7): dropped while the slot is occupied or the converter is out of service; else it takes
its hold at once or after a profile point, and a regular conversion it meets is repeated. -/
def urgentTo (ow : Option Nat) (ps : List Nat) (t : Nat) (chan : Fin 10) (c : Converter) : Converter :=
  if c.outOfService || c.urgent.isSome then { c with urgDrop := sat16 c.urgDrop }
  else { c with urgent := some chan, urgAt := deferHold ps t,
                urgAbort := if regularOn ow ps t c then sat16 c.urgAbort else c.urgAbort }
/-- The request reaches converter cv now. -/
def urgentNow (s : State) (cv : Nat) (chan : Fin 10) : State :=
  onCv s cv (urgentTo (owChan s cv) (profHolds s cv) (nowTick s) chan)

/-! Urgent requests. -/

/-- URGENT_REQUEST (R129, Table 6.7). -/
def execUrgentRequest (cv : Fin 12) (chan : Fin 10) (s : State) : Out :=
  when_ s (convUp s) (urgentNow (calTurn s) cv.val chan)

/-! Profiles (R122 to R124). -/

/-- Calibrated current of a profile code, A (R120, R139; log 31). -/
def profAmp (s : State) (x : Axis) (l : Leg) (code : BitVec 16) : F32 :=
  let c := (getLeg s x l).cv.cal
  rd ((sCode code * mkRat 48 32768 * vRef s (axisNo x * 6) / mkRat 5 2 - fval c.shuntOfs) / (1 + fval c.shuntGain))
/-- A hold at a tick falls in the edge window of its leg (R123): from a commanded transition for its dead-time and 150 ns,
half-open. -/
def edgeNear (g : LegSt) (t : Nat) : Bool := g.trans.any (fun e => decide (e.1 ≤ t) && decide (t < e.1 + e.2.1 + 600))
/-- The result word of Table 6.3 without its RUN bits. -/
def resultWord (s : State) (cv chan : Nat) (code : BitVec 16) (near urgent win opened : Bool) : Word :=
  BitVec.ofNat 32 (code.toNat * 65536 + cv * 4096 + chan * 256 + bit near 7 + bit urgent 6 + bit win 5 + bit opened 4 +
    bit (getCv s cv).suspect 3 + bit (!(getAx s (cvAxis cv)).conv.refOk) 2)
/-- PROFILE_SAMPLE (R122, R123): point i of all six legs, held at one tick of the course the timebase has laid out. -/
def execProfileSample (x : Axis) (i : Fin 16) (codes : List (BitVec 16)) (s : State) : Out :=
  let n := profN s x
  let a := getAx s x
  let t := a.conv.profAt + profD s x + i.val * profS s x
  let pts := (allLegs.zip codes).map (fun p =>
    let w := resultWord s (axisNo x * 6 + legNo p.1) 0 p.2 (edgeNear (getLeg s x p.1) t) false false false
    (legNo p.1 * 16 + i.val, profAmp s x p.1 p.2, w ||| BitVec.ofNat 32 (a.conv.profRun % 4)))
  let known := match a.pwm.exts with | (t1, _) :: _ => decide (t < t1) | [] => false
  when_ s (isReady s && !s.sum.pfCommit && hosted s x && a.pwm.running && decide (i.val < n) && decide (codes.length = 6) && known)
    (onAx s x (fun a => { a with
      conv.profNow := pts.foldl (fun m p => mapPut m p.1 p.2) (if i.val = 0 then [] else a.conv.profNow),
      conv.profBusy := decide (i.val + 1 < n) }))

/-! Plausibility (R131 to R134). -/

/-- A channel is converted alternately: both converters of the pair serve and neither is suspect (R131). -/
def pairChecks (s : State) (cv : Nat) : Bool :=
  let ok := fun (n : Nat) => !(getCv s n).suspect && !(getCv s n).outOfService
  ok (cv % 6) && ok (cv % 6 + 6)
def getPlaus (s : State) (k : Nat) : Plaus := (s.conv.plaus[k]?).getD {}
def onPlaus (s : State) (k : Nat) (f : Plaus → Plaus) : State := { s with conv.plaus := s.conv.plaus.modify k f }
/-- A result enters the plausibility count of its channel (R132, R133). -/
def plausible (s : State) (cv k : Nat) (code : BitVec 16) (restart : Bool) : State :=
  if singleChan k then s
  else if restart || !pairChecks s cv then onPlaus s k (fun p => { p with last := none, prev := none, run := 0 })
  else
    let y := (if signedChan k then sCode code else uCode code) * vRef s cv / mkRat 5 2
    let h := decide (6 ≤ cv)
    let p := getPlaus s k
    let s1 := onPlaus s k (fun p => { p with last := some (h, y), prev := p.last })
    match p.last, p.prev with
    | some (h1, x), some (h0, y1) =>
      if h0 = h ∧ h1 ≠ h then
        if decide (uCode ((parD s Par.plausWin).setWidth 16) < absR (x - (y1 + y) / 2)) then
          let n := p.run + 1
          let s2 := onCv s1 (if h1 then cv % 6 + 6 else cv % 6) (fun c => { c with plausMismatch := sat16 c.plausMismatch })
          onPlaus s2 k (fun p => { p with run := n, arbitrate := p.arbitrate || decide ((parD s Par.plausCnt).toNat ≤ n) })
        else onPlaus s1 k (fun p => { p with run := 0 })
      else s1
    | _, _ => s1
/-- A commanded bypass may start on an axis (04 R81). -/
def mayRamp (s : State) (x : Axis) : Bool := mayBypass s x && (getAx s x).stage.bypass == .none
/-- The ramp of a commanded bypass starts (04 R81). -/
def startBypass (s : State) (x : Axis) (l : Leg) : State :=
  onAx s x (fun a => { a with stage.bypass := .ramp l, stage.bypassFrom := s.clk.now })
/-- A converter is marked suspect: the mark, its BIST bit, the re-placement of its shared work, and with LEG_AUTO_BYPASS = 1
the bypass of its leg where the command would be accepted (R134; 21 R436). -/
def markSuspect (s : State) (cv : Nat) : State :=
  let p := cvLeg cv
  let s1 := { onCv s cv (fun c => { c with suspect := true }) with
    boot.bist := s.boot.bist ||| 0x4, cairn.pendingTr := s.cairn.pendingTr ++ [(.converterOut (Fin.ofNat 12 cv), s.clk.now)] }
  if parX s p.1 Par.legAutoBypass == 1 && mayRamp s1 p.1 then startBypass s1 p.1 p.2 else s1
/-- One converter fails its arbitration (Table 6.8, R134). -/
def convSuspect (s : State) (cv : Nat) : State :=
  raise0 (raise0 (markSuspect s cv) 0x2401 (scopeOf (cvLeg cv).1) (BitVec.ofNat 8 cv)) 0x2006 0 2
/-- A CHK code deviates from its expectation at a level of 1/4 or 3/4 (R133). -/
def chkOff (s : State) (cv : Nat) (level : Rat) (code : BitVec 16) : Bool :=
  decide (uCode ((parD s Par.chkWin).setWidth 16) < absR (uCode code - level * mkRat 5 2 / vRef s cv))
/-- ARBITRATION_DECISION (R133, Table 6.8). -/
def execArbitrationDecision (pair : Fin 6) (chan : Fin 9) (lowK highK lowP highP : BitVec 16) (s : State) : Out :=
  let k := pair.val * 8 + (chan.val - 1)
  let p := getPlaus s k
  let off := fun (cv : Nat) (lo hi : BitVec 16) => chkOff s cv 16384 lo || chkOff s cv 49152 hi
  let a := off pair.val lowK highK; let b := off (pair.val + 6) lowP highP
  let s1 := onPlaus s k (fun p => { p with run := 0, arbitrate := false, last := none, prev := none })
  let due := match p.warnedAt with | some t => decide (t + 1000000000 ≤ s.clk.now) | none => true
  when_ s (decide (1 ≤ chan.val) && p.arbitrate && convUp s)
    (if a && b then raise1 (markSuspect (markSuspect s1 pair.val) (pair.val + 6)) 0x440A 0 (BitVec.ofNat 8 pair.val)
     else if a then convSuspect s1 pair.val
     else if b then convSuspect s1 (pair.val + 6)
     else if due then raise0 (onPlaus s1 k (fun p => { p with warnedAt := some s.clk.now })) 0x2402 0 (BitVec.ofNat 8 k)
     else s1)

/-! Results (R117, R121). -/

/-- What a channel's result brings: its value to the views (R118), and to its consumer: the bus voltages, the temperatures
and the analog input of the curve (12 R265, 13 R285 to R288, 08 R195). `bad` when it carried WIN or OPEN, `nok` when it
carried SUSPECT or REF_NOK. -/
def consume (s0 : State) (cv k : Nat) (code : BitVec 16) (degC : F32) (bad nok : Bool) : State :=
  let v := siOf s0 cv k code degC
  let s := { s0 with conv.si := s0.conv.si.set k (v, bad || nok) }
  let c := k % 8 + 1
  if k = 0 then busSample { s with bus.vmA := v }
  else if k = 8 then busSample { s with bus.vmB := v }
  else if c = 4 then sensorSample s (k / 8) (some v)
  else if c = 5 then sensorSample s (k / 8 + 6) (some v)
  else if k = 37 then sensorSample s 12 (some v)
  else if k = 7 then sensorSample s 13 (some v)
  else if k = 15 then sensorSample s 14 (some v)
  else if k = 22 then bothAxes.foldl (curveSource 0 (if bad then none else some v)) s
  else match extOf k with
    | some n =>
      let lv := uCode code * mkRat 5 65536 * (vRef s cv / mkRat 5 2)
      if 4 ≤ n ∧ n < 8 then sensorSample s (n + 11) (if bad then none else some (ntcTemp s (if n < 6 then .a else .b) lv)) else s
    | none => s
/-- Window count and WARN 0x2403 of an external input's result (R141). -/
def winResult (s : State) (n : Nat) (win : Bool) (code : BitVec 16) : State :=
  let e := getExt s n
  let r := if win then e.winRun + 1 else 0
  let s1 := onExt s n (fun e => { e with winRun := r, winCount := if win then sat16 e.winCount else e.winCount, code := code })
  if r = 3 then raise0 s1 0x2403 (extScope n) (extDetail n) else s1
/-- Settling of a reference (R137): two CHK codes at least 20 µs apart within 4 LSB. The six converters of an axis share the
reference, and one last code is kept for all of them: DESIGN CHOICE (log 122), the rule does not say that both codes come
from one converter. -/
def refSettle (s : State) (x : Axis) (code : BitVec 16) (t : Nat) : State :=
  let a := getAx s x
  if !a.conv.refWait then s
  else match a.conv.chkLast with
    | none => onAx s x (fun a => { a with conv.chkLast := some (code, t) })
    | some (c, t0) =>
      if t < t0 + 20000 then s
      else if absR (uCode code - uCode c) ≤ 4 then onAx s x (fun a => { a with conv.refOk := true, conv.refWait := false, conv.chkLast := none })
      else onAx s x (fun a => { a with conv.chkLast := some (code, t) })
/-- WIN and OPEN of a channel's code (R141, R143). -/
def extFlags (s : State) (cv k : Nat) (code : BitVec 16) : Bool × Bool :=
  match extOf k with
  | some n => (outside s cv n code, (getExt s n).opened)
  | none => (false, false)
/-- A registered result with its flags (R121): to the urgent slot or its table's entry, then to its consumers (R132, R137,
R141). Entries of an input under test are skipped, and its consumers keep the earlier result (R142). -/
def takeResult (s : State) (cv : Nat) (chan : Fin 10) (code : BitVec 16) (degC : F32) (urgent : Bool) : State :=
  let c := getCv s cv
  let k := chanIdx cv chan.val
  let shared := decide (1 ≤ chan.val ∧ chan.val ≤ 8)
  let ow := owChan s cv
  let fl := if shared then extFlags s cv k code else (false, false)
  let hold := if urgent then c.urgAt else match taking ow c chan.val with
    | some n => (c.tables[n]?.map (·.holdAt)).getD (nowTick s)
    | none => nowTick s
  let near := chan.val == 0 && edgeNear (getLeg s (cvLeg cv).1 (cvLeg cv).2) hold
  let word := resultWord s cv chan.val code near urgent fl.1 fl.2
  let nok := !(getAx s (cvAxis cv)).conv.refOk
  let s1 := if urgent then onCv s cv (fun c => { c with urgent := none, urgentResult := word })
    else onCv s cv (fun c => storeResult ow (profHolds s cv) c chan.val word)
  -- a calibration that waited for the urgent conversion begins (Table 6.7)
  let s1 := if urgent && s1.conv.calWait.getLsbD cv then
      cvOut { s1 with conv.calWait := s1.conv.calWait &&& ~~~((bitW cv).setWidth 12) } cv else s1
  if chan.val = 9 then refSettle s1 (cvAxis cv) code s.clk.now
  else if !shared then s1
  else if ow == some chan.val then (if singleChan k then s1 else plausible s1 cv k code true)
  else
    let s2 := match extOf k with | some n => winResult s1 n fl.1 code | none => s1
    plausible (consume s2 cv k code degC (fl.1 || fl.2) (nok || c.suspect)) cv k code nok
/-- CONVERSION_RESULT (R117, R121, R129, R132, R137, R141 to R143). An external input is converted only for the urgent slot or
a placed entry (02 R37). -/
def execConversionResult (cv : Fin 12) (chan : Fin 10) (code : BitVec 16) (degC : F32) (t : Nat) (s0 : State) : Out :=
  let s := calTurn (at_ s0 t)
  let c := getCv s cv.val
  let k := chanIdx cv.val chan.val
  let urgent := c.urgent == some chan
  let outer := decide (1 ≤ chan.val ∧ chan.val ≤ 8) && (extOf k).isSome
  let asked := urgent || (taking (owChan s cv.val) c chan.val).isSome
  when_ s0 ((convUp s0 || s0.pwr.boot.isSome) && (!outer || asked)) (takeResult s cv.val chan code degC urgent)

/-- VM_XCHK_TIMEOUT (R135). -/
def execVmXchkTimeout (vmAMv vmBMv : Nat) (s : State) : Out :=
  let d := absR (milli vmAMv - milli vmBMv)
  when_ s (thoevoUp s && decide (fval (parD s Par.vmXchk) < d)) (raise s 0x2405 0 noDetail (rd d) false)

/-- REF_OK_TIMEOUT (R138). -/
def execRefOkTimeout (x : Axis) (s : State) : Out :=
  let a := getAx s x
  when_ s (a.conv.refWait && !a.conv.refOk) (raise0 s 0x2406 (scopeOf x) noDetail)

/-! Open-wire tests (R142, R143). -/

/-- A CHANNEL record names a channel. -/
def declared (s : State) (code : Nat) : Bool :=
  match s.cairn.active with
  | some p => p.channels.any (fun c => c.code == code)
  | none => false
/-- The external inputs the drive tests, in pad order (R142): those a consumer or a CHANNEL record declares, without the
sin/cos inputs of an axis in RUN that uses them. -/
def owInputs (s : State) : List Nat :=
  let sc := fun (x : Axis) (k : Nat) => (parX s x Par.fbSrc == 3 || declared s k) && !(parX s x Par.fbSrc == 3 && gatesOn (getAx s x))
  let ntc := fun (x : Axis) (b k : Nat) => (parX s x Par.twSrc).getLsbD b || declared s k
  let ain0 := declared s 22 || bothAxes.any (fun x => curveUsed s x && curvePar s x Par.curveIn == 0)
  let refx := declared s 45 || bothAxes.any (fun x => (getAx s x).conv.refSel == 1)
  let all := [sc .a 16, sc .a 24, sc .b 32, sc .b 40, ntc .a 0 5, ntc .a 1 21, ntc .b 0 13, ntc .b 1 29, ain0, declared s 30, refx]
  (all.zipIdx).filterMap (fun p => if p.1 then some p.2 else none)
/-- Entries of the input under test leave the running sequences of both converters of its pair (R142). -/
def dropTested (s : State) : State :=
  (List.range 12).foldl (fun t cv => match owChan t cv with
    | some ch => onCv t cv (fun c => startPending (nowTick t) (profHolds t cv) { c with
        tables := c.tables.map (fun b => { b with todo := b.todo.filter (fun e => entryChan e != ch) }) })
    | none => t) s
/-- OPEN_WIRE_TEST_START (R142): the next declared input in turn. -/
def execOpenWireTestStart (s : State) : Out :=
  let l := owInputs s
  let n := s.conv.owNext % max 1 l.length
  match l[n]? with
  | none => skip s
  | some i => when_ s (isReady s && !s.sum.pfCommit && parD s Par.owPeriod != 0 && s.conv.ow == .idle)
      (dropTested { s with conv.ow := .first (extIn i), conv.owNext := n + 1 })
/-- Channel of an external input, as an index of Table 6.1. -/
def extChan (n : Nat) : Nat := ((List.range 48).find? (fun k => extOf k == some n)).getD 0
/-- The converter whose urgent conversion the test takes: the pair's lower one, or its partner while that one is out of
service (Table 6.7). -/
def owCv (s : State) (n : Nat) : Nat :=
  let k := extChan n / 8
  if (getCv s k).outOfService then k + 6 else k
/-- The urgent conversion of a test step is made: a regular conversion it meets is repeated (R129, R142). -/
def owConvert (s : State) (n : Nat) : State :=
  let cv := owCv s n
  onCv (urgentNow s cv (Fin.ofNat 10 (extChan n % 8 + 1))) cv (fun c => { c with urgent := (getCv s cv).urgent })
/-- Judgement of an input (R143): open by both levels, in V. -/
def owOpen (s : State) (n : Nat) (up dn : Rat) : Bool :=
  if n < 4 then decide (1 ≤ up) && decide (dn ≤ -1)
  else decide (fval (parD s Par.owHi) ≤ up) && decide (dn ≤ fval (parD s Par.owLo))
/-- OPEN_WIRE_SETTLE_EXPIRY (R142, R143, Table 6.10). -/
def execOpenWireSettleExpiry (mv : Int) (s : State) : Out :=
  match s.conv.ow with
  | .idle => skip s
  | .first i => done s { owConvert s (extNo i) with conv.ow := .second i mv }
  | .second i up =>
    let n := extNo i
    let o := owOpen s n (milli up) (milli mv)
    let s1 := onExt { owConvert s n with conv.ow := .rest i } n (fun e => { e with
      opened := o, owDetect := if o && e.owDetect != 0xFF then e.owDetect + 1 else e.owDetect })
    done s (if o then raise0 s1 0x2404 (extScope n) (extDetail n) else s1)
  | .rest _ => done s { s with conv.ow := .idle }

end Sys2Proof.Machine
end

