-- ==== Sys2Proof/Machine/Fuse.lean ====
section
/-!
DEFINITION. The fuse array as it is sensed: rows, redirection, retired regions, flags, keys, secrets and the status words
over them (chapter 20). Rows 0 to 255; spare Sk is row 256 + k.
-/

namespace Sys2Proof.Machine
open Sys2Proof

/-- Data of a physical row as burned (R407). -/
def fuseRow (s : State) (p : Nat) : BitVec 64 := mapRead 0 s.otp.fuse p
/-- Bits set in a byte of a flag row (R409). -/
def flagCount (w : BitVec 64) (k : Nat) : Nat := ((List.range 8).filter (fun (i : Nat) => w.getLsbD (8 * k + i))).length
/-- A flag is set when five or more of its eight bits read 1 (R409). -/
def flagSet (w : BitVec 64) (k : Nat) : Bool := decide (5 ≤ flagCount w k)
/-- First row and seal row of a region (Table 20.1). -/
def regionRows : Nat → Nat × Nat
  | 0 => (0, 31) | 1 => (64, 79) | 2 => (80, 107) | 3 => (128, 159) | _ => (192, 215)
/-- The region of a row (Table 20.1). -/
def regionOf (r : Nat) : Option Nat :=
  (List.range 5).find? (fun (k : Nat) => decide ((regionRows k).1 ≤ r) && decide (r ≤ (regionRows k).2))
/-- The RETIRE flag of a region (Table 20.2). -/
def retireFlag (s : State) (k : Nat) : Bool := flagSet (fuseRow s 241) k
/-- The select flag of a region: its class's spare region replaces it (Table 20.2). -/
def selectFlag (s : State) (k : Nat) : Bool := flagSet (fuseRow s 242) k
/-- A region is read from its spare region (R418). -/
def replacedRegion (s : State) (k : Nat) : Bool := retireFlag s k && selectFlag s k
/-- Where a row of the map lies, before redirection (R418). -/
def mapRow (s : State) (r : Nat) : Nat :=
  match regionOf r with
  | some k => if replacedRegion s k then (if k = 4 then r - 192 + 216 else r - (regionRows k).1 + 160) else r
  | none => r
/-- Entry of a redirection row: the majority of its three copies (R416). -/
def entryOf (w : BitVec 64) : BitVec 16 :=
  let a : BitVec 16 := w.setWidth 16; let b : BitVec 16 := (w >>> 16).setWidth 16; let c : BitVec 16 := (w >>> 32).setWidth 16
  (a &&& b) ||| (a &&& c) ||| (b &&& c)
/-- The row a spare's entry names, if the entry is valid. -/
def entryRow (s : State) (k : Nat) : Option Nat :=
  let e := entryOf (fuseRow s (248 + k))
  if e.getLsbD 15 then some (e.toNat % 256) else none
/-- The spare that stands for a row (R410, R416): the latest redirection, since spares are taken lowest first. -/
def redirOf (s : State) (r : Nat) : Option Nat := (List.range 8).reverse.find? (fun (k : Nat) => entryRow s k == some r)
/-- The physical row a row of the map is sensed from. -/
def physRow (s : State) (r : Nat) : Nat := match redirOf s (mapRow s r) with | some k => 256 + k | none => mapRow s r
/-- How a physical row senses (R410). -/
def senseOf (s : State) (p : Nat) : RowState := ((s.otp.states.find? (fun q => q.1 == p)).map (·.2)).getD .good
/-- Flag rows: their check bits are not evaluated (R409). -/
def flagRow (r : Nat) : Bool := r == 104 || (decide (240 ≤ r) && decide (r ≤ 242))
/-- A flag of the row is WEAK: one to seven of its bits read 1 (R409). -/
def weakFlag (w : BitVec 64) : Bool :=
  (List.range 8).any (fun (k : Nat) => decide (1 ≤ flagCount w k) && decide (flagCount w k ≤ 7))
/-- The three copies of a redirection entry disagree (R416). -/
def copiesDiffer (w : BitVec 64) : Bool :=
  let a : BitVec 16 := w.setWidth 16
  a != (w >>> 16).setWidth 16 || a != (w >>> 32).setWidth 16
/-- State of a row as OTP_READ reports it (R410): REDIRECTED when read from a GOOD spare; of a flag row WEAK where a flag
is; of an entry row WEAK where its copies disagree (R416). -/
def rowState (s : State) (r : Nat) : RowState :=
  if flagRow r then (if weakFlag (fuseRow s (physRow s r)) then .weak else .good) else
  let p := physRow s r
  match senseOf s p with
  | .weak => .weak
  | .bad => .bad
  | _ =>
    if 248 ≤ r ∧ r ≤ 255 ∧ copiesDiffer (fuseRow s p) then .weak
    else if 256 ≤ p then .redirected else .good
/-- State number of OTP_READ. -/
def rowCode : RowState → Nat | .good => 0 | .weak => 1 | .redirected => 2 | .bad => 3
/-- Shadow of a row without override: the data, or the raw value of a BAD row (R410). -/
def rowData (s : State) (r : Nat) : BitVec 64 :=
  let p := physRow s r
  if senseOf s p = .bad ∧ !flagRow r then Config.otpRaw p (fuseRow s p) else fuseRow s p
/-- Shadow of a row, override included (R413). -/
def shadow (s : State) (r : Nat) : BitVec 64 := (mapGet s.otp.overrides r).getD (rowData s r)
/-- A region is locked, itself or the spare region that replaces it (R417, Table 20.2). -/
def lockedRegion (s : State) (k : Nat) : Bool :=
  flagSet (fuseRow s 240) (if replacedRegion s k then (if k = 4 then 6 else 5) else k)
/-- Rows of a region, seal included. -/
def contentRows (k : Nat) : List Nat := (List.range ((regionRows k).2 + 1 - (regionRows k).1)).map (· + (regionRows k).1)
/-- Eight bytes of a row, little-endian (R408). -/
def rowBytes (w : BitVec 64) : List Byte := leBytes 8 w.toNat
/-- CRC of a region's rows before its seal, row 104 left out (R411). -/
def regionCrc (s : State) (k : Nat) : Word :=
  crc32 (((contentRows k).filter (fun r => r != (regionRows k).2 && r != 104)).flatMap (fun r => rowBytes (rowData s r)))
/-- The seal a region's rows ask for (R411). -/
def sealWord (s : State) (k : Nat) : BitVec 64 :=
  (regionCrc s k).setWidth 64 ||| (BitVec.ofNat 64 k <<< 32) ||| ((0xA5 : BitVec 64) <<< 40)
/-- A region is FAILED: a content row BAD, or locked with a seal that does not match (R411). -/
def failedRegion (s : State) (k : Nat) : Bool :=
  (contentRows k).any (fun r => r != 104 && rowState s r == .bad) ||
  (lockedRegion s k && rowData s (regionRows k).2 != sealWord s k)
/-- States of a region (R411). -/
inductive RegionState where | blank | opened | sealed | failed
deriving DecidableEq, Repr
/-- The state of a region (R411): a seal is compared only when its region is locked. -/
def regionState (s : State) (k : Nat) : RegionState :=
  if failedRegion s k then .failed
  else if lockedRegion s k then .sealed
  else if (contentRows k).all (fun r => rowData s r == 0) then .blank
  else .opened
/-- Spares that are blank, named by no valid entry and not skipped (R416). -/
def freeSpares (s : State) : List Nat :=
  (List.range 8).filter (fun (k : Nat) => fuseRow s (256 + k) == 0 && (entryRow s k).isNone && !s.otp.skipped.contains k)
/-- Some row or flag senses WEAK (R410). -/
def anyWeak (s : State) : Bool := (List.range 256).any (fun r => rowState s r == .weak)

/-! Keys and secrets (R420, R422). -/

/-- The four rows of a key slot: M0 to M3, I0, I1 (Table 20.1). -/
def slotRows (j : Nat) : List Nat := [80 + 4 * j, 81 + 4 * j, 82 + 4 * j, 83 + 4 * j]
/-- REVOKE flag of a slot (Table 20.2). -/
def slotRevoked (s : State) (j : Nat) : Bool := flagSet (rowData s 104) j
/-- Provisioned: one of its rows is not blank (R420). -/
def slotProvisioned (s : State) (j : Nat) : Bool := (slotRows j).any (fun r => rowData s r != 0)
/-- Usable: provisioned, not revoked, no row BAD (R420). -/
def slotUsable (s : State) (j : Nat) : Bool :=
  decide (j < 6) && slotProvisioned s j && !slotRevoked s j && (slotRows j).all (fun r => rowState s r != .bad)
/-- The digest a slot holds, byte 0 lowest (R408). -/
def slotDigest (s : State) (j : Nat) : BitVec 256 :=
  rowData s (83 + 4 * j) ++ rowData s (82 + 4 * j) ++ rowData s (81 + 4 * j) ++ rowData s (80 + 4 * j)
/-- First row of a role's secret (Table 20.1). -/
def secretRow : Role → Nat | .operator => 132 | .installer => 136 | .maker => 140
/-- Secret of a role, 32 bytes; none while its rows are blank (R422). -/
def roleSecret (s : State) (r : Role) : Option (List Byte) :=
  let ws := (List.range 4).map (fun (k : Nat) => rowData s (secretRow r + k))
  if ws.all (· == 0) then none else some (ws.flatMap rowBytes)

/-! Status words. -/

/-- INSTALLER_OPT in force: the shadow of row 192, override included; 0 with INSTALLER failed (R412, R424). -/
def installerOpt (s : State) : BitVec 64 :=
  match mapGet s.otp.overrides 192 with
  | some d => d
  | none => if s.otp.failed.getLsbD 4 then 0 else rowData s 192
/-- OTP_STATUS (Table 20.11). -/
def otpStatus (s : State) : Word :=
  BitVec.ofNat 32 (bitsOf ((List.range 5).map (lockedRegion s)) * 2 ^ 24 + s.otp.failed.toNat * 2 ^ 16 +
    (freeSpares s).length * 2 ^ 8 + bit (selectFlag s 4) 4 + bit ((List.range 4).any (selectFlag s)) 3 + bit (anyWeak s) 2 +
    bit (!s.otp.overrides.isEmpty) 1 + bit (s.otp.failed != 0) 0)
/-- KEY_STATUS (Table 20.11). -/
def keyStatus (s : State) : BitVec 16 :=
  BitVec.ofNat 16 (bitsOf ((List.range 6).map (slotRevoked s)) * 256 + bitsOf ((List.range 6).map (slotUsable s)))

end Sys2Proof.Machine
end

