-- ==== Sys2Proof/Machine/Session.lean ====
section
/-!
DEFINITION. How Thoevo serves a request: the checks of Table 17.2 in their order, replay, replies, the audit ring; and the
session commands (chapter 17; 20 R425).
-/

namespace Sys2Proof.Machine
open Sys2Proof

/-! Serving a request (R346 to R350). -/

/-- What a command needs of the session (17 Tables 17.5 to 17.8): nothing, an open session, or a role of at least this
number (1 operator, 2 installer, 3 maker). -/
inductive Need where
  | nothing
  | session
  | role (n : Nat)
deriving DecidableEq, Repr
/-- What a command that passed the ordered checks answers: done with data, refused, refused with an effect of its own, begun
as a long operation, or answered later. -/
inductive Ans where
  | ok (t : State) (data : List Byte)
  | no (result detail : Nat) (data : List Byte)
  | fail (t : State) (result detail : Nat) (data : List Byte := [])
  | long (t : State) (op : LongOp)
  | later (t : State)
deriving DecidableEq, Repr
/-- Role number (20 R423). -/
def roleNo : Role → Nat | .operator => 1 | .installer => 2 | .maker => 3
/-- Role of a number. -/
def roleOf (n : Nat) : Option Role := if n = 1 then some .operator else if n = 2 then some .installer else if n = 3 then some .maker else none
/-- The open session a request names, on its own transport (R349). -/
def sessionOf (s : State) (h : Hdr) : Option Session :=
  if h.session = 0 then none
  else match s.mbx.sessions[h.session.toNat - 1]? with
    | some (some se) => if se.transport = h.tr then some se else none
    | _ => none
/-- Role number a request acts with: 0 without an authenticated session. -/
def actsAs (s : State) (h : Hdr) : Nat :=
  match sessionOf s h with | some se => if se.authed then roleNo se.role else 0 | none => 0
/-- Change a session. -/
def onSession (s : State) (h : Hdr) (f : Session → Option Session) : State :=
  if h.session = 0 then s
  else { s with mbx.sessions := s.mbx.sessions.modify (h.session.toNat - 1) (fun o => o.bind f) }
/-- A reply on the request's transport (R346). -/
def reply (s : State) (h : Hdr) (op : BitVec 16) (result detail : Nat) (data : List Byte) : State :=
  sendMsg s h.tr (mkReply op h result detail data)
/-- An executed request: its session's idle time restarts and its reply is kept for a repeat (R349, R350). -/
def remember (s : State) (h : Hdr) (op : BitVec 16) (m : Msg) : State :=
  onSession s h (fun se => some { se with lastAt := s.clk.now, last := some (op, h.tag, h.crc, m) })
/-- Bit 0 of DETAIL set in a stored reply (R350). -/
def replayed (m : Msg) : Msg :=
  { m with payload := m.payload.take 2 ++ [((m.payload[2]?).getD 0) ||| 1] ++ m.payload.drop 3 }
/-- The stored reply of a repeat of the session's last executed request (R350). -/
def replayOf (s : State) (h : Hdr) (op : BitVec 16) : Option Msg :=
  match sessionOf s h with
  | some se => match se.last with
    | some (o, t, c, m) => if o = op ∧ t = h.tag ∧ c = h.crc then some (replayed m) else none
    | none => none
  | none => none
/-- Opcodes the boot ROM serves in a service state (21 R434, Table 21.3). -/
def romServes (s : State) (op : BitVec 16) : Bool :=
  let common := [0x0101, 0x0102, 0x0103, 0x0301, 0x0A04, 0x0901].contains op.toNat
  match s.boot.service with
  | .none => true
  | .recovery => common || [0x0A01, 0x0A02, 0x0A03, 0x0A06].contains op.toNat
  | .maker => common || [0x0903, 0x0904, 0x0A06].contains op.toNat
/-- Someone serves requests: Thoevo outside a power-fail commit, or on the host port the boot ROM of a service state. -/
def serves (s : State) (h : Hdr) : Bool :=
  (thoevoUp s && !s.sum.pfCommit) || (s.sum.on && s.boot.service != .none && h.tr == .host)
/-- Commands of a service state that need the maker (21 Table 21.3). -/
def romNeed (s : State) (op : BitVec 16) (n : Need) : Need :=
  if s.boot.service = .maker ∧ [0x0903, 0x0904, 0x0A06].contains op.toNat then .role 3 else n
/-- Longest message payload on the backbone (18 R383): none on the host port. -/
def payloadLimit : Transport → Option Nat
  | .host => none
  | .backbone src => some (if src.udp = 0 then 1476 else 1448)
/-- A reply of this much data does not fit its transport. -/
def tooLong (h : Hdr) (data : List Byte) : Option Nat :=
  match payloadLimit h.tr with | some l => if l < data.length + 4 then some l else none | none => none
/-- The session and role checks: NO_SESSION, ROLE (Table 17.2). -/
def needFails (s : State) (h : Hdr) (n : Need) : Option (Nat × Nat) :=
  if h.session ≠ 0 ∧ (sessionOf s h).isNone then some (4, 0)
  else match n with
    | .nothing => none
    | .session => if h.session = 0 then some (4, 0) else none
    | .role k => if actsAs s h = 0 then some (4, 0) else if actsAs s h < k then some (5, k) else none
/-- What the answer of an executed command leaves: its reply on the transport, kept with the session. -/
def conclude (s : State) (h : Hdr) (op : BitVec 16) (a : Ans) : State :=
  match a with
  | .ok t data =>
    match tooLong h data with
    | some l => reply s h op 6 l []
    | none => sendMsg (remember t h op (mkReply op h 0 0 data)) h.tr (mkReply op h 0 0 data)
  | .no r d data => reply s h op r d data
  | .fail t r d data => reply t h op r d data
  | .long t lop => remember { t with mbx.long := some (lop, h) } h op (mkReply op h 0 0 [])
  | .later t => remember t h op (mkReply op h 0 0 [])
/-- The lower of two payload offsets, where there is one. -/
def lower : Option Nat → Option Nat → Option Nat
  | some a, some b => some (min a b)
  | some a, none => some a
  | none, b => b
/-- A request is checked in the order of Table 17.2 and answered; `bad` is the first field of its payload out of range, `run`
the command's own part with the role it acts with (R347, R360). -/
def serve (s : State) (h : Hdr) (op : BitVec 16) (n : Need) (bad : Option Nat) (run : Nat → Ans) : State :=
  if s.mbx.long.isSome then reply s h op 1 (Config.busyMs s.clk.now).toNat []
  else if !romServes s op then reply s h op 3 0 []
  else match replayOf s h op with
    | some m => sendMsg (onSession s h (fun se => some { se with lastAt := s.clk.now })) h.tr m
    | none =>
      match needFails s h (romNeed s op n) with
      | some (r, d) => reply s h op r d []
      | none => match lower h.bad bad with
        | some off => reply s h op 6 off []
        | none => conclude s h op (run (actsAs s h))
/-- The outcome of a request. -/
def request (s : State) (h : Hdr) (op : BitVec 16) (n : Need) (bad : Option Nat) (run : Nat → Ans) : Out :=
  when_ s (serves s h) (serve s h op n bad run)

/-! Fields of requests (R360). -/

/-- The first of several checks of a payload that fails, as offset of the bad field. -/
def firstBad (l : List (Bool × Nat)) : Option Nat := (l.find? (·.1)).map (·.2)
/-- An axis mask or scope mask: nonzero, with only these bits. -/
def badMask (m : BitVec 8) (n : Nat) : Bool := decide (m.toNat = 0) || decide (2 ^ n ≤ m.toNat)
/-- Axes of a mask. -/
def maskAxes (m : BitVec 8) : List Axis := bothAxes.filter (fun x => m.getLsbD (axisNo x))

/-! The audit ring (20 R425). -/

/-- An entry of the ring of 4,096 (20 Table 20.8a). -/
def auditOne (role : Nat) (s : State) (e : Nat × Nat × Word × Word) : State :=
  let n := s.nv.auditSeq + 1
  let l := s.nv.audit ++ [⟨n, stamp s, BitVec.ofNat 8 role, BitVec.ofNat 8 e.1, BitVec.ofNat 16 e.2.1, e.2.2.1, e.2.2.2⟩]
  { s with nv.auditSeq := n, nv.audit := l.drop (l.length - 4096) }
/-- Entries (kind, object, old, new) of a request are committed before its change; where they cannot be, it is refused
(R425). Only installer and maker sessions are recorded (17 R351). -/
def audited (s : State) (role : Nat) (es : List (Nat × Nat × Word × Word)) (k : State → Ans) : Ans :=
  if role < 2 ∨ es.isEmpty then k s
  else if !s.nv.auditOk then .no 0x31 0xFFFF []
  else k (es.foldl (auditOne role) s)
/-- The same for a long operation that ends: the entries of what it stores. -/
def auditAll (s : State) (role : Nat) (es : List (Nat × Nat × Word × Word)) : State :=
  if role < 2 then s else es.foldl (auditOne role) s

/-! Sessions (R349). -/

/-- Lock record of a role. -/
def getLock (s : State) : Role → RoleLock | .operator => s.mbx.lockOp | .installer => s.mbx.lockInst | .maker => s.mbx.lockMaker
/-- Change a role's lock record. -/
def onLock (s : State) (r : Role) (l : RoleLock) : State :=
  match r with
  | .operator => { s with mbx.lockOp := l } | .installer => { s with mbx.lockInst := l } | .maker => { s with mbx.lockMaker := l }
/-- Seconds a lock has left, rounded up; 0 when the role is not locked. -/
def lockLeft (s : State) (r : Role) : Nat :=
  match (getLock s r).lock with
  | some n => ((getLock s r).since + n * 1000000000 - s.clk.now + 999999999) / 1000000000
  | none => 0
/-- A wrong response (R349): the third in a row locks the role for 10 s with WARN 0x2E05; one for a locked role starts a lock
of twice the length, up to 160 s. -/
def wrongResponse (s : State) (r : Role) : State :=
  let l := getLock s r
  match l.lock with
  | some n => onLock s r { l with wrong := l.wrong + 1, lock := some (min 160 (2 * n)), since := s.clk.now }
  | none =>
    if 3 ≤ l.wrong + 1 then
      raise0 (onLock s r { l with wrong := l.wrong + 1, lock := some 10, since := s.clk.now }) 0x2E05 0 (BitVec.ofNat 8 (roleNo r))
    else onLock s r { l with wrong := l.wrong + 1 }
/-- First free place of the four (R349). -/
def freePlace : Nat → List (Option Session) → Option Nat
  | _, [] => none
  | k, none :: _ => some k
  | k, some _ :: l => freePlace (k + 1) l
/-- SESSION_OPEN (R349): a place, a role named, a fresh challenge. -/
def execSessionOpen (h : Hdr) (role : BitVec 8) (s : State) : Out :=
  request s h 0x0101 .nothing (firstBad [((roleOf role.toNat).isNone, 0)]) (fun _ =>
    match roleOf role.toNat with
    | none => .no 6 0 []
    | some r =>
      if (installerOpt s).getLsbD 1 && r != .operator && h.tr != .host then .no 0x31 1 []
      else if (getLock s r).lock.isSome then .no 0x40 (lockLeft s r) []
      else match freePlace 0 s.mbx.sessions with
        | none => .no 0x41 0 []
        | some k =>
          let c := Config.challenge s.clk.free
          let se : Session := { transport := h.tr, role := r, challenge := c, openedAt := s.clk.now, lastAt := s.clk.now }
          .ok { s with clk.free := s.clk.free + 1, mbx.sessions := s.mbx.sessions.set k (some se) }
            (u8 (k + 1) ++ [0, 0, 0] ++ leBytes 16 c.toNat))
/-- What the response to a challenge must be (R349): HMAC over challenge, UID, role and session; none without a secret. -/
def expected (s : State) (h : Hdr) (se : Session) : Option (List Byte) :=
  (roleSecret s se.role).map (fun key => hmacSha256 key (leBytes 16 se.challenge.toNat ++ leBytes 8 s.boot.uid.toNat ++ [BitVec.ofNat 8 (roleNo se.role), h.session]))
/-- SESSION_AUTH (R349). -/
def execSessionAuth (h : Hdr) (response : BitVec 256) (s : State) : Out :=
  request s h 0x0102 .session none (fun _ =>
    match sessionOf s h with
    | none => .no 4 0 []
    | some se =>
      let closed := onSession s h (fun _ => none)
      let right := expected s h se == some (leBytes 32 response.toNat)
      if se.answered || decide (se.openedAt + 10000000000 < s.clk.now) then .fail closed 0x40 (lockLeft s se.role)
      else if !right then
        let t := wrongResponse closed se.role
        .fail t 0x40 (lockLeft t se.role)
      else if (getLock s se.role).lock.isSome then .fail closed 0x40 (lockLeft s se.role)
      else
        let t := onLock s se.role { getLock s se.role with wrong := 0 }
        .ok (onSession t h (fun q => some { q with authed := true, answered := true })) (u8 (roleNo se.role) ++ [0, 0, 0] ++ u32 300))
/-- SESSION_CLOSE (R349). -/
def execSessionClose (h : Hdr) (s : State) : Out :=
  request s h 0x0103 .session none (fun _ => .ok (onSession s h (fun _ => none)) [])
/-- SESSION_INFO (R360): the request itself restarts the idle time. -/
def execSessionInfo (h : Hdr) (s : State) : Out :=
  request s h 0x0104 .nothing none (fun r =>
    .ok s (u8 r ++ u8 (s.mbx.sessions.filter (·.isSome)).length ++ [0, 0] ++ u32 (if h.session = 0 then 0 else 300)))
/-- EVENT_MASK (R362). -/
def execEventMask (h : Hdr) (mask : BitVec 8) (s : State) : Out :=
  request s h 0x0105 (.role 1) (firstBad [(decide (8 ≤ mask.toNat), 0)]) (fun _ =>
    .ok (match h.tr with | .host => { s with mbx.maskHost := mask } | .backbone _ => { s with mbx.maskNet := mask }) [mask, 0, 0, 0])
/-- SESSION_IDLE_TIMEOUT (R349): 300 s without an accepted request. -/
def execSessionIdleTimeout (session : Fin 5) (s : State) : Out :=
  match (if session.val = 0 then none else (s.mbx.sessions[session.val - 1]?).join) with
  | some se => when_ s (decide (se.lastAt + 300000000000 ≤ s.clk.now)) { s with mbx.sessions := s.mbx.sessions.set (session.val - 1) none }
  | none => skip s
/-- ROLE_LOCK_EXPIRY (R349). -/
def execRoleLockExpiry (r : Role) (s : State) : Out :=
  let l := getLock s r
  match l.lock with
  | some n => when_ s (s.sum.on && decide (l.since + n * 1000000000 ≤ s.clk.now)) (onLock s r { l with lock := none })
  | none => skip s

end Sys2Proof.Machine
end

