-- ==== Sys2Proof/Machine/Cairn.lean ====
section
/-!
DEFINITION. Cairn: declarations, the checks and the ledger of a full compile, gate lists and runtime re-placement
(chapter 14).
-/

namespace Sys2Proof.Machine
open Sys2Proof

/-! The declaration (R297). -/

/-- A declaration record (Table 14.1), the streams with their retention. -/
inductive DRec where
  | axis (x m p : Nat)
  | chan (c : DeclChannel)
  | stream (n : Nat) (keep : Bool) (rate span : F32) (params : List (BitVec 16))
  | cyclic (c : CyclicPlace)
deriving DecidableEq, Repr
/-- f32 value within bounds, finite. -/
def fIn (v lo hi : F32) : Bool := ffinite v && fle lo v && fle v hi
/-- PAR_GET knows an index (00 R7): a defined row, its unused bits 0, and bit 15 only on a per-axis row. -/
def parKnown (i : BitVec 16) : Option PDef :=
  if i.toNat % 0x8000 / 0x1000 ≠ 0 then none else parDef (i.toNat % 0x1000)
def parGettable (i : BitVec 16) : Bool :=
  match parKnown i with | some d => d.perAxis || !i.getLsbD 15 | none => false
/-- 16-bit words of a payload part. -/
def words16 : Nat → List Byte → List (BitVec 16)
  | 0, _ => []
  | n + 1, p => BitVec.ofNat 16 (field p 0 2) :: words16 n (p.drop 2)
/-- One record from type and its bytes 4 onward; none when a field is outside its range (R297, Table 14.1). -/
def recOf (typ : Nat) (b : List Byte) : Option DRec :=
  let u := fun (o : Nat) => field b o 1
  let w := fun (o : Nat) => BitVec.ofNat 32 (field b o 4)
  if typ = 1 ∧ b.length = 4 then
    if u 0 < 2 ∧ 1 ≤ u 1 ∧ u 1 ≤ 16 ∧ 1 ≤ u 2 ∧ u 2 ≤ 16 ∧ u 3 = 0 then some (.axis (u 0) (u 1) (u 2)) else none
  else if typ = 2 ∧ b.length = 8 then
    if u 0 ≤ 47 ∧ u 1 ≤ 2 ∧ field b 2 2 = 0 ∧ fIn (w 4) f1 0x47C35000 then some (.chan ⟨u 0, u 1, w 4⟩) else none
  else if typ = 3 ∧ 12 ≤ b.length then
    let ps := words16 (u 2) (b.drop 12)
    if b.length = 12 + 2 * u 2 ∧ 1 ≤ u 2 ∧ u 2 ≤ 16 ∧ u 0 ≤ 15 ∧ u 1 ≤ 1 ∧ u 3 = 0 ∧ fIn (w 4) 0x3DCCCCCD 0x467A0000 ∧
        fIn (w 8) 0x3C23D70A 0x47A8C000 ∧ ps.all parGettable then some (.stream (u 0) (u 1 == 1) (w 4) (w 8) ps) else none
  else if typ = 4 ∧ b.length = 12 then
    let cyc := field b 4 4
    if u 0 ≤ 7 ∧ u 1 ≤ 1 ∧ u 2 < 8 ∧ u 3 = 0 ∧ 62500 ≤ cyc ∧ cyc ≤ 8000000 ∧ 64 ≤ field b 8 2 ∧ field b 8 2 ≤ 1522 ∧
        field b 10 2 * 1000 < cyc then
      some (.cyclic ⟨u 0, u 1 == 1, BitVec.ofNat 8 (u 2), cyc, field b 8 2, field b 10 2⟩) else none
  else none
/-- What a record names, unique in a declaration (R297). -/
def recKey : DRec → Nat × Nat
  | .axis x _ _ => (1, x) | .chan c => (2, c.code) | .stream n _ _ _ _ => (3, n) | .cyclic c => (4, c.set)
/-- Most records of a type (R297). -/
def recMax (t : Nat) : Nat := if t = 1 then 2 else if t = 2 then 32 else if t = 3 then 16 else 8
/-- Records with their indices, and the index of the first that is malformed (R297). -/
def parseGo : Nat → List Byte → List (Nat × DRec) → List (Nat × DRec) × Option Nat
  | 0, _, acc => (acc, some 0xFFFF)
  | _ + 1, [], acc => (acc, none)
  | fuel + 1, p, acc =>
    let typ := field p 0 1; let len := field p 1 1; let idx := field p 2 2
    if p.length < 4 then (acc, some 0xFFFF)
    else if len < 4 ∨ p.length < len then (acc, some idx)
    else match recOf typ ((p.take len).drop 4) with
      | none => (acc, some idx)
      | some r =>
        let k := recKey r
        if acc.any (fun q => recKey q.2 == k) || recMax k.1 ≤ (acc.filter (fun q => (recKey q.2).1 == k.1)).length then (acc, some idx)
        else parseGo fuel (p.drop len) (acc ++ [(idx, r)])
/-- A declaration's records (R297): at most 4,088 bytes. -/
def parseDecl (b : List Byte) : List (Nat × DRec) × Option Nat :=
  if b.isEmpty ∨ 4088 < b.length then ([], some 0xFFFF) else parseGo (b.length + 1) b []

/-! Parts of a placement (R298 to R303). -/

/-- Stored values of the Next placement parameters that differ from their defaults (R298). -/
def nextPars (s : State) : List (Nat × Word) :=
  s.par.filter (fun v => (parDef (v.1 % 0x8000)).any (fun d => d.eff == .placement))
/-- CRC-32 of the values of all Next placement parameters, in address order (R298; log 36). -/
def nextCrc (s : State) : Word :=
  let ds := parAll.filter (fun d => d.eff == .placement)
  crc32 ((ds.flatMap (fun d => w32 (storedAt s d.idx))) ++
    ((ds.filter (·.perAxis)).flatMap (fun d => w32 (storedAt s (d.idx + 0x8000)))))
/-- H of PWM_FREQ in kHz, ticks (05 R91). -/
def halfTicks (kHz : Word) : Nat := (2000000 / fval kHz + mkRat 1 2).floor.toNat
/-- Init entries of the user segments a compile links for the first time, merged by private word (07 R163, R172). -/
def userInitList (s : State) (x : Axis) : List (Nat × Word) :=
  let gs := s.nv.segs.filter (fun g => g.key / 4 == axisNo x && (storX s x Par.usrEn).getLsbD (g.key % 4) && !g.linked)
  (gs.flatMap (·.init)).foldl (fun (m : List (Nat × Word)) p => mapPut m p.1 p.2) []
/-- Their number. -/
def userInit (s : State) (x : Axis) : Nat := (userInitList s x).length
/-- The same entries in the axis block (07 R172): private word k lies at block offset 0x180 + k. -/
def userInitWords (s : State) (x : Axis) : List (Bool × Nat × Word) :=
  (userInitList s x).map (fun p => (x == .b, axisNo x * 512 + 0x180 + p.1, p.2))
/-- The image whose directory holds an axis's segments. -/
def outImg (o : CairnOut) (x : Axis) : BankImage :=
  if (dirUsed o.imgA).any (fun d => d.axis == axisNo x) then o.imgA else o.imgB
/-- Hooks inside a part, by RATE (07 Table 7.8). -/
def rateHooks (rate : Nat) : List Nat := if rate = 0 then [3] else if rate = 1 then [1, 2] else [0]
/-- Cycles of the user segment of a hook that a set of USR_EN bits links (07 R171, R173). -/
def userCycles (s : State) (x : Axis) (en : Word) (hook : Nat) : Nat :=
  match s.nv.segs.find? (fun g => g.key == axisNo x * 4 + hook) with
  | some g => if en.getLsbD hook then segCycles g.ops else 0
  | none => 0
/-- Cycles of the user segments inside one part; they run in RUN mode chains only (07 R171). -/
def userPart (s : State) (x : Axis) (en : Word) (mode rate : Nat) : Nat :=
  if mode = 2 then ((rateHooks rate).map (userCycles s x en)).sum else 0
/-- Cycles of one part of a chain with the user segments linked into it, where the directory holds it (07 R147, R166). -/
def partCycles (s : State) (x : Axis) (en : Word) (img : BankImage) (mode rate : Nat) : Option Nat :=
  (partOf img x mode rate).map (fun d => segCycles (segOps img d) + userPart s x en mode rate)
/-- The cycles of the current, speed and position parts of an axis's largest chain and its segments (07 R166). -/
def largestChain (s : State) (x : Axis) (en : Word) (img : BankImage) : (Nat × Nat × Nat) × Nat :=
  let chain := fun (m : Nat) =>
    let r := [0, 1, 2].map (partCycles s x en img m)
    (((r[0]?).join.getD 0, (r[1]?).join.getD 0, (r[2]?).join.getD 0), (r.filter Option.isSome).length)
  let size := fun (c : (Nat × Nat × Nat) × Nat) => c.1.1 + c.1.2.1 + c.1.2.2 + 4 * c.2
  (List.range 5).foldl (fun b m => if size b < size (chain m) then chain m else b) ((0, 0, 0), 0)
/-- Cycle counts and init entries of an axis as its image and its linked user segments give them (07 R163, R166). -/
def withCycles (s : State) (o : CairnOut) (x : Axis) (en : Word) (user : Nat) (p : AxisPlace) : AxisPlace :=
  let img := outImg o x
  let c := largestChain s x en img
  { p with cyc := c.1, segs := c.2, init := ((initOf img x).length, user) }
/-- The axis part of a record under the stored parameters (R298, 05 R91). -/
def axisCfg (s : State) (o : CairnOut) (x : Axis) (m p : Nat) : AxisPlace :=
  withCycles s o x (storX s x Par.usrEn) (userInit s x)
    { m := m, p := p, h := halfTicks (storX s x Par.pwmFreq), n := (storX s x Par.ctrlHalves).toNat,
      commitSel := (storX s x Par.commitSel).setWidth 8 }

/-! What Cairn builds (06 R125 to R131; 07 R156, R163; log 123). -/

/-- An entry word keeps its reserved fields zero and its channel in range; LAST is set on the last entry only (06 Table 6.5). -/
def entryOk (last : Bool) (e : Word) : Bool :=
  e.getLsbD 31 == last && !(!e.getLsbD 30 && e.getLsbD 29) && !(e.getLsbD 28 && e.getLsbD 27) && e &&& 0x070FFF00 == 0 &&
  decide (entryChan e ≤ 9)
/-- Thoevo may place continuous mode on a converter: its axis is not in RUN, its leg is bypassed, or it is out of service
(06 R128). -/
def contAllowed (s : State) (cv : Nat) : Bool :=
  let x := cvAxis cv
  !gatesOn (getAx s x) || (getAx s x).stage.bypassMask.getLsbD (legNo (cvLeg cv).2) || (getCv s cv).outOfService
/-- One table is one Cairn may place (06 R125, R126, R128). -/
def tableOk (s : State) (t : Nat × Nat × Word × List Word) : Bool :=
  let trig := (t.2.2.1 >>> 28).toNat
  t.1 < 12 && t.2.1 < 4 && trig ≤ 9 && !t.2.2.2.isEmpty && (t.2.2.2.zipIdx).all (fun e => entryOk (e.2 + 1 == t.2.2.2.length) e.1) &&
  (trig != 9 || contAllowed s t.1)
/-- The entries of ordinary channels in a table of a converter, with PAR masked, and their PARs (06 R131). -/
def sharedOf (tabs : List (Nat × Nat × Word × List Word)) (cv n : Nat) : Option Word × List Word × List Nat :=
  match tabs.find? (fun t => t.1 == cv && t.2.1 == n) with
  | none => (none, [], [])
  | some t =>
    let es := t.2.2.2.filter (fun e =>
      decide (1 ≤ entryChan e) && decide (entryChan e ≤ 8) && !singleChan (chanIdx cv (entryChan e)))
    (if es.isEmpty then none else some t.2.2.1, es.map (· &&& 0x1FFFFFFF), es.map (fun (e : Word) => ((e >>> 29) &&& 3).toNat))
/-- R131 for a pair of converters. -/
def pairOk (s : State) (tabs : List (Nat × Nat × Word × List Word)) (k : Nat) : Bool :=
  (List.range 4).all (fun n =>
    let a := sharedOf tabs k n; let b := sharedOf tabs (k + 6) n
    if cvServes s k && cvServes s (k + 6) then a.1 == b.1 && a.2.1 == b.2.1 && a.2.2.all (· == 2) && b.2.2.all (· == 3)
    else if cvServes s k then b.2.1.isEmpty && a.2.2.all (· == 0)
    else if cvServes s (k + 6) then a.2.1.isEmpty && b.2.2.all (· == 0)
    else true)
/-- The conversion tables and timers are what Cairn may place (06 R125 to R131). -/
def tablesOk (s : State) (o : CairnOut) : Bool :=
  let timerOk := fun (ns : Nat) => ns = 0 || (decide (1000 ≤ ns) && decide (ns ≤ 10000000000))
  o.tables.all (tableOk s) && (o.tables.map (fun t => t.1 * 4 + t.2.1)).Nodup && timerOk o.timers.1 && timerOk o.timers.2 &&
  (List.range 12).all (fun cv => ((o.tables.filter (fun t => t.1 == cv)).map (fun t => t.2.2.2.length)).sum ≤ 64) &&
  (List.range 6).all (pairOk s o.tables)
/-- An image's directory gives every segment the cycle count it is placed with, and its init list keeps Cairn's limit (07
Table 7.4, R163). -/
def imageOk (s : State) (en : Axis → Word) (img : BankImage) : Bool :=
  (dirUsed img).all (fun d => d.cyc == segCycles (segOps img d) + userPart s (axisOf d.axis) (en (axisOf d.axis)) d.mode d.rate) &&
  bothAxes.all (fun x => (initOf img x).length ≤ 128)
/-- A result is one Cairn can hand over (log 123). -/
def outOk (s : State) (en : Axis → Word) (o : CairnOut) : Bool := tablesOk s o && imageOk s en o.imgA && imageOk s en o.imgB
/-- Axis record of a declaration. -/
def axisRec (rs : List (Nat × DRec)) (x : Axis) : Option (Nat × Nat × Nat) :=
  rs.findSome? (fun r => match r.2 with | .axis y m p => if y = axisNo x then some (r.1, m, p) else none | _ => none)
/-- Engine assignment (R300): one engine for both axes where R167 allows it, otherwise A on RGA and B on RGB; a failed
engine is never used. -/
def assign (s : State) (a b : Option AxisPlace) : Option (Option AxisPlace × Option AxisPlace) :=
  let ok := fun (e : Engine) => !(getEng s e).failed
  let on := fun (e : Engine) (p : AxisPlace) => { p with engine := e }
  let pick := fun (e f : Engine) => if ok e then some e else if ok f then some f else none
  match a, b with
  | none, none => some (none, none)
  | some p, none => if fitsAlone p then (pick .rga .rgb).map (fun e => (some (on e p), none)) else none
  | none, some q => if fitsAlone q then (pick .rgb .rga).map (fun e => (none, some (on e q))) else none
  | some p, some q =>
    if fitsBoth p q then (pick .rga .rgb).map (fun e => (some (on e p), some (on e q)))
    else if fitsAlone p && fitsAlone q && ok .rga && ok .rgb then some (some (on .rga p), some (on .rgb q))
    else none
/-- Period of an axis part in s. -/
def cfgSec (p : AxisPlace) : Rat := mkRat (p.n * p.h) 4000000000
/-- Required and declared rate of each of the 48 shared channels, per second (R301). -/
def chanRates (get : Axis → Nat → Word) (rs : List (Nat × DRec)) (cfg : List (Axis × Nat × AxisPlace)) : List Rat :=
  let need := fun (k : Nat) =>
    let base : Rat :=
      if k = 0 ∨ k = 8 then 100000
      else if k % 8 = 3 ∨ k % 8 = 4 ∨ k = 37 ∨ k = 7 ∨ k = 15 then 16000
      else 0
    let ax := cfg.foldl (fun (m : Rat) c =>
      let tw := get c.1 Par.twSrc
      let n := match c.1 with
        | .a => (k == 5 && tw.getLsbD 0) || (k == 21 && tw.getLsbD 1)
        | .b => (k == 13 && tw.getLsbD 0) || (k == 29 && tw.getLsbD 1)
      let sc := get c.1 Par.fbSrc == 3 && (match c.1 with | .a => k == 16 || k == 24 | .b => k == 32 || k == 40)
      let m := if n then max m 16000 else m
      if sc then max m (1 / cfgSec c.2.2) else m) base
    rs.foldl (fun (m : Rat) r => match r.2 with | .chan c => if c.code = k then max m (fval c.rate) else m | _ => m) ax
  (List.range 48).map need
/-- Profile points per second and the rate the profile leaves free, of one converter (01 R21). -/
def profRate (s : State) (cfg : List (Axis × Nat × AxisPlace)) (cv : Nat) : Rat × Rat :=
  match cfg.find? (fun c => c.1 == cvAxis cv) with
  | none => (0, 4000000)
  | some c =>
    let n := (storX s c.1 Par.profN).toNat
    let slots := c.2.2.n * c.2.2.h / 1000
    ((n : Rat) / cfgSec c.2.2, ((slots : Rat) - (n : Rat)) / cfgSec c.2.2)
/-- Share of one pair's channels: sum of their rates. -/
def pairRate (rates : List Rat) (k : Nat) : Rat := ((rates.drop (8 * k)).take 8).foldl (· + ·) 0
/-- The shared work of a pair fits on either converter alone (R301). -/
def pairFits (s : State) (rates : List Rat) (cfg : List (Axis × Nat × AxisPlace)) (k : Nat) : Bool :=
  decide (pairRate rates k ≤ (profRate s cfg k).2) && decide (pairRate rates k ≤ (profRate s cfg (k + 6)).2)
/-- Conversions per second placed on a converter (R301, R304): ordinary channels alternate, single ones go to the less
loaded of the pair, and all to the partner of a converter that is out. -/
def cvRate (s : State) (rates : List Rat) (cfg : List (Axis × Nat × AxisPlace)) (cv : Nat) : Rat :=
  let k := cv % 6
  let pr := fun (n : Nat) => (profRate s cfg n).1
  let go := fun (acc : Rat × Rat) (c : Nat) =>
    let r := (rates[8 * k + c]?).getD 0
    if !cvServes s k then (acc.1, acc.2 + r)
    else if !cvServes s (k + 6) then (acc.1 + r, acc.2)
    else if singleChan (8 * k + c) then (if acc.1 ≤ acc.2 then (acc.1 + r, acc.2) else (acc.1, acc.2 + r))
    else (acc.1 + r / 2, acc.2 + r / 2)
  let t := (List.range 8).foldl go (pr k, pr (k + 6))
  if cv < 6 then t.1 else t.2
/-- Record size of a stream, bytes (R297). -/
def recBytes (n : Nat) : Nat := 8 + 4 * n
/-- Stream area of the flash, bytes (19 Table 19.2). -/
def flashArea (s : State) : Nat :=
  let m := (storD s Par.xspStreamSize).toNat
  if m = 0 then s.xsp.capacity - 0x70000 else m * 1048576
/-- A discovered flash is present. -/
def flashThere (s : State) : Bool := s.xsp.found && !s.xsp.lost
/-- Destinations of the streams in record order, with the index of the first without one (R302, 19 R404). -/
def placeStreams (s : State) (rs : List (Nat × DRec)) : List StreamPlace × Option Nat :=
  let go := fun (acc : List StreamPlace × Option Nat × Rat × Rat × Rat × Rat) (r : Nat × DRec) =>
    let (ps, bad, sram, mram, flash, frate) := acc
    match r.2 with
    | .stream n keep rate span params =>
      let bps := fval rate * (recBytes params.length : Rat)
      let need := bps * fval span
      let put := fun (d : StreamDest) => ps ++ [⟨n, d, rate, span, params⟩]
      if !keep then
        if sram + need ≤ 262144 then (put .sram, bad, sram + need, mram, flash, frate)
        else (ps, bad.or (some r.1), sram, mram, flash, frate)
      else if bps ≤ 65536 ∧ mram + need ≤ 131072 then (put .mram, bad, sram, mram + need, flash, frate)
      else if flashThere s ∧ bps ≤ 1048576 ∧ frate + bps ≤ fval s.xsp.rateMax ∧ flash + need + 131072 ≤ (flashArea s : Rat) then
        (put .flash, bad, sram, mram, flash + need, frate + bps)
      else (ps, bad.or (some r.1), sram, mram, flash, frate)
    | _ => acc
  let t := rs.foldl go ([], none, 0, 0, 0, 0)
  (t.1, t.2.1)
/-- Bytes the streams of a destination reserve, rounded up (R302). -/
def destBytes (ps : List StreamPlace) (d : StreamDest) : Nat :=
  (ps.filter (fun p => p.dest == d)).foldl (fun n p => n + (fval p.rate * (recBytes p.params.length : Rat) * fval p.span).ceil.toNat) 0

/-! Gate lists (R303; 18 R370, R371). -/

/-- Least common multiple of the cycles of all sets, ns; 1 with none. -/
def gateCycle (cs : List CyclicPlace) : Nat := cs.foldl (fun l c => Nat.lcm l c.cycleNs) 1
/-- ns per byte at a port's rate. -/
def portByteNs : Port → Nat | .rmii1 => 80 | .rmii2 => 80 | .t1s => 800
/-- Bit of a port in a port mask (18 R363). -/
def portBit : Port → Nat | .rmii1 => 0 | .rmii2 => 1 | .t1s => 2
/-- Insert a window, by start. -/
def insWin (w : Nat × Nat) : List (Nat × Nat) → List (Nat × Nat)
  | [] => [w]
  | v :: vs => if w.1 ≤ v.1 then w :: v :: vs else v :: insWin w vs
/-- Windows that touch become one. -/
def mergeWins : List (Nat × Nat) → List (Nat × Nat)
  | [] => []
  | [w] => [w]
  | v :: w :: ws =>
    match mergeWins (w :: ws) with
    | [] => [v]
    | u :: us => if u.1 ≤ v.2 then (v.1, max v.2 u.2) :: us else v :: u :: us
/-- Transmit windows of a port within one list cycle (R303). -/
def gateWins (cs : List CyclicPlace) (p : Port) : List (Nat × Nat) :=
  let l := gateCycle cs
  let one := fun (c : CyclicPlace) =>
    let w := (c.bytes + 20) * portByteNs p + 1000
    (List.range (l / max 1 c.cycleNs)).flatMap (fun j =>
      let a := (c.offsetUs * 1000 + j * c.cycleNs) % l
      if a + w ≤ l then [(a, a + w)] else [(a, l), (0, a + w - l)])
  let all := (cs.filter (fun c => c.transmit && c.ports.getLsbD (portBit p))).flatMap one
  mergeWins (all.foldl (fun m w => insWin w m) [])
/-- Entries between the windows: mask and interval (18 R370). -/
def gateEntriesGo (l : Nat) : Nat → List (Nat × Nat) → List (BitVec 8 × Nat)
  | t, [] => if t < l then [(0xF, l - t)] else []
  | t, w :: ws => (if t < w.1 then [(0xF, w.1 - t)] else []) ++ (0x8, w.2 - w.1) :: gateEntriesGo l w.2 ws
/-- The gate list of a port: one open entry where it has no window (18 R370). -/
def gateList (cs : List CyclicPlace) (p : Port) : List (BitVec 8 × Nat) := gateEntriesGo (gateCycle cs) 0 (gateWins cs p)
/-- The sets of a declaration fail R303 or 18 R382: index of the first that does. -/
def gatesBad (s : State) (rs : List (Nat × DRec)) : Option Nat :=
  let cyc := rs.filterMap (fun r => match r.2 with | .cyclic c => some (r.1, c) | _ => none)
  let len := 66 + 80 + 4 * ((storX s .a Par.tvTxWords).toNat + (storX s .b Par.tvTxWords).toNat)
  let cs := cyc.map (·.2)
  if 8000000 < gateCycle cs then (cyc.head?.map (·.1))
  else match cyc.find? (fun c => c.2.transmit && decide (c.2.bytes < len)) with
    | some c => some c.1
    | none => if [Port.rmii1, .rmii2, .t1s].any (fun p => decide (64 < (gateList cs p).length)) then cyc.head?.map (·.1) else none

/-! The ledger (R304 to R306). -/

/-- An item, with its detail where it counts one element (Table 14.7). -/
def item (code : Nat) (ids : List Nat) (mw : Rat) : List LedgerItem :=
  match ids with
  | [] => []
  | [i] => [⟨BitVec.ofNat 8 code, 1, BitVec.ofNat 16 i, rd mw⟩]
  | _ => [⟨BitVec.ofNat 8 code, BitVec.ofNat 8 ids.length, 0xFFFF, rd mw⟩]
/-- The fixed element of an item without a detail. -/
def one (code : Nat) (on : Bool) (mw : Rat) : List LedgerItem := if on then [⟨BitVec.ofNat 8 code, 1, 0xFFFF, rd mw⟩] else []
/-- Energy per byte of a stream destination, nJ (Table 14.3). -/
def nanoJ : StreamDest → Nat | .mram => 20 | .flash => 10 | .sram => 2
/-- All charges in item order (Table 14.3), and their exact sum. -/
def ledgerItems (s : State) (engines : Nat) (cfg : List (Axis × Nat × AxisPlace)) (rates : List Rat) (ps : List StreamPlace) :
    List LedgerItem × Rat :=
  let cvs := (List.range 12).filter (fun cv => decide (0 < cvRate s rates cfg cv))
  let cvMw := cvs.foldl (fun (t : Rat) cv => t + mkRat 4 10 + mkRat 12 10 * cvRate s rates cfg cv / 4000000) 0
  let axes := cfg.map (fun c => axisNo c.1)
  let enc := (cfg.filter (fun c => storX s c.1 Par.fbSrc != 0 || storX s c.1 Par.emuEn != 0)).map (fun c => axisNo c.1)
  let en := if s.clk.extRef then storD s Par.netPortEn else 0
  let rm := (List.range 2).filter (fun k => en.getLsbD k)
  let strm := fun (d : StreamDest) =>
    let q := ps.filter (fun p => p.dest == d)
    (q.map (·.stream), q.foldl (fun (t : Rat) p => t + fval p.rate * (recBytes p.params.length : Rat) * (nanoJ d : Rat) / 1000000) 0)
  let parts : List (List LedgerItem × Rat) :=
    [(one 1 true 18, 18), (one 2 true 10, 10), (one 3 true 5, 5),
     ((if engines = 0 then [] else [⟨4, BitVec.ofNat 8 engines, 0xFFFF, rd (12 * (engines : Rat))⟩]), 12 * (engines : Rat)),
     (item 5 cvs cvMw, cvMw), (item 6 axes (5 * (axes.length : Rat)), 5 * (axes.length : Rat)),
     (item 7 enc (3 * (enc.length : Rat)), 3 * (enc.length : Rat)), (one 8 (en != 0) 8, if en != 0 then 8 else 0),
     (item 9 rm (5 * (rm.length : Rat)) |>.map (fun i => { i with detail := 0xFFFF }), 5 * (rm.length : Rat)),
     (one 0xA (en.getLsbD 2) 7, if en.getLsbD 2 then 7 else 0),
     (one 0xB (storD s Par.canEn == 1) 2, if storD s Par.canEn == 1 then 2 else 0), (one 0xC true 2, 2),
     (one 0xD (flashThere s) 2, if flashThere s then 2 else 0),
     (item 0xE (strm .mram).1 (strm .mram).2, (strm .mram).2), (item 0xF (strm .flash).1 (strm .flash).2, (strm .flash).2),
     (item 0x10 (strm .sram).1 (strm .sram).2, (strm .sram).2)]
  (parts.flatMap (·.1), parts.foldl (fun t p => t + p.2) 0)
/-- The layout of R306. -/
def ledgerReport (reason index : Nat) (total budget : F32) (items : List LedgerItem) : List Byte :=
  u8 reason ++ [0] ++ u16 index ++ w32 total ++ w32 budget ++ u8 items.length ++ [0, 0, 0] ++
  items.flatMap (fun i => [i.item, i.count] ++ u16 i.detail.toNat ++ w32 i.load)
/-! The checks of a compile (R307, Table 14.4). -/

/-- Clock count of a serial frame up to its end word; none where a field is refused (11 R251, R252). -/
def serClocks (s : State) (x : Axis) (ssi : Bool) : Nat → Option Nat
  | 0 => some 0
  | k + 1 =>
    let w := storX s x (Par.fbSerField0 + (7 - k))
    let kind := (w >>> 28).toNat
    if kind = 0 then some 0
    else if ssi ∧ (kind = 1 ∨ kind = 2 ∨ kind = 6) then none
    else (serClocks s x ssi k).map (· + (if kind = 1 ∨ kind = 2 then (w &&& 0xFFFF).toNat else ((w >>> 16) &&& 0xFF).toNat))
/-- R241, R252, R258 and the speed windows (reason 9). -/
def feedbackBad (s : State) (x : Axis) (c : AxisPlace) : Bool :=
  let g := fun (i : Nat) => storX s x i
  let src := (g Par.fbSrc).toNat; let hall := g Par.fbHallUse == 1; let z := g Par.fbZMode == 1; let cm := (g Par.crestMode).toNat
  let sv := fun (i : Nat) => fval (g i)
  decide (src = 0 ∧ cm ≠ 1) || (hall && !decide (src = 1 ∨ src = 3)) || (z && !decide (src = 1 ∨ src = 3)) ||
  (decide ((src = 1 ∨ (src = 3 ∧ (g Par.motPolePairs).toNat % max 1 (g Par.fbScPeriods).toNat ≠ 0)) ∧ cm ≠ 1) && !hall && !z) ||
  ((g Par.emuEn).getLsbD 1 && decide (65536 * (g Par.emuNum).toNat % max 1 (g Par.emuDen).toNat ≠ 0)) ||
  decide ((g Par.fbSpdN2).toNat ≤ (g Par.fbSpdN1).toNat) ||
  (decide (src = 4 ∨ src = 5) && (match serClocks s x (src == 4) 8 with
    | none => true
    | some n => decide ((g Par.fbSerDiv).toNat * (cfgSec c * 1000000) <
        sv Par.fbSerDelay + (n : Rat) / sv Par.fbSerRate + sv Par.fbSerTmo + mkRat 2 10)))
/-- R18, R19 and R21 (reason 2). -/
def timingBad (s : State) (x : Axis) (c : AxisPlace) : Bool :=
  let t := c.n * c.h
  let n := (storX s x Par.profN).toNat
  (c.commitSel != 3 && c.n % 2 == 1) || decide (t < 32000) || decide (c.m * t < 160000) || decide (c.m * c.p * t < 320000) ||
  decide (t < nsTicks (storX s x Par.profDelay) + (n - 1) * nsTicks (storX s x Par.profSpacing) + 1240)
/-- Merged blanking windows beyond half a carrier period (05 R107), every window apart from the others. -/
def blankBad (c : AxisPlace) (wins : Nat) (dt blank : Word) : Bool :=
  decide ((c.h : Rat) / 4 < (wins : Rat) * (fval dt + fval blank))
/-- A parameter an axis in RUN keeps would change (reason 15). -/
def runChange (s : State) (x : Axis) : Bool :=
  gatesOn (getAx s x) &&
  [Par.stageMode, Par.pwmFreq, Par.ctrlHalves, Par.commitSel, Par.refSel].any (fun i => storX s x i != parX s x i)
/-- Inputs the open-wire schedule holds under a declaration (06 R142). -/
def owCount (s : State) (rs : List (Nat × DRec)) (cfg : List (Axis × Nat × AxisPlace)) : Nat :=
  let dec := fun (k : Nat) => rs.any (fun r => match r.2 with | .chan c => c.code == k | _ => false)
  let ax := fun (x : Axis) (f : Bool) => cfg.any (fun c => c.1 == x) && f
  let sc := fun (x : Axis) (k : Nat) => ax x (storX s x Par.fbSrc == 3) || dec k
  let ntc := fun (x : Axis) (b k : Nat) => ax x ((storX s x Par.twSrc).getLsbD b) || dec k
  let ain := dec 22 || bothAxes.any (fun x => ax x (storX s x Par.spSrc == 3 && storX s x Par.curveIn == 0))
  let ref := dec 45 || bothAxes.any (fun x => ax x (storX s x Par.refSel == 1))
  ([sc .a 16, sc .a 24, sc .b 32, sc .b 40, ntc .a 0 5, ntc .a 1 21, ntc .b 0 13, ntc .b 1 29, ain, dec 30, ref].filter id).length
/-- The first axis record a check fails. -/
def axisFails (cfg : List (Axis × Nat × AxisPlace)) (f : Axis → AxisPlace → Bool) : Option Nat :=
  (cfg.find? (fun c => f c.1 c.2.2)).map (·.2.1)
/-- What a compile finds: the failing reason with its record, the placement, LEDGER_TOTAL and the items. -/
structure Judged where
  fails : Option (Nat × Nat)
  place : Placement
  total : F32
deriving DecidableEq, Repr
/-- Judge a declaration against the stored parameters, in the order of Table 14.4 (R298, R305, R307). -/
def judgeDecl (s : State) (decl : List Byte) (o : CairnOut) : Judged :=
  let pd := parseDecl decl
  let rs := match pd.2 with | none => pd.1 | some _ => []
  let cfgOf := fun (x : Axis) => (axisRec rs x).map (fun r => (x, r.1, axisCfg s o x r.2.1 r.2.2))
  let cfg := bothAxes.filterMap cfgOf
  let part := fun (x : Axis) => (cfgOf x).map (fun c => c.2.2)
  let asg := assign s (part .a) (part .b)
  let pa := (asg.getD (part .a, part .b)).1; let pb := (asg.getD (part .a, part .b)).2
  let engines := match asg with
    | some (some p, some q) => if p.engine = q.engine then 1 else 2
    | _ => cfg.length
  let rates := chanRates (storX s) rs cfg
  let st := placeStreams s rs
  let led := ledgerItems s engines cfg rates st.1
  let total := ledgerTotal (rd led.2)
  let cyc := rs.filterMap (fun r => match r.2 with | .cyclic c => some (r.1, c) | _ => none)
  let sat := fun (x : Axis) (i : Nat) => storX s x i
  let checks : List (Nat × Option Nat) :=
    [(16, pd.2),
     (14, if (!cyc.isEmpty || storD s Par.canEn == 1) && !s.clk.extRef then some ((cyc.head?.map (·.1)).getD 0xFFFF) else none),
     (15, if bothAxes.any (fun x => (part x).isNone && (getAx s x).start.ax != .disabled) then some 0xFFFF
          else axisFails cfg (fun x _ => runChange s x)),
     (2, axisFails cfg (timingBad s)),
     (3, axisFails cfg (fun x c => (parX s x Par.nlEn == 1 && c.n * c.h % 4 != 0) ||
        decide (cfgSec c * 1000000 ≤ fval (sat x Par.nlPhaseOfs)))),
     (5, axisFails cfg (fun x _ => decide (fval (sat x Par.dtMax) < fval (sat x Par.dtMin) + 2) ||
        flt (sat x Par.dtInit) (sat x Par.dtMin) || flt (sat x Par.dtMax) (sat x Par.dtInit))),
     (4, axisFails cfg (fun x c => blankBad c 2 (sat x Par.dtMax) (sat x Par.blankLeg) || blankBad c 12 (sat x Par.dtMax) (storD s Par.blankBus))),
     (6, axisFails cfg (fun x _ =>
        let v : Rat := if sat x Par.refSel = 1 then fval (storD s Par.refExtNom) else if sat x Par.refSel = 2 then mkRat 33 10 else mkRat 5 2
        decide (48 * v / mkRat 5 2 < fval (sat x Par.ocThr) + 1))),
     (8, axisFails cfg (fun x c => (sat x Par.crestMode != 0 && sat x Par.crestSalEn == 1 && (c.n != 2 || decide ((sat x Par.profN).toNat < 8))) ||
        (sat x Par.crestMode == 1 && fisZero (sat x Par.fsMeasT)))),
     (9, axisFails cfg (feedbackBad s)),
     (7, if asg.isNone then some 0xFFFF else none),
     (10, if (List.range 6).all (pairFits s rates cfg) then none else
        some (((rs.find? (fun r => match r.2 with | .chan c => !pairFits s rates cfg (c.code / 8) | _ => false)).map (·.1)).getD 0xFFFF)),
     (11, if decide (fval (storD s Par.owPeriod) ≠ 0) && decide (fval (storD s Par.owPeriod) < 3 * fval (storD s Par.owSettle) * (owCount s rs cfg : Rat))
        then some 0xFFFF else none),
     (12, st.2),
     (13, gatesBad s rs),
     (1, if flt (parD s Par.ledgerBudget) total then some 0xFFFF else none)]
  let hostsOn := fun (e : Engine) (p : Option AxisPlace) => p.any (fun q => q.engine == e)
  let img := fun (e : Engine) (i : BankImage) =>
    { i with hostA := hostsOn e pa, hostB := hostsOn e pb,
             init := i.init ++ (if hostsOn e pa then userInitWords s .a else []) ++ (if hostsOn e pb then userInitWords s .b else []) }
  { fails := checks.findSome? (fun c => c.2.map (fun i => (c.1, i)))
    total := total
    place :=
      { axisA := pa, axisB := pb
        channels := rs.filterMap (fun r => match r.2 with | .chan c => some c | _ => none)
        streams := st.1, cyclic := cyc.map (·.2), items := led.1, load := rd led.2, declId := crc32 decl, parCrc := nextCrc s
        pars := nextPars s, out := { o with imgA := img .rga o.imgA, imgB := img .rgb o.imgB }
        failedMarks := BitVec.ofNat 2 (bitsOf [s.ridge.rga.failed, s.ridge.rgb.failed])
        flash := st.1.any (fun p => p.dest == .flash) } }
/-- The declaration a compile takes (17 COMPILE). -/
def compileSource (s : State) (fromStage : Bool) : List Byte := if fromStage then s.cairn.staged else s.nv.decl
/-- A compile ends rejected: CAIRN_LAST_REJECT, the report (R299, R306). -/
def compileRejected (s : State) (h : Hdr) (j : Judged) (reason index : Nat) : State :=
  endLong { s with cairn.compiling := none, cairn.interrupts := 0, cairn.lastReject := BitVec.ofNat 8 reason } 0x0602 h 0x22 reason
    (ledgerReport reason index j.total (parD s Par.ledgerBudget) j.place.items)
/-- An accepted placement is stored with its declaration; it is armed in READY or RUN, and waits in HOLD (R299). -/
def storePlacement (s : State) (fromStage : Bool) (decl : List Byte) (p : Placement) : State :=
  let s1 := { s with nv.place := some p, nv.decl := decl, pwr.noPlacement := false }
  let s2 := if fromStage then { s1 with cairn.staged := [], cairn.stagedTotal := 0, cairn.stagedDirty := false } else s1
  if s2.pwr.base == .ready then bringBanks s2 false p else { s2 with cairn.arming := some (false, p) }
/-- COMPILE_DONE (R299): a long operation ends; no effect with a result Cairn does not build (log 123). -/
def execCompileDone (out : CairnOut) (s : State) : Out :=
  match s.mbx.long with
  | some (.compile chk fromStage, h) =>
    let decl := compileSource s fromStage
    let j := judgeDecl s decl out
    if !outOk s (fun x => storX s x Par.usrEn) out then skip s
    else match j.fails with
    | some (r, i) => done s (compileRejected s h j r i)
    | none =>
      let s1 := { s with cairn.compiling := none, cairn.interrupts := 0 }
      let oldId := match s.nv.place with | some p => placeId p | none => 0
      if !chk && !s.nv.auditOk then done s (endLong s1 0x0602 h 0x31 0xFFFF [])
      else
        let s2 := if chk then s1
          else storePlacement (auditAll s1 (max 2 (actsAs s h)) [(9, 0, oldId, placeId j.place)]) fromStage decl j.place
        done s (endLong s2 0x0602 h 0 0 (w32 (placeId j.place) ++ w32 j.total))
  | _ => skip s

/-! Runtime re-placement (R308 to R311). -/

/-- Order of service of triggers (Table 14.6). -/
def trigRank : Trigger → Nat
  | .legBypassed _ _ => 0 | .converterOut _ => 1 | .converterBack _ => 1 | .dieLimit => 2 | .dieReleased => 2
  | .engineTest _ => 3 | .engineFailed _ => 3 | .flashLost => 4
/-- The pending trigger comes before every other, the older first. -/
def trigNext (l : List (Trigger × Nat)) : Option (Trigger × Nat) :=
  l.foldl (fun (b : Option (Trigger × Nat)) t => match b with
    | none => some t
    | some u => if trigRank t.1 < trigRank u.1 then some t else some u) none
/-- The placement a trigger leads to: new tables and images on the engines that host the axes now (R308). -/
def replacement (s : State) (p : Placement) (tr : Trigger) (out : CairnOut) : Placement :=
  let eng := fun (x : Axis) (q : Option AxisPlace) => q.map (fun a =>
    withCycles s out x (placedPar p (parAddr x Par.usrEn)) 0 { a with engine := ((getAx s x).seq.host).getD a.engine })
  let pa := eng .a p.axisA; let pb := eng .b p.axisB
  let on := fun (e : Engine) (q : Option AxisPlace) => q.any (fun a => a.engine == e)
  let img := fun (e : Engine) (i : BankImage) => { i with hostA := on e pa, hostB := on e pb }
  let n := (([Engine.rga, .rgb].filter (fun e => on e pa || on e pb)).length : Nat)
  let items := match tr with
    | .engineFailed _ => p.items.map (fun i => if i.item = 4 then { i with count := BitVec.ofNat 8 n, load := rd (12 * (n : Rat)) } else i)
    | _ => p.items
  { p with axisA := pa, axisB := pb, out := { out with imgA := img .rga out.imgA, imgB := img .rgb out.imgB },
           items := items, load := rd (items.foldl (fun (t : Rat) i => t + fval i.load) 0) }
/-- The axes of a placement fit the engines it puts them on (07 R166, R167). -/
def placeFits (p : Placement) : Bool :=
  match p.axisA, p.axisB with
  | some a, some b => if a.engine = b.engine then fitsBoth a b else fitsAlone a && fitsAlone b
  | some a, none => fitsAlone a
  | none, some b => fitsAlone b
  | none, none => true
/-- The segments of both axes are the same ones, wherever they lie (R308). -/
def sameSegs (o q : CairnOut) : Bool :=
  bothAxes.all (fun x => (List.range 5).all (fun m => (List.range 3).all (fun r =>
    ((partOf (outImg o x) x m r).map (segOps (outImg o x))) == ((partOf (outImg q x) x m r).map (segOps (outImg q x))))))
/-- A table header whose table runs half as often: DIV + 1 doubled (R311; log 137). -/
def halfHeader (h : Word) : Word := (h &&& 0xF0FFFFFF) ||| (BitVec.ofNat 32 (min 15 (2 * ((h >>> 24) &&& 0xF).toNat + 1)) <<< 24)
/-- A table that holds declared CHANNEL records only, none of which the drive requires itself (R301, R311). -/
def declaredOnly (s : State) (p : Placement) (t : Nat × Nat × Word × List Word) : Bool :=
  let cfg := bothAxes.filterMap (fun x => (placeOf p x).map (fun a => (x, 0, a)))
  let need := chanRates (parX s) [] cfg
  t.2.2.2.all (fun e =>
    let k := chanIdx t.1 (entryChan e)
    decide (1 ≤ entryChan e) && p.channels.any (fun c => c.code == k) && decide ((need[k]?).getD 0 = 0))
/-- Every table as before, but those of declared channels only at half their rate (R311). -/
def halvedTables (s : State) (p : Placement) (full half : CairnOut) : Bool :=
  half.timers == full.timers &&
  half.tables == full.tables.map (fun t => if declaredOnly s p t then (t.1, t.2.1, halfHeader t.2.2.1, t.2.2.2) else t)
/-- A re-placement changes only the work named for its trigger; for a bypass the cycle count is never higher (R308). -/
def onlyNamed (s : State) (p q : Placement) (tr : Trigger) (out : CairnOut) : Bool :=
  let sameTabs := out.tables == p.out.tables && out.timers == p.out.timers
  let cyc := fun (a : Option AxisPlace) => (a.map chainTerm).getD 0
  match tr with
  | .converterOut _ | .converterBack _ => sameSegs out p.out
  | .flashLost => sameSegs out p.out && sameTabs
  | .dieLimit => sameSegs out p.out && halvedTables s p p.out out
  | .dieReleased => sameSegs out p.out && halvedTables s p out p.out
  | .legBypassed _ _ => sameTabs && decide (cyc q.axisA ≤ cyc p.axisA) && decide (cyc q.axisB ≤ cyc p.axisB)
  | .engineFailed _ | .engineTest _ => sameTabs
/-- REPLACE_TRIGGER (R308, R309): the pending trigger that is next is served: an engine's test by hand-over, the others by
writing the inactive banks, or in HOLD by changing the placement the next READY brings in. A compile that runs restarts,
and ends at its third interruption. No effect with a result Cairn does not build (log 123). -/
def execReplaceTrigger (tr : Trigger) (out : CairnOut) (sBefore : State) : Out :=
  let s := calTurn sBefore
  match tr with
  | .engineTest e => when_ s ((getEng s e).underTest && !swapBusy s) (nextHandover s)
  | _ =>
    match s.cairn.active, trigNext s.cairn.pendingTr with
    | some p, some t =>
      let rest := s.cairn.pendingTr.erase t
      let s0 := { s with cairn.pendingTr := t :: rest, cairn.suspended := s.cairn.suspended || decide (tr = .flashLost) }
      let q := replacement s p tr out
      let s1 := if s.pwr.base == .ready then bringBanks s0 true q
        else holdTables { s0 with nv.place := some q, cairn.arming := some (true, q) }
      let s2 := match s1.mbx.long with
        | some (.compile _ fromStage, h) =>
          if s1.cairn.interrupts = 2 then compileRejected s1 h (judgeDecl s1 (compileSource s1 fromStage) out) 17 0xFFFF
          else { s1 with cairn.interrupts := s1.cairn.interrupts + 1 }
        | _ => s1
      when_ s (t.1 == tr && s.cairn.arming.isNone && thoevoUp s &&
        outOk s (fun x => placedPar p (parAddr x Par.usrEn)) out && placeFits q && onlyNamed s p q tr out) s2
    | _, _ => skip s
/-- REPLACE_LATE (R308): not active within 1 ms; Cairn arms again at the following boundaries. -/
def execReplaceLate (s : State) : Out :=
  match s.cairn.pendingTr with
  | [] => skip s
  | (_, t0) :: _ =>
    let s1 := match s.cairn.arming with
      | some (_, p) => if swapBusy s || s.pwr.base != .ready then s else armAll s p.out
      | none => s
    when_ s (decide (t0 + 1000000 ≤ s.clk.now)) (raise0 s1 0x2C05 0 noDetail)

end Sys2Proof.Machine
end

