-- ==== Sys2Proof/Machine/Par.lean ====
section
/-!
DEFINITION. Parameters as the host meets them: the value of every address, what a write is checked against, the relations
of the chapters, what a write does at once, and the counters (00 R7 to R9; 17 R352 to R356, R361).
-/

namespace Sys2Proof.Machine
open Sys2Proof

/-! Values (R353). -/

/-- Axis of an address (00 R7). -/
def addrAxis (a : Nat) : Axis := if 0x8000 ≤ a then .b else .a
/-- A byte or half-word as a value (R352). -/
def v8 (b : BitVec 8) : Word := b.setWidth 32
/-- A half-word as a value. -/
def v16 (b : BitVec 16) : Word := b.setWidth 32
/-- CL_DELAY: T_meas + T_app in µs (08 R179). -/
def clDelay (s : State) (x : Axis) : F32 :=
  match placedAx s x with
  | none => 0
  | some _ =>
    let t := periodSec s x * 1000000
    frnd (t - mkRat (nsTicks (parX s x Par.profDelay)) 4000 -
      (((parX s x Par.profN).toNat : Rat) - 1) * mkRat (nsTicks (parX s x Par.profSpacing)) 8000 + t * mkRat 3 2)
/-- USR_OPS: ops of the axis's stored user segments (07 Table 7.13). -/
def usrOps (s : State) (x : Axis) : Nat :=
  (s.nv.segs.filter (fun g => g.key / 4 == axisNo x)).foldl (fun (n : Nat) g => n + g.ops.length) 0
/-- Bytes a destination of streams leaves free (14 Table 14.9). -/
def streamFree (s : State) (d : StreamDest) (size : Nat) : Nat :=
  match s.cairn.active with | some p => size - destBytes p.streams d | none => size
/-- Identity and boot report (21 Table 21.7). -/
def view0 (s : State) (i : Nat) : Option Word :=
  match i with
  | 0x00 => some 0x7502
  | 0x01 => some 3
  | 0x02 => some 0x00040100
  | 0x03 => some (s.boot.uid.setWidth 32)
  | 0x04 => some ((s.boot.uid >>> 32).setWidth 32)
  | 0x05 => some s.nv.bootCount
  | 0x06 => some (v8 s.pwr.resetSrc)
  | 0x07 => some (if s.boot.slotB then 1 else 0)
  | 0x08 => some (v16 s.boot.flags)
  | 0x09 => some s.boot.time
  | 0x12 => some (v16 s.boot.bist)
  | 0x13 => some (v8 s.boot.paramBank)
  | _ => if 0x0A ≤ i ∧ i ≤ 0x11 then some (v16 ((s.boot.weak[i - 0x0A]?).getD 0xFFFF)) else none
/-- Supply and stage (03 Table 3.12, 04 Table 4.11). -/
def view1 (s : State) (i : Nat) : Option Word :=
  match i with | 0x00 => some (v8 (pwrState s)) | 0x01 => some (v8 s.sum.wakeSrc) | _ => none
/-- 04 Table 4.11. -/
def view2 (s : State) (x : Axis) (i : Nat) : Option Word :=
  let g := (getAx s x).stage
  match i with
  | 0x0E => some (g.bypassMask.setWidth 32)
  | 0x17 => some g.iCont
  | 0x18 => some g.iPeak
  | 0x19 => some g.bootRefresh
  | _ => none
/-- 05 Table 5.9. -/
def view3 (s : State) (x : Axis) (i : Nat) : Option Word :=
  let p := (getAx s x).pwm
  match i with
  | 0x01 => some (pwmFreqAct s x)
  | 0x0B => some (v8 (nlCode p.nl))
  | 0x0C => some p.phaseErr
  | 0x16 => some s.scarp.testFail
  | 0x17 => some s.scarp.latch
  | 0x18 => some (v8 p.scarpFirst)
  | 0x19 => some p.dutyLate
  | 0x1A => some p.dutyClamp
  | 0x1B => some p.tripCount
  | _ => none
/-- 06 Table 6.13. -/
def view4 (s : State) (x : Axis) (i : Nat) : Option Word :=
  match i with | 0x02 => some (v16 (convStatus s x)) | 0x0F => some (getAx s x).conv.profTrigOvr | _ => none
/-- 07 Table 7.13. -/
def view5 (s : State) (x : Axis) (i : Nat) : Option Word :=
  let a := (getAx s x).seq
  match i with
  | 0x00 => some (v8 (rgHost (getAx s x)))
  | 0x01 => some (v8 (modeCode a.mode))
  | 0x02 => some (v16 a.flags)
  | 0x03 => some a.rgOvr
  | 0x04 => some (match placedAx s x with | some p => BitVec.ofNat 32 (chainTerm p % 65536) | none => 0)
  | 0x05 => some (v16 a.cycMax)
  | 0x06 => some a.nan
  | 0x08 => some (BitVec.ofNat 32 (usrOps s x))
  | 0x09 => some a.usrNan
  | 0x0A => some s.ridge.eccCorr
  | 0x0B => some s.ridge.evtDrop
  | 0x0D => some (v8 (rgTestStatus s))
  | 0x0E => some (v8 (rgBank s))
  | _ => none
/-- 08 Table 8.8. -/
def view6 (s : State) (x : Axis) (i : Nat) : Option Word :=
  match i with
  | 0x23 => some (getAx s x).sp.missed
  | 0x2C => some (v16 (ctrlStatus s x))
  | 0x2D => some (clDelay s x)
  | 0x2E => some (getAx s x).ctl.noPoint
  | _ => none
/-- 09 Table 9.8. -/
def view7 (s : State) (x : Axis) (i : Nat) : Option Word :=
  let c := (getAx s x).crest
  match i with
  | 0x1F => some (v16 (crestStatus s x))
  | 0x20 => some c.saliency
  | 0x21 => some c.exc
  | 0x22 => some c.rsEst
  | 0x23 => some c.psiEst
  | 0x24 => some c.tWind
  | 0x25 => some c.tMag
  | 0x26 => some (if c.conv && !c.hold then frnd (fval c.we / (max 1 (parX s x Par.motPolePairs).toNat : Rat)) else 0)
  | 0x27 => some c.xchkMean
  | 0x28 => some (v8 c.identStatus)
  | 0x29 => some c.lostCnt
  | _ => none
/-- 10 Table 10.14. -/
def view8 (s : State) (x : Axis) (i : Nat) : Option Word :=
  let a := (getAx s x).start
  match i with
  | 0x00 => some (v8 (axCode a.ax))
  | 0x19 => some a.attempts
  | 0x1A => some (v8 a.lastFail)
  | _ => none
/-- 11 Table 11.8. -/
def view9 (s : State) (x : Axis) (i : Nat) : Option Word :=
  let f := (getAx s x).fb
  let p := srcPos s x
  match i with
  | 0x36 => some f.cmp0.hits
  | 0x37 => some f.cmp0.ovr
  | 0x3E => some f.cmp1.hits
  | 0x3F => some f.cmp1.ovr
  | 0x43 => some f.capOvr
  | 0x48 => some (v16 (fbStatus s x))
  | 0x49 => some (BitVec.ofInt 32 (p % 2 ^ 32))
  | 0x4A => some (BitVec.ofInt 32 (p / 2 ^ 32))
  | 0x4B => some f.speed
  | 0x4C => some f.qerr
  | 0x4D => some f.hallErr
  | 0x4E => some f.zErr
  | 0x4F => some f.serErr
  | _ => none
/-- 12 Table 12.10. -/
def viewA (s : State) (i : Nat) : Option Word :=
  match i with
  | 0x0D => some s.bus.load
  | 0x0E => some (v16 (busStatus s))
  | 0x0F => some (vmHi s)
  | 0x10 => some s.bus.onCount
  | 0x14 => some (BitVec.ofNat 32 (faultActiveN s))
  | 0x15 => some (v16 (faultTop s))
  | 0x16 => some s.nv.logSeq
  | _ => none
/-- 13 Table 13.6. -/
def viewB (s : State) (x : Axis) (i : Nat) : Option Word :=
  match i with
  | 0x11 => some s.th.tCase
  | 0x12 => some s.th.pEst
  | 0x13 => some (tWind s x)
  | 0x14 => some (v16 (thStatus s x))
  | 0x15 => some (tMax s)
  | _ => none
/-- 14 Table 14.9. -/
def viewC (s : State) (i : Nat) : Option Word :=
  match i with
  | 0x01 => some (activeTotal s)
  | 0x02 => some (match s.cairn.active with | some p => p.load | none => 0)
  | 0x03 => some (v16 (cairnStatus s))
  | 0x04 => some (match s.cairn.active with | some p => p.declId | none => 0)
  | 0x05 => some (match s.cairn.active with | some p => placeId p | none => 0)
  | 0x06 => some (v8 s.cairn.lastReject)
  | 0x07 => some s.cairn.replaceCount
  | 0x08 => some s.cairn.replaceTMax
  | 0x09 => some s.cairn.streamDrop
  | 0x0A => some (BitVec.ofNat 32 (streamFree s .sram 262144))
  | 0x0B => some (BitVec.ofNat 32 (streamFree s .mram 131072))
  | _ => none
/-- 18 Table 18.11. -/
def viewD (s : State) (i : Nat) : Option Word :=
  match i with
  | 0x01 => some ((s.boot.mac >>> 32).setWidth 32)
  | 0x02 => some (s.boot.mac.setWidth 32)
  | 0x12 => some (v8 (gptpCode s.net.gptp))
  | 0x1C => some s.net.rxErr
  | 0x1D => some s.net.txLate
  | 0x1E => some s.net.hostDrop
  | 0x2A => some (v8 (canStatus s))
  | 0x2B => some s.can.busoff
  | 0x2C => some s.net.portErr
  | _ => none
/-- 20 Table 20.11. -/
def viewE (s : State) (i : Nat) : Option Word :=
  match i with
  | 0x00 => some (otpStatus s)
  | 0x01 => some (v16 (keyStatus s))
  | 0x02 => some ((installerOpt s).setWidth 32)
  | 0x03 => some (v8 (roleLock s))
  | 0x04 => some s.nv.auditSeq
  | 0x06 => some s.nv.corr
  | 0x07 => some s.nv.lost
  | _ => none
/-- 19 Table 19.5. -/
def viewF (s : State) (i : Nat) : Option Word :=
  match i with
  | 0x07 => some (v16 (xspStatus s))
  | 0x08 => some s.xsp.jedec
  | 0x09 => some (BitVec.ofNat 32 s.xsp.capacity)
  | 0x0A => some s.xsp.clkAct
  | 0x0B => some s.xsp.rateMax
  | 0x0C => some s.xsp.err
  | _ => none
/-- A read-only value or counter, from the state that holds it. -/
def parView (s : State) (a : Nat) : Option Word :=
  let x := addrAxis a
  let i := a % 0x100
  match a % 0x8000 / 0x100 with
  | 0x0 => view0 s i
  | 0x1 => view1 s i
  | 0x2 => view2 s x i
  | 0x3 => view3 s x i
  | 0x4 => view4 s x i
  | 0x5 => view5 s x i
  | 0x6 => view6 s x i
  | 0x7 => view7 s x i
  | 0x8 => view8 s x i
  | 0x9 => view9 s x i
  | 0xA => viewA s i
  | 0xB => viewB s x i
  | 0xC => viewC s i
  | 0xD => viewD s i
  | 0xE => viewE s i
  | 0xF => viewF s i
  | _ => none
/-- What PAR_GET returns: the stored value of a writable parameter, the value held of any other (R353). -/
def parValue (s : State) (a : Nat) : Word := (parView s a).getD (storedAt s a)
/-- Writing 0 to a counter clears it (00 R8; the chapters' parameter rules). -/
def clearCounter (s : State) (a : Nat) : State :=
  let x := addrAxis a
  let ax := fun (f : AxisSt → AxisSt) => onAx s x f
  match a % 0x8000 with
  | 0x0219 => ax (fun a => { a with stage.bootRefresh := 0 })
  | 0x0319 => ax (fun a => { a with pwm.dutyLate := 0 })
  | 0x031A => ax (fun a => { a with pwm.dutyClamp := 0 })
  | 0x031B => ax (fun a => { a with pwm.tripCount := 0 })
  | 0x040F => ax (fun a => { a with conv.profTrigOvr := 0 })
  | 0x0503 => ax (fun a => { a with seq.rgOvr := 0 })
  | 0x0505 => ax (fun a => { a with seq.cycMax := 0 })
  | 0x0506 => ax (fun a => { a with seq.nan := 0 })
  | 0x0509 => ax (fun a => { a with seq.usrNan := 0 })
  | 0x050A => { s with ridge.eccCorr := 0 }
  | 0x050B => { s with ridge.evtDrop := 0 }
  | 0x0623 => ax (fun a => { a with sp.missed := 0 })
  | 0x062E => ax (fun a => { a with ctl.noPoint := 0 })
  | 0x0729 => ax (fun a => { a with crest.lostCnt := 0 })
  | 0x0819 => ax (fun a => { a with start.attempts := 0 })
  | 0x0936 => ax (fun a => { a with fb.cmp0.hits := 0 })
  | 0x0937 => ax (fun a => { a with fb.cmp0.ovr := 0 })
  | 0x093E => ax (fun a => { a with fb.cmp1.hits := 0 })
  | 0x093F => ax (fun a => { a with fb.cmp1.ovr := 0 })
  | 0x0943 => ax (fun a => { a with fb.capOvr := 0 })
  | 0x094C => ax (fun a => { a with fb.qerr := 0 })
  | 0x094D => ax (fun a => { a with fb.hallErr := 0 })
  | 0x094E => ax (fun a => { a with fb.zErr := 0 })
  | 0x094F => ax (fun a => { a with fb.serErr := 0 })
  | 0x0A10 => { s with bus.onCount := 0 }
  | 0x0C07 => { s with cairn.replaceCount := 0 }
  | 0x0C08 => { s with cairn.replaceTMax := 0 }
  | 0x0C09 => { s with cairn.streamDrop := 0 }
  | 0x0D1C => { s with net.rxErr := 0 }
  | 0x0D1D => { s with net.txLate := 0 }
  | 0x0D1E => { s with net.hostDrop := 0 }
  | 0x0D2B => { s with can.busoff := 0 }
  | 0x0D2C => { s with net.portErr := 0 }
  | 0x0E06 => { s with nv.corr := 0 }
  | 0x0E07 => { s with nv.lost := 0 }
  | 0x0F0C => { s with xsp.err := 0 }
  | _ => s

/-! Checks of a write (00 R8; 17 Table 17.2). -/

/-- Bits a type has. -/
def typeFits : PType → Word → Bool
  | .u8, v => decide (v.toNat < 256)
  | .u16, v => decide (v.toNat < 65536)
  | _, _ => true
/-- A serial field word of 11 Table 11.4. -/
def serFieldOk (v : Word) : Bool :=
  let kind := (v >>> 28).toNat; let width := ((v >>> 16) &&& 0xFF).toNat; let arg := (v &&& 0xFFFF).toNat
  (v >>> 24) &&& 0xF == 0 &&
  (if kind ≤ 2 then width == 0 && (kind != 0 || arg == 0)
   else if kind = 3 ∨ kind = 4 then decide (1 ≤ width ∧ width ≤ 40) && arg == 0
   else if kind = 5 ∨ kind = 8 then decide (1 ≤ width ∧ width ≤ 16)
   else if kind = 6 ∨ kind = 7 then decide (1 ≤ width ∧ width ≤ 16) && arg == 0
   else false)
/-- A value lies in its range (00 R8). -/
def rangeOk (r : PRange) (v : Word) : Bool :=
  match r with
  | .f lo hi => fIn v lo hi
  | .fBelow lo hi => ffinite v && fle lo v && flt v hi
  | .fOff lo hi => fisZero v || fIn v lo hi
  | .n lo hi => decide (lo ≤ v.toNat ∧ v.toNat ≤ hi)
  | .i lo hi => decide (lo ≤ v.toInt ∧ v.toInt ≤ hi)
  | .oneOf vs => vs.contains v.toNat
  | .mask m => v &&& ~~~m == 0
  | .any => true
  | .window signed =>
    let hi : BitVec 16 := (v >>> 16).setWidth 16; let lo : BitVec 16 := v.setWidth 16
    if signed then lo.slt hi else lo.ult hi
  | .ipMask => let n := ~~~v; n &&& (n + 1) == 0
  | .ethertype => v == 0 || (decide (0x600 ≤ v.toNat) && !([0x0800, 0x0806, 0x8100, 0x86DD, 0x88F7].contains v.toNat))
  | .serField => serFieldOk v
  | .serCrc => let w := (v >>> 24).toNat; (decide (w = 0) || decide (3 ≤ w ∧ w ≤ 16)) && v &&& 0x00FC0000 == 0
/-- A finite value of its type (17 Table 17.2: a non-finite f32 is out of range). -/
def valueOk (d : PDef) (v : Word) : Bool := (d.ty != .f32 || ffinite v) && rangeOk d.range v
/-- The relations the chapters state over stored values, for a write to an address (03 R60, 04 R72, 05 R98, 08 R197, 09 R220,
10 R239, 11 R258, 12 R268, R284, 13 R296); `g` reads the amended stored values. -/
def relationOk (s : State) (g : Nat → Word) (a : Nat) : Bool :=
  let x := addrAxis a
  let q := fun (i : Nat) => fval (g (parAddr x i))
  let d := fun (i : Nat) => fval (g i)
  let i := a % 0x8000
  let h := d Par.thHyst
  let tj := decide (d Par.tjWarn + h ≤ d Par.tjLimit ∧ d Par.tjWarn < d Par.tjLimit ∧ d Par.tjLimit + h ≤ d Par.tjStop ∧ d Par.tjLimit < d Par.tjStop ∧
    d Par.tjStop + h ≤ d Par.tjTrip ∧ d Par.tjStop < d Par.tjTrip ∧ d Par.thRearm < d Par.tjStop - h)
  let tw := fun (y : Axis) => let w := fun (i : Nat) => fval (g (parAddr y i))
    decide (w Par.twWarn + h ≤ w Par.twLimit ∧ w Par.twWarn < w Par.twLimit ∧ w Par.twLimit + h ≤ w Par.twStop ∧ w Par.twLimit < w Par.twStop)
  if i = Par.vmUv ∨ i = Par.vmPf then decide (d Par.vmPf < d Par.vmUv - 2)
  else if i = Par.dtMin ∨ i = Par.dtMax ∨ i = Par.dtInit then
    decide (q Par.dtMin + 2 ≤ q Par.dtMax ∧ q Par.dtMin ≤ q Par.dtInit ∧ q Par.dtInit ≤ q Par.dtMax)
  else if i = Par.nlPhaseOfs then
    match placedAx s x with | some p => decide (q Par.nlPhaseOfs < mkRat (p.n * p.h) 4000) | none => true
  else if i = Par.nlEn then
    g a != 1 || (match placedAx s x with | some p => p.n * p.h % 4 == 0 | none => false)
  else if i = Par.spdMax ∨ i = Par.overspeed then decide (q Par.spdMax ≤ q Par.overspeed)
  else if i = Par.spHoldCnt ∨ i = Par.spStopCnt then decide ((g (parAddr x Par.spHoldCnt)).toNat < (g (parAddr x Par.spStopCnt)).toNat)
  else if i = Par.curveOn ∨ i = Par.curveOff then decide (q Par.curveOff < q Par.curveOn)
  else if i = Par.motM ∨ i = Par.motLs then decide (q Par.motM < q Par.motLs)
  else if i = Par.crestLossErr ∨ i = Par.crestConvErr then decide (q Par.crestConvErr < q Par.crestLossErr)
  else if i = Par.fsMeasT then !(fisZero (g a) && g (parAddr x Par.crestMode) == 1)
  else if i = Par.emuZOfs ∨ i = Par.emuNum ∨ i = Par.emuDen then
    decide ((g (parAddr x Par.emuZOfs)).toNat * (g (parAddr x Par.emuDen)).toNat < 65536 * (g (parAddr x Par.emuNum)).toNat)
  else if i = Par.ov1 ∨ i = Par.ov2 ∨ i = Par.ov3 ∨ i = Par.brkR then
    decide (d Par.ov1 ≤ d Par.ov2 - 4 ∧ d Par.ov2 ≤ d Par.ov3 - 3 ∧ d Par.ov3 / 40 ≤ d Par.brkR)
  else if i = Par.tjWarn ∨ i = Par.tjLimit ∨ i = Par.tjStop ∨ i = Par.tjTrip ∨ i = Par.thRearm then tj
  else if i = Par.thHyst then tj && tw .a && tw .b
  else if i = Par.twWarn ∨ i = Par.twLimit ∨ i = Par.twStop then tw x
  else true
/-- Result of one item of a write, in the order of Table 17.2; `m` holds the amended stored values (R354). -/
def itemResult (s : State) (m : List (Nat × Word)) (idx : BitVec 16) (v : Word) : Nat :=
  match parKnown idx with
  | none => 0x10
  | some d =>
    if idx.getLsbD 15 && !d.perAxis then 0x11
    else if d.kind = .readOnly ∨ (d.kind = .counter ∧ v ≠ 0) then 0x12
    else if d.kind = .counter then 0
    else if !typeFits d.ty v then 0x13
    else if !valueOk d v then 0x14
    else
      let m' := parPut m idx.toNat v
      if relationOk s (fun (a : Nat) => (mapGet m' a).getD (parDefault a)) idx.toNat then 0 else 0x15
/-- The values after the items of a request, with the first item that fails and its result (R354). -/
def parItems (s : State) : Nat → List (Nat × Word) → List (BitVec 16 × Word) → List (Nat × Word) × Option (Nat × Nat)
  | _, m, [] => (m, none)
  | k, m, (i, v) :: rest =>
    let r := itemResult s m i v
    if r ≠ 0 then (m, some (r, k))
    else
      let counter := (parKnown i).any (fun d => d.kind == .counter)
      parItems s (k + 1) (if counter then m else parPut m i.toNat v) rest

/-! What a write does (00 R9). -/

/-- The position an axis reads now: that of the latest sampled-source sample, else the position itself (11 R249). -/
def cmpNow (a : AxisSt) : Int := a.fb.sample.getD a.fb.pos
/-- A position of turns and fraction, as turns × 2^32 + fraction (01 R4). -/
def turnPos (turns frac : Word) : Int := turns.toInt * 2 ^ 32 + (frac.toNat : Int)
/-- What an immediate parameter changes at once beside its value. -/
def parHook (s : State) (a : Nat) (old : Word) : State :=
  let x := addrAxis a
  let v := storedAt s a
  match a % 0x8000 with
  | 0x010D => setOutputs { s with sum.out5.overloaded := false }
  | 0x010E => setOutputs { s with sum.out3.overloaded := false }
  | 0x010F => if s.pwr.base == .hold then netPower (v == 1 && netPlaced s) s else s
  | 0x0304 => onAx s x (fun a => if v = 1 then (if a.pwm.nl = .off then { a with pwm.nl := .wait } else a)
                                 else { a with pwm.nl := .off, pwm.slew := 0 })
  | 0x0930 => onAx s x (fun a => { a with fb.cmp0.armed := v.getLsbD 0, fb.cmp0.origin := cmpNow a })
  | 0x0938 => onAx s x (fun a => { a with fb.cmp1.armed := v.getLsbD 0, fb.cmp1.origin := cmpNow a })
  | 0x0931 => onAx s x (fun a => { a with fb.cmp0.v := turnPos (storX s x Par.cmpValTurn0) v, fb.cmp0.origin := cmpNow a })
  | 0x0932 => onAx s x (fun a => { a with fb.cmp0.v := turnPos v (storX s x Par.cmpValFrac0), fb.cmp0.origin := cmpNow a })
  | 0x0939 => onAx s x (fun a => { a with fb.cmp1.v := turnPos (storX s x (Par.cmpValTurn0 + 8)) v, fb.cmp1.origin := cmpNow a })
  | 0x093A => onAx s x (fun a => { a with fb.cmp1.v := turnPos v (storX s x (Par.cmpValFrac0 + 8)), fb.cmp1.origin := cmpNow a })
  | 0x0A04 => if v = 0 then setChop .off s else s
  | 0x0C00 => judgeBudget s (flt v old)
  | _ => s
/-- A value is stored; an immediate one is in force from its acknowledgement (Table 0.4). -/
def storePar (s : State) (a : Nat) (v : Word) : State :=
  let old := storedAt s a
  let s1 := { s with par := parPut s.par a v }
  if (parDef (a % 0x8000)).any (fun d => d.eff == .immediate) then parHook (bringIn s1 a) a old else s1
/-- One accepted item: a counter clears, another value is stored. -/
def applyItem (s : State) (it : BitVec 16 × Word) : State :=
  if (parKnown it.1).any (fun d => d.kind == .counter) then clearCounter s it.1.toNat else storePar s it.1.toNat it.2
/-- Replace the whole working set (R356). -/
def loadSet (s : State) (m : List (Nat × Word)) : State :=
  let keys := ((s.par.map (·.1)) ++ (m.map (·.1))).foldl (fun (l : List Nat) k => if l.contains k then l else l ++ [k]) []
  keys.foldl (fun t a => storePar t a ((mapGet m a).getD (parDefault a))) s
/-- Addresses whose stored value differs between two sets, rising by first mention, with both values (20 R425). -/
def setDiff (m m' : List (Nat × Word)) : List (Nat × Word × Word) :=
  let g := fun (q : List (Nat × Word)) (a : Nat) => (mapGet q a).getD (parDefault a)
  let keys := ((m.map (·.1)) ++ (m'.map (·.1))).foldl (fun (l : List Nat) k => if l.contains k then l else l ++ [k]) []
  (keys.filter (fun a => g m a != g m' a)).map (fun a => (a, g m a, g m' a))

/-! Counters of Table 17.10. -/

/-- An id of Table 17.10 exists. -/
def cntKnown (id : BitVec 16) : Bool :=
  let g := id.toNat / 256; let k := id.toNat % 256
  if g = 1 ∨ g = 4 ∨ g = 5 ∨ g = 6 ∨ g = 9 then decide (k < 12)
  else if g = 2 then decide (k < 24)
  else if g = 3 then decide (k < 48)
  else if g = 7 ∨ g = 8 then decide (k < 11)
  else false
/-- The conversion table of index converter × 4 + table. -/
def cntTable (s : State) (k : Nat) : ConvTable := ((getCv s (k / 4)).tables[k % 4]?).getD {}
/-- External input of a counter index. -/
def cntExt (k : Nat) : Nat := if k < 6 then k + 4 else if k < 10 then k - 6 else k
/-- Value of a counter. -/
def cntValue (s : State) (id : BitVec 16) : Word :=
  let g := id.toNat / 256; let k := id.toNat % 256
  match g with
  | 1 => let p := cvLeg k; (getLeg s p.1 p.2).edgeMiss
  | 2 => v8 ((s.scarp.blankHit[k]?).getD 0)
  | 3 => v16 (cntTable s k).trigOvr
  | 4 => v16 (getCv s k).urgAbort
  | 5 => v16 (getCv s k).urgDrop
  | 6 => v16 (getCv s k).plausMismatch
  | 7 => v16 (getExt s (cntExt k)).winCount
  | 8 => v8 (getExt s (cntExt k)).owDetect
  | 9 => v16 (getCv s k).calCount
  | _ => 0
/-- A counter clears (17 CNT_CLEAR). -/
def cntZero (s : State) (id : BitVec 16) : State :=
  let g := id.toNat / 256; let k := id.toNat % 256
  match g with
  | 1 => let p := cvLeg k; onLeg s p.1 p.2 (fun l => { l with edgeMiss := 0 })
  | 2 => { s with scarp.blankHit := s.scarp.blankHit.set k 0 }
  | 3 => onCv s (k / 4) (fun c => { c with tables := c.tables.set (k % 4) { (c.tables[k % 4]?).getD {} with trigOvr := 0 } })
  | 4 => onCv s k (fun c => { c with urgAbort := 0 })
  | 5 => onCv s k (fun c => { c with urgDrop := 0 })
  | 6 => onCv s k (fun c => { c with plausMismatch := 0 })
  | 7 => onExt s (cntExt k) (fun e => { e with winCount := 0 })
  | 8 => onExt s (cntExt k) (fun e => { e with owDetect := 0 })
  | 9 => onCv s k (fun c => { c with calCount := 0 })
  | _ => s

end Sys2Proof.Machine
end

