-- ==== Sys2Proof/Machine/ParCmd.lean ====
section
/-!
DEFINITION. The parameter commands (17 Table 17.5, R353 to R356).
-/

namespace Sys2Proof.Machine
open Sys2Proof

/-- One answer of PAR_GET (R353, 00 R7): index, result, value. -/
def getItem (s : State) (i : BitVec 16) : List Byte :=
  let r : Nat := match parKnown i with
    | none => 0x10
    | some d => if i.getLsbD 15 && !d.perAxis then 0x11 else 0
  u16 i.toNat ++ u16 r ++ (if r = 0 then w32 (parValue s i.toNat) else u32 0)
/-- A count of 1 to 510 items (Table 17.5). -/
def badCount (n max : Nat) : Bool := decide (n = 0) || decide (max < n)
/-- PAR_GET (R353). -/
def execParGet (h : Hdr) (items : List (BitVec 16)) (s : State) : Out :=
  request s h 0x0201 .nothing (firstBad [(badCount items.length 510, 0)]) (fun _ => .ok s (items.flatMap (getItem s)))
/-- Role number of a parameter's writes; an unknown or read-only one asks for none above the operator. -/
def itemRole (i : BitVec 16) : Nat := match parKnown i with | some d => if d.role = .installer then 2 else 1 | none => 1
/-- PAR_SET (R354): all or nothing, in request order; each change is audited first (20 R425). -/
def execParSet (h : Hdr) (items : List (BitVec 16 × BitVec 32)) (s : State) : Out :=
  request s h 0x0202 (.role (items.foldl (fun (m : Nat) it => max m (itemRole it.1)) 1)) (firstBad [(badCount items.length 510, 0)]) (fun role =>
    let r := parItems s 0 s.par items
    match r.2 with
    | some (code, k) => .no code k []
    | none => audited s role ((setDiff s.par r.1).map (fun d => (1, d.1, d.2.1, d.2.2))) (fun t => .ok (items.foldl applyItem t) []))
/-- Type number of PAR_INFO. -/
def typeNo : PType → Nat | .u8 => 1 | .u16 => 2 | .u32 => 3 | .i32 => 4 | .f32 => 5
/-- Effect number of PAR_INFO. -/
def effectNo : PEffect → Nat | .immediate => 0 | .boundary => 1 | .enable => 2 | .placement => 3 | .none => 0xFF
/-- Largest value of a type. -/
def typeTop : PType → Word | .u8 => 0xFF | .u16 => 0xFFFF | .u32 => 0xFFFFFFFF | .i32 => 0x7FFFFFFF | .f32 => 0x7F7FFFFF
/-- Smallest value of a type. -/
def typeLow : PType → Word | .i32 => 0x80000000 | .f32 => 0xFF7FFFFF | _ => 0
/-- The limits PAR_INFO gives for a range (log 40 for ranges that are no interval). -/
def rangeEnds (d : PDef) : Word × Word :=
  match d.range with
  | .f lo hi => (lo, hi)
  | .fBelow lo hi => (lo, hi - 1)
  | .fOff _ hi => (0, hi)
  | .n lo hi => (BitVec.ofNat 32 lo, BitVec.ofNat 32 hi)
  | .i lo hi => (BitVec.ofInt 32 lo, BitVec.ofInt 32 hi)
  | .oneOf vs => (BitVec.ofNat 32 (vs.foldl min (vs.headD 0)), BitVec.ofNat 32 (vs.foldl max 0))
  | .mask m => (0, m)
  | .ethertype => (0, 0xFFFF)
  | .serField => (0, 0x8010FFFF)
  | .serCrc => (0, 0x1003FFFF)
  | .any => (typeLow d.ty, typeTop d.ty)
  | .window _ => (0, 0xFFFFFFFF)
  | .ipMask => (0, 0xFFFFFFFF)
/-- PAR_INFO (R360). -/
def execParInfo (h : Hdr) (index : BitVec 16) (s : State) : Out :=
  request s h 0x0203 .nothing none (fun _ =>
    match parKnown index with
    | none => .no 0x10 0 []
    | some d =>
      if index.getLsbD 15 && !d.perAxis then .no 0x11 0 []
      else
        let role : Nat := if d.eff = .none then 0 else if d.role = .installer then 2 else 1
        .ok s (u8 (typeNo d.ty) ++ u8 role ++ u8 (effectNo d.eff) ++
          u8 (bit d.perAxis 0 + bit (d.kind == .readOnly) 1 + bit (d.kind == .counter) 2) ++
          w32 (rangeEnds d).1 ++ w32 (rangeEnds d).2 ++ w32 d.dflt))
/-- A bank of MRAM. -/
def parBank (s : State) (n : Nat) : Option ParBank := (s.nv.banks[n]?).join
/-- Sequence of a bank, 0 while it is invalid. -/
def bankSeq (s : State) (n : Nat) : Word := match parBank s n with | some b => b.seq | none => 0
/-- The highest sequence of the four banks. -/
def topSeq (s : State) : Word := (List.range 4).foldl (fun (m : Word) k => if m.toNat < (bankSeq s k).toNat then bankSeq s k else m) 0
/-- PAR_COMMIT (R355): the working set goes to a bank with the next sequence number and the time. -/
def execParCommit (h : Hdr) (bank flags : BitVec 8) (s : State) : Out :=
  request s h 0x0204 (.role 2) (firstBad [(decide (4 ≤ bank.toNat), 0), (decide (2 ≤ flags.toNat), 1)]) (fun role =>
    let q := topSeq s + 1
    audited s role [(13, bank.toNat, bankSeq s bank.toNat, q)] (fun t =>
      .ok { t with nv.banks := t.nv.banks.set bank.toNat (some ⟨q, stamp t, t.par⟩),
                   nv.bootBank := if flags.getLsbD 0 then bank.toNat else t.nv.bootBank } (w32 q)))
/-- The working set is replaced, with its audit entries (R356; 20 R425). -/
def replaceSet (s : State) (role bank : Nat) (seq : Word) (m : List (Nat × Word)) : Ans :=
  audited s role ((14, bank, 0, seq) :: (setDiff s.par m).map (fun d => (1, d.1, d.2.1, d.2.2))) (fun t => .ok (loadSet t m) [])
/-- PAR_LOAD (R356). -/
def execParLoad (h : Hdr) (bank : BitVec 8) (s : State) : Out :=
  request s h 0x0205 (.role 2) none (fun role =>
    if anyRun s then .no 7 0x11 []
    else match parBank s bank.toNat with
      | none => .no 0x31 1 []
      | some b => replaceSet s role bank.toNat b.seq b.vals)
/-- PAR_BANKS (R360). -/
def execParBanks (h : Hdr) (s : State) : Out :=
  request s h 0x0206 (.role 1) none (fun _ =>
    .ok s ((List.range 4).flatMap (fun (k : Nat) =>
      match parBank s k with
      | some b => [1, if s.nv.bootBank = k then 1 else 0, 0, 0] ++ w32 b.seq ++ u64 b.time.toNat
      | none => [0, if s.nv.bootBank = k then 1 else 0, 0, 0] ++ u32 0 ++ u64 0)))
/-- PAR_DEFAULTS (R356). -/
def execParDefaults (h : Hdr) (s : State) : Out :=
  request s h 0x0207 (.role 2) none (fun role => if anyRun s then .no 7 0x11 [] else replaceSet s role 0xFF 0 [])

end Sys2Proof.Machine
end

