-- ==== Sys2Proof/Machine/Xsp.lean ====
section
/-!
DEFINITION. The external memory port (chapter 19): discovery, the window, page programs, failures.
-/

namespace Sys2Proof.Machine
open Sys2Proof

/-- The port serves a discovered flash (R397, R401). -/
def flashLive (s : State) : Bool := s.xsp.found && !s.xsp.lost
/-- The lanes of the mode a discovery enters (R397): the one XSP_LANES names, or with 0 the widest, and from there on the
first row of Table 19.1 whose check passes. -/
def xspMode (s : State) (modes : List Nat) : Option Nat :=
  let n := (storD s Par.xspLanes).toNat
  [8, 4, 1].find? (fun k => (n == 0 || decide (k ≤ n)) && modes.contains k)
/-- The reason of a discovery to fail (R396, R397). -/
def flashReason (s : State) : FlashFind → Option (BitVec 3)
  | .none r => some (if r = 0 ∨ 4 < r.toNat then 1 else r)
  | .found _ cap modes maxKhz _ _ page =>
    if maxKhz = 0 ∨ page = 0 then some 2
    else if cap < 4194304 ∨ 268435456 < cap then some 3
    else if (xspMode s modes).isNone then some 4
    else none
/-- The divider in use: XSP_DIV, or the next one at or below the SFDP maximum (R398). -/
def xspDivider (s : State) (maxKhz : Nat) : Nat := max (storD s Par.xspDiv).toNat ((1600000 + maxKhz - 1) / maxKhz)
/-- XSP_RATE_MAX (R404). -/
def xspRate (s : State) (ppUs beUs page : Nat) : F32 :=
  fThoevo (65536 / (fval (storD s Par.xspMargin) * ((65536 : Rat) / page * (ppUs : Rat) + (beUs : Rat)) / 1000000))
/-- Discovery (R397, R401): with XSP_EN = 1 the port takes what it finds; a loss ends here, and so does a suspension of the
flash streams. -/
def discover (s : State) (f : FlashFind) : State :=
  if storD s Par.xspEn ≠ 1 then { s with xsp.found := false, xsp.lost := false, xsp.lanes := 0 }
  else
    let s0 := { s with xsp.lost := false, xsp.failRun := 0, xsp.busy := .idle, xsp.collect := [], xsp.lines := [] }
    match flashReason s f, f with
    | none, .found id cap modes maxKhz pp be page =>
      let lanes := (xspMode s modes).getD 1
      raise0 { s0 with
        xsp.found := true, xsp.lanes := lanes, xsp.reason := 0, xsp.jedec := id, xsp.capacity := cap, xsp.page := page,
        xsp.clkAct := frnd (mkRat 1600 (xspDivider s maxKhz)), xsp.rateMax := xspRate s pp be page, cairn.suspended := false }
        0x1F01 0 (BitVec.ofNat 8 lanes)
    | r, _ =>
      raise0 { s0 with xsp.found := false, xsp.lanes := 0, xsp.reason := r.getD 1, xsp.capacity := 0, xsp.clkAct := 0, xsp.rateMax := 0 }
        0x2F02 0 ((r.getD 1).setWidth 8)

/-! Programs and erases (R399, R400). -/

/-- Thoevo erases a block (R400). -/
def eraseBlock (s : State) (a n : Nat) : State := { flashDone s with xsp.busy := .erase a n }
/-- The page a program in progress holds. -/
def busyPage (s : State) : Option Nat := match s.xsp.busy with | .program p _ => some p | _ => none
/-- XSP_WINDOW_READ (R399, R400): a read of the page being programmed waits for it; any other suspends the operation. -/
def execXspWindowRead (addr : Nat) (s : State) : Out :=
  let waits := busyPage s == some (addr / s.xsp.page)
  let s1 := if waits then flashDone s else s
  let s2 := if s1.xsp.busy == .idle then s1 else { s1 with xsp.suspends := s1.xsp.suspends + 1 }
  let line := addr / 32
  when_ s (flashLive s && decide (addr < s.xsp.capacity))
    { s2 with xsp.readByte := flashByte s2 addr, xsp.lines := (line :: s2.xsp.lines.filter (fun l => l != line)).take 4 }
/-- XSP_WINDOW_WRITE (R400): a byte that leaves the collected page issues its program; a write to the page being programmed
waits for it. -/
def execXspWindowWrite (addr : Nat) (byte : BitVec 8) (s : State) : Out :=
  let page := addr / s.xsp.page
  let s1 := if busyPage s == some page then flashDone s else s
  let leaves := match s1.xsp.collect with | [] => false | p :: _ => p.1 / s.xsp.page != page
  let s2 := if leaves then programPage s1 else s1
  when_ s (flashLive s && decide (addr < s.xsp.capacity)) { s2 with xsp.collect := mapPut s2.xsp.collect addr byte }
/-- XSP_PAGE_IDLE (R400). -/
def execXspPageIdle (s : State) : Out := when_ s (flashLive s && !s.xsp.collect.isEmpty) (programPage s)
/-- XSP_POLL (R400): the busy bit clears and the operation is complete. -/
def execXspPoll (busy : Bool) (s : State) : Out :=
  when_ s (flashLive s && s.xsp.busy != .idle && !busy) { flashDone s with xsp.failRun := 0 }

/-! Failures (R401). -/

/-- One failure: counted, WARN 0x2F04 at most once per second; the third in a row loses the flash. -/
def flashFailure (s : State) : State :=
  let quiet := match s.xsp.warnedAt with | some t => decide (s.clk.now < t + 1000000000) | none => false
  let s1 := { s with xsp.err := s.xsp.err + 1, xsp.failRun := s.xsp.failRun + 1 }
  let s2 := if quiet then s1 else raise0 { s1 with xsp.warnedAt := some s.clk.now } 0x2F04 0 noDetail
  if s2.xsp.failRun < 3 then s2
  else
    let s3 := raise0 { s2 with xsp.lost := true, xsp.busy := .idle, xsp.collect := [], xsp.lines := [] } 0x2F03 0 noDetail
    if (s3.cairn.active.map (·.flash)).getD false then { s3 with cairn.pendingTr := s3.cairn.pendingTr ++ [(.flashLost, s3.clk.now)] } else s3
/-- What a program or erase that failed leaves: free bytes (log 3). -/
def tearFlash : Nat → Nat → State → State
  | 0, _, s => s
  | n + 1, a, s =>
    let f := freeWord s
    tearFlash n (a + 1) { f.2 with xsp.flash := mapWrite 0xFF f.2.xsp.flash a (f.1.setWidth 8) }
/-- XSP_OP_TIMEOUT (R401). -/
def execXspOpTimeout (s : State) : Out :=
  let s1 := match s.xsp.busy with
    | .idle => s
    | .program _ bs => bs.foldl (fun (t : State) (p : Nat × Byte) => tearFlash 1 p.1 t) s
    | .erase a n => tearFlash n a s
  when_ s (flashLive s && s.xsp.busy != .idle) (flashFailure { s1 with xsp.busy := .idle })
/-- XSP_ID_CHECK (R401): every 10 s. -/
def execXspIdCheck (present : Bool) (s : State) : Out :=
  when_ s (flashLive s) (if present then { s with xsp.failRun := 0 } else flashFailure s)

end Sys2Proof.Machine
end

