-- ==== Sys2Proof/Machine/Fw.lean ====
section
/-!
DEFINITION. Firmware slots, the firmware commands, MRAM erase and scrub, and the commanded reset (17 Table 17.8; 19 R403;
20 R420, R426 to R428; 21 R433).
-/

namespace Sys2Proof.Machine
open Sys2Proof

/-! Slots and images (20 R420). -/

/-- A firmware slot, B or A. -/
def fwSlot (s : State) (b : Bool) : FwSlot := if b then s.nv.slotB else s.nv.slotA
/-- Set a firmware slot. -/
def setSlot (s : State) (b : Bool) (f : FwSlot) : State := if b then { s with nv.slotB := f } else { s with nv.slotA := f }
/-- Slot number. -/
def slotNo (b : Bool) : Nat := if b then 1 else 0
/-- The IMG_BAD detail of an image, none when it verifies (20 R420, Table 17.2): size, digest, signature under the key its
slot holds, revocation. -/
def imageBad (s : State) (i : ImageFacts) : Option Nat :=
  let j := i.slot.toNat
  if !i.sizeOk then some 1
  else if !i.digestOk then some 2
  else if decide (6 ≤ j) || !slotProvisioned s j || (slotRows j).any (fun r => rowState s r == .bad) ||
      i.keyDigest != slotDigest s j || !i.signatureOk then some 3
  else if slotRevoked s j then some 4
  else none
/-- The same for an installation with a role: an installer session installs images of I0 and I1 only (20 R420). -/
def installBad (s : State) (role : Nat) (i : ImageFacts) : Option Nat :=
  match imageBad s i with
  | some d => some d
  | none => if role < 3 ∧ i.slot.toNat < 4 then some 5 else none
/-- A slot that holds a verified image. -/
def slotOf (i : ImageFacts) (bytes : List (Nat × Byte)) : FwSlot :=
  { state := .valid, version := i.version, size := i.size, key := i.slot, bytes := bytes }

/-! Firmware commands (17 Table 17.8; 19 R403). -/

/-- FW_BEGIN: the slot not running is invalidated; its bytes are erased as the upload begins. -/
def execFwBegin (h : Hdr) (size : BitVec 32) (s : State) : Out :=
  request s h 0x0A01 (.role 2) (firstBad [(badCount size.toNat 327680, 0)]) (fun _ =>
    let b := !s.boot.slotB
    let staged := parD s Par.xspStage == 1 && flashLive s && s.boot.service == .none
    .ok { setSlot s b {} with boot.upload := some { size := size.toNat, toB := b, staged := staged },
                              xsp.stagedValid := s.xsp.stagedValid && !staged } (u8 (slotNo b) ++ [0, 0, 0]))
/-- Image bytes arrive: in the slot, or sealed in the staging area of the flash, whose bytes are then free (log 48). -/
def takeImage (s : State) (u : FwUpload) (off : Nat) (bytes : List Byte) : State :=
  if u.staged then
    let t := tearFlash bytes.length (0x10000 + off) s
    { t with boot.upload := some { u with bytes := mapWriteAll 0xFF u.bytes off bytes } }
  else
    let f := fwSlot s u.toB
    setSlot s u.toB { f with bytes := mapWriteAll 0xFF f.bytes off bytes }
/-- FW_DATA. -/
def execFwData (h : Hdr) (offset : BitVec 32) (bytes : List (BitVec 8)) (s : State) : Out :=
  request s h 0x0A02 (.role 2) (firstBad [(bytes.isEmpty, 4), (decide (4080 < bytes.length), 4084)]) (fun _ =>
    match s.boot.upload with
    | none => .no 0x31 1 []
    | some u =>
      if u.size < offset.toNat + bytes.length ∨ (u.staged && !flashLive s) then .no 0x31 1 []
      else .ok (takeImage s u offset.toNat bytes) [])
/-- FW_INSTALL: verification starts as a long operation. -/
def execFwInstall (h : Hdr) (flags : BitVec 8) (s : State) : Out :=
  request s h 0x0A03 (.role 2) (firstBad [(decide (2 ≤ flags.toNat), 0)]) (fun role =>
    if flags.getLsbD 0 && anyRun s then .no 7 0x11 []
    else if !s.nv.auditOk then .no 0x31 0xFFFF []
    else .long s (.fwInstall (flags.getLsbD 0) role))
/-- Version and key slot of an audit entry (20 Table 20.8a). -/
def fwWord (f : FwSlot) : Word := f.version.setWidth 32 ||| (f.key.setWidth 32 <<< 24)
/-- An installation whose image verified: the staged copy goes to the slot, which becomes the preferred one (21 R433). -/
def installed (s : State) (role : Nat) (i : ImageFacts) (b : Bool) : State :=
  let staged := (s.boot.upload.map (·.staged)).getD false
  let bytes := if staged then (s.boot.upload.map (·.bytes)).getD [] else (fwSlot s b).bytes
  let f := slotOf i bytes
  let t := auditAll s role [(7, slotNo b, fwWord (fwSlot s b), fwWord f)]
  { setSlot t b f with nv.preferB := b, boot.upload := none, xsp.stagedValid := t.xsp.stagedValid || staged }
/-- An installation refused: a slot written directly has failed verification; with staging it is not written (19 R403). -/
def notInstalled (s : State) (b : Bool) : State :=
  let staged := (s.boot.upload.map (·.staged)).getD false
  let t := { s with boot.upload := none, xsp.stagedValid := s.xsp.stagedValid && !staged }
  if staged then t else setSlot t b { fwSlot t b with state := .failed }
/-- FW_INSTALL_DONE (20 R420; 19 Table 19.3). -/
def execFwInstallDone (image : ImageFacts) (s : State) : Out :=
  match s.mbx.long with
  | some (.fwInstall reboot role, h) =>
    let b := (s.boot.upload.map (·.toB)).getD (!s.boot.slotB)
    let gone := (s.boot.upload.map (·.staged)).getD false && !flashLive s
    match (if gone then some 2 else installBad s role image) with
    | some d => done s (endLong (notInstalled s b) 0x0A03 h 0x53 d [])
    | none =>
      let t := endLong (installed s role image b) 0x0A03 h 0 0 ([image.slot] ++ leBytes 3 image.version.toNat)
      done s (if reboot then rebootLater t else t)
  | _ => skip s
/-- One slot of FW_INFO. -/
def slotInfo (s : State) (b : Bool) : List Byte :=
  let f := fwSlot s b
  let st : Nat := if s.boot.service == .none && s.boot.slotB == b then 2
    else match f.state with | .empty => 0 | .valid => 1 | .failed => 3
  u8 st ++ leBytes 3 f.version.toNat ++ w32 f.size
/-- FW_INFO. -/
def execFwInfo (h : Hdr) (s : State) : Out :=
  request s h 0x0A04 .nothing none (fun _ => .ok s (slotInfo s false ++ slotInfo s true))
/-- A slot that failed verification (21 R433): WARN 0x2005 and BOOT_FLAGS bit 0. -/
def slotFailed (s : State) (b : Bool) (d : Nat) : State :=
  raise0 (setSlot { s with boot.flags := s.boot.flags ||| 1 } b { fwSlot s b with state := .failed }) 0x2005 0
    (BitVec.ofNat 8 (16 * slotNo b + d))
/-- SLOT_BACKGROUND_VERIFY_DONE (21 R433): FW_INFO reports the slot not booted; a slot without an image is empty. -/
def execSlotBackgroundVerifyDone (image : Option ImageFacts) (s : State) : Out :=
  let b := !s.boot.slotB
  let t := { s with boot.verifyDue := false }
  when_ s (thoevoUp s && s.boot.verifyDue)
    (match image with
     | none => setSlot t b {}
     | some i => match imageBad s i with
       | none => setSlot t b (slotOf i (fwSlot s b).bytes)
       | some d => if (fwSlot s b).state == .failed then { t with boot.flags := t.boot.flags ||| 1 } else slotFailed t b d)

/-! MRAM (20 R426 to R428; 17 Table 17.8). -/

/-- MRAM area of an erase region (20 Table 20.8). -/
def eraseArea (s : State) (region : Nat) : Nat :=
  if region = 0 then 8 else if region = 1 then 2 else if region = 2 then 4 else slotNo (!s.boot.slotB)
/-- MRAM_ERASE. -/
def execMramErase (h : Hdr) (region : BitVec 8) (s : State) : Out :=
  request s h 0x0A05 (.role 2) (firstBad [(decide (4 ≤ region.toNat), 0)]) (fun role =>
    if !thoevoUp s || anyRun s then .no 7 0x11 []
    else audited s role [(12, eraseArea s region.toNat, 0, 0)] (fun t => .long t (.mramErase region)))
/-- The streams Cairn placed in MRAM. -/
def mramStream (s : State) (n : Nat) : Bool :=
  match s.nv.place with
  | some p => p.streams.any (fun q => q.stream == n && q.dest == .mram)
  | none => false
/-- A stream whose records are erased: numbers go on. -/
def emptyStream (t : StreamSt) : StreamSt := { t with recs := [], base := t.base + t.recs.length, openN := 0 }
/-- What an erased region holds. -/
def eraseRegion (s : State) (region : Nat) : State :=
  if region = 0 then
    { s with cairn.streams := (s.cairn.streams.zipIdx).map (fun p => if mramStream s p.2 then emptyStream p.1 else p.1) }
  else if region = 1 then { s with nv.banks := [none, none, none, none] }
  else if region = 2 then { s with nv.segs := [] }
  else { setSlot s (!s.boot.slotB) {} with boot.upload := none }
/-- MRAM_ERASE_DONE. -/
def execMramEraseDone (s : State) : Out :=
  match s.mbx.long with
  | some (.mramErase r, h) =>
    let t := eraseRegion { s with nv.eraseOpen := s.nv.eraseOpen &&& ~~~(eraseBit s r.toNat) } r.toNat
    done s (endLong t 0x0A05 h 0 0 [])
  | _ => skip s
/-- A block of records is lost where it lies: block k of a stream, counted from its oldest record (20 R427; 14 R302). -/
def loseBlock (s : State) (n k : Nat) : State :=
  let per := match s.nv.place.bind (fun p => p.streams.find? (fun q => q.stream == n)) with
    | some q => max 1 (4096 / (8 + 4 * q.params.length)) | none => 1
  { s with cairn.streams := s.cairn.streams.modify n (fun t =>
      { t with recs := (t.recs.zipIdx).map (fun p => if p.2 / per = k then (0, []) else p.1),
               lost := t.lost + BitVec.ofNat 32 (min per (t.recs.length - k * per)) }) }
/-- A unit that fails its tag is absent for its owner (20 R427; the numbering of units is the model's, log 49): bank copy,
declaration or placement, segment, last state, log record, audit record, stream block. -/
def loseUnit (s : State) (area k : Nat) : State :=
  match area with
  | 2 => { s with nv.banks := s.nv.banks.modify k (fun _ => none) }
  | 3 => if k = 0 then { s with nv.decl := [] } else { s with nv.place := none }
  | 4 => { s with nv.segs := s.nv.segs.filter (fun g => g.key != k) }
  | 5 => { s with nv.posA := none, nv.posB := none, nv.lastPwr := 0, nv.lastFaults := [] }
  | 6 => { s with nv.log := s.nv.log.filter (fun e => e.seq.toNat != k) }
  | 7 => { s with nv.audit := s.nv.audit.filter (fun e => e.seq.toNat != k) }
  | 8 => loseBlock s (k % 16) (k / 16)
  | _ => s
/-- WARN 0x2E07 and MRAM_LOST for a unit; the fault log keeps its own code, raised at boot (20 R427; 12 R282). -/
def unitLost (s : State) (u : Nat × Nat) : State :=
  let t := loseUnit s u.1 u.2
  if u.1 = 6 then t
  else raise0 { t with nv.lost := t.nv.lost + 1 } 0x2E07 0 (BitVec.ofNat 8 u.1)
/-- MRAM_SCRUB_TICK (20 R428): corrected words are counted, more than 16 in a pass raise WARN 0x2E06, and a unit with an
uncorrectable word fails its tag. -/
def execMramScrubTick (corrected : Nat) (bad : List (Nat × Nat)) (s : State) : Out :=
  let us := bad.filter (fun u => decide (2 ≤ u.1) && decide (u.1 ≤ 8))
  let fails := decide (16 < corrected) || !us.isEmpty
  let s1 := { s with nv.corr := s.nv.corr + BitVec.ofNat 32 corrected,
                     boot.bist := if fails then s.boot.bist ||| 0x100 else s.boot.bist &&& ~~~0x100 }
  let s2 := if 16 < corrected then raise0 s1 0x2E06 0 noDetail else s1
  when_ s (thoevoUp s && !s.sum.pfCommit && parD s Par.mramScrubPeriod != 0) (us.foldl unitLost s2)
/-- REBOOT (21 R430): the reply, then the commit and the reset 1 ms later. -/
def execReboot (h : Hdr) (s : State) : Out :=
  request s h 0x0A06 (.role 2) none (fun _ => if anyRun s then .no 7 0x11 [] else .ok (rebootLater s) [])

end Sys2Proof.Machine
end

