-- ==== Sys2Proof/Machine/Otp.lean ====
section
/-!
DEFINITION. The OTP commands: reading, trial overrides, burning with verification and redirection, locks and retirement
(20 R407 to R421; 17 Table 17.8).
-/

namespace Sys2Proof.Machine
open Sys2Proof

/-- Rows of SECRETS read as 0, and so does the spare region that replaces it (R422; log 46). -/
def secretRows (s : State) (r : Nat) : Bool :=
  decide (128 ≤ r ∧ r ≤ 159) || (replacedRegion s 3 && decide (160 ≤ r ∧ r ≤ 191))
/-- What OTP_READ shows of a row (R410, R412, R422): an INSTALLER region that failed reads 0. -/
def readRow (s : State) (r : Nat) : BitVec 64 :=
  if secretRows s r then 0
  else if s.otp.failed.getLsbD 4 && decide (193 ≤ r ∧ r ≤ 214) && (mapGet s.otp.overrides r).isNone then 0
  else shadow s r
/-- OTP_READ (R410). -/
def execOtpRead (h : Hdr) (row : BitVec 16) (n : BitVec 8) (s : State) : Out :=
  request s h 0x0901 (.role 2)
    (firstBad [(decide (256 < row.toNat + n.toNat), 0), (decide (n.toNat = 0) || decide (64 < n.toNat), 2)]) (fun _ =>
    .ok s ((List.range n.toNat).flatMap (fun (k : Nat) =>
      rowBytes (readRow s (row.toNat + k)) ++ u16 (row.toNat + k) ++ u8 (rowCode (rowState s (row.toNat + k))) ++ [0])))
/-- Role number of the owner of a row for a request's data (17 R360). -/
def rowOwner (r : Nat) (d : BitVec 64) : Nat :=
  if r = 104 then (if d.toNat % 2 ^ 32 ≠ 0 then 3 else 2)
  else match regionOf r with
    | some k => if k < 4 then 3 else 2
    | none => if 160 ≤ r ∧ r ≤ 191 then 3 else 2
/-- Two audit entries of a row: its halves before and after (R425). -/
def rowEntries (kind r : Nat) (old new : BitVec 64) : List (Nat × Nat × Word × Word) :=
  [(kind, r, old.setWidth 32, new.setWidth 32), (kind + 1, r, (old >>> 32).setWidth 32, (new >>> 32).setWidth 32)]
/-- OTP_OVERRIDE (R413). -/
def execOtpOverride (h : Hdr) (row : BitVec 16) (data : BitVec 64) (s : State) : Out :=
  request s h 0x0902 (.role (rowOwner row.toNat data)) none (fun role =>
    let r := row.toNat
    match regionOf r with
    | none => .no 0x31 1 []
    | some k =>
      if k = 2 ∨ k = 3 ∨ r = 104 then .no 0x31 1 []
      else if lockedRegion s k || retireFlag s k then .no 0x51 r []
      else audited s role (rowEntries 5 r (shadow s r) data) (fun t =>
        .ok (raise0 { t with otp.overrides := mapPut t.otp.overrides r data } 0x1E02 0 (BitVec.ofNat 8 r)) []))

/-! Burning (R414 to R416, R421). -/

/-- Burns and locks are accepted in READY and HOLD with no axis in RUN, and in the maker-service state (17 Table 17.3; 21
Table 21.3). -/
def otpTime (s : State) : Bool := (thoevoUp s && !anyRun s) || s.boot.service == .maker
/-- The first die sensor outside 10 °C to 85 °C; one that has not read since the boot is judged row by row (13 R294; log
47). -/
def dieOutside (s : State) : Option Nat :=
  (List.range 2).find? (fun (k : Nat) =>
    let d := getSen s (13 + k)
    d.seen && !(fle (frnd 10) d.t && fle d.t (frnd 85)))
/-- Rows marked reserved in Table 20.1 (R408). -/
def reservedRow (r : Nat) : Bool :=
  decide (32 ≤ r ∧ r ≤ 63) || decide (67 ≤ r ∧ r ≤ 78) || decide (105 ≤ r ∧ r ≤ 106) || decide (108 ≤ r ∧ r ≤ 127) ||
    decide (144 ≤ r ∧ r ≤ 158) || decide (243 ≤ r ∧ r ≤ 247)
/-- Every byte of a row-104 burn is 0xFF or 0x00 (R414). -/
def flagBytes (d : BitVec 64) : Bool := (rowBytes d).all (fun b => b == 0 || b == 0xFF)
/-- The slots a row-104 burn revokes that were not revoked before (R421). -/
def newlyRevoked (s : State) (d : BitVec 64) : List Nat :=
  (List.range 6).filter (fun (j : Nat) => d.getLsbD (8 * j) && !slotRevoked s j)
/-- A lock refuses the burn of a row (R417): but for row 104 and a re-burn of a WEAK row with its own data. -/
def lockRefuses (s : State) (p : BitVec 16 × BitVec 64) : Bool :=
  let r := p.1.toNat
  match regionOf r with
  | some k => lockedRegion s k && r != 104 && !(rowState s r == .weak && rowData s r == p.2)
  | none =>
    -- the spare regions carry LOCK flags of their own (Table 20.2)
    (decide (160 ≤ r ∧ r ≤ 191) && flagSet (fuseRow s 240) 5 || decide (216 ≤ r ∧ r ≤ 239) && flagSet (fuseRow s 240) 6) &&
      !(rowState s r == .weak && rowData s r == p.2)
/-- A revocation R421 refuses: no usable slot would be left, or the running image's slot goes while the other firmware slot
holds no image of a different usable slot. -/
def revokeRefused (s : State) (d : BitVec 64) : Bool :=
  let gone := newlyRevoked s d
  let left := fun (j : Nat) => slotUsable s j && !gone.contains j
  let run := if s.boot.slotB then s.nv.slotB else s.nv.slotA
  let oth := if s.boot.slotB then s.nv.slotA else s.nv.slotB
  !gone.isEmpty && (!(List.range 6).any left ||
    (gone.contains run.key.toNat && !(oth.state == .valid && oth.key != run.key && left oth.key.toNat)))
/-- OTP_BURN (R414): the whole request is judged before it starts. -/
def execOtpBurn (h : Hdr) (rows : List (BitVec 16 × BitVec 64)) (s : State) : Out :=
  request s h 0x0903 (.role (rows.foldl (fun (m : Nat) p => max m (rowOwner p.1.toNat p.2)) 2))
    (firstBad [(decide (rows.length = 0) || decide (8 < rows.length), 0)]) (fun role =>
    if !otpTime s then .no 7 0x11 []
    else match dieOutside s with
      | some k => .no 0x50 k []
      | none => match rows.find? (lockRefuses s) with
        | some p => .no 0x51 p.1.toNat []
        | none =>
          if rows.any (fun p => reservedRow p.1.toNat) then .no 0x31 1 []
          else if rows.any (fun p => p.1 == 104 && flagBytes p.2 && revokeRefused s p.2) then .no 0x31 2 []
          else if !s.nv.auditOk then .no 0x31 0xFFFF []
          else .long s (.otpBurn rows ((roleOf role).getD .installer)))
/-- Set how a physical row senses. -/
def setSense (s : State) (p : Nat) (st : RowState) : State :=
  let rest := s.otp.states.filter (fun q => q.1 != p)
  { s with otp.states := if st = .good then rest else rest ++ [(p, st)] }
/-- Fuses of a physical row burn: a bit never returns to 0 (R407). -/
def burnRow (s : State) (p : Nat) (d : BitVec 64) : State := { s with otp.fuse := mapWrite 0 s.otp.fuse p (fuseRow s p ||| d) }
/-- A burn that a power fail or the temperature cut: of the row the bits pulsed before the cut are burned, a free part of them, for the order
of the pulses is not stated (R419; 03 Table 3.5; log 115). -/
def partBurn (s : State) (row : Nat) (d : BitVec 64) : State :=
  let f := freeWord s
  let g := freeWord f.2
  burnRow g.2 row (d &&& ((f.1.setWidth 64 <<< 32) ||| g.1.setWidth 64))
/-- Redirection of a row (R416): its data into the lowest free spare, then the entry in three copies. -/
def redirect (s : State) (r : Nat) (d : BitVec 64) (b : BurnSense) : State × Nat :=
  match (freeSpares s).head? with
  | none => (setSense s (physRow s r) .bad, 4)
  | some k =>
    let s1 := burnRow s (256 + k) d
    if b.spareAgrees then
      let e : BitVec 64 := BitVec.ofNat 64 (0x8000 + mapRow s r)
      (setSense (burnRow s1 (248 + k) (e ||| (e <<< 16) ||| (e <<< 32))) (256 + k) .good, 2)
    else ({ setSense s1 (physRow s r) .bad with otp.skipped := s1.otp.skipped ++ [k] }, 4)
/-- A row may be burned with its data (R414): blank, the same data, or BAD; row 104 byte by byte; INSTALLER_OPT without its
reserved bits (Table 20.7). -/
def burnable (s : State) (r : Nat) (d : BitVec 64) : Bool :=
  if r = 104 then flagBytes d
  else if 240 ≤ r ∨ reservedRow r then false
  else if r = 192 ∧ d &&& ~~~3 ≠ 0 then false
  else rowData s r == 0 && rowState s r != .bad || rowData s r == d || rowState s r == .bad
/-- Maker-class rows are verified at two margins and pulsed again (R415). -/
def makerRow (r : Nat) : Bool := decide (r < 192)
/-- Burn of one row with what the array answers (R415): its result of Table 20.4. -/
def burnOne (s : State) (r : Nat) (d : BitVec 64) (b : BurnSense) : State × Nat :=
  let pass : Nat := if makerRow r && b.repulsed then 1 else 0
  let s0 := { s with otp.overrides := mapDel s.otp.overrides r }
  if r = 104 then
    ((newlyRevoked s d).foldl (fun t (j : Nat) => raise0 t 0x1E01 0 (BitVec.ofNat 8 j)) (burnRow s0 (mapRow s 104) d), pass)
  else if rowState s r = .bad then redirect s0 r d b
  else if b.agrees then (setSense (burnRow s0 (physRow s r) d) (physRow s r) .good, pass)
  else redirect (burnRow s0 (physRow s r) d) r d b
/-- Audit entries of a row about to be burned (R425): flags of row 104 one by one. -/
def burnEntries (s : State) (r : Nat) (d : BitVec 64) : List (Nat × Nat × Word × Word) :=
  if r = 104 then ((List.range 6).filter (fun (j : Nat) => d.getLsbD (8 * j))).map (fun (j : Nat) =>
    (4, 104 * 256 + 8 * j, ((rowData s 104) >>> (8 * j)).setWidth 32 &&& 0xFF, 0xFF))
  else rowEntries 2 r (rowData s r) d
/-- The rows in request order; the first result 4 or 5 ends the request (R415). A row in whose course the temperature leaves
the window keeps the bits pulsed until then (R419; 13 R294). -/
def burnAll (role : Nat) : State → List ((BitVec 16 × BitVec 64) × BurnSense) → List Nat → State × List Nat
  | s, [], done => (s, done)
  | s, ((row, d), b) :: l, done =>
    let r := row.toNat
    if done.any (fun (k : Nat) => decide (4 ≤ k)) then burnAll role s l (done ++ [5])
    else if !b.tempOk then
      burnAll role (if burnable s r d then partBurn (auditAll s role (burnEntries s r d)) (physRow s r) d else s) l (done ++ [5])
    else if !burnable s r d then burnAll role s l (done ++ [3])
    else
      let t := burnOne (auditAll s role (burnEntries s r d)) r d b
      burnAll role t.1 l (done ++ [t.2])
/-- What the array answers for each row; a row without an answer was not reached. -/
def sensesFor (rows : List (BitVec 16 × BitVec 64)) (l : List BurnSense) : List ((BitVec 16 × BitVec 64) × BurnSense) :=
  rows.zipIdx.map (fun p => (p.1, (l[p.2]?).getD ⟨true, false, true, false⟩))
/-- OTP_BURN_DONE (R415). -/
def execOtpBurnDone (senses : List BurnSense) (s : State) : Out :=
  match s.mbx.long with
  | some (.otpBurn rows owner, h) =>
    let t := burnAll (roleNo owner) s (sensesFor rows senses) []
    let data := t.2.map (fun (k : Nat) => BitVec.ofNat 8 k)
    match (rows.zip t.2).find? (fun p => decide (4 ≤ p.2)) with
    | some p => done s (endLong t.1 0x0903 h 0x52 p.1.1.toNat data)
    | none => done s (endLong t.1 0x0903 h 0 0 data)
  | _ => skip s

/-! Lock and retire (R417, R418). -/

/-- OTP_LOCK, kind LOCK (R417). -/
def execOtpLock (h : Hdr) (region : BitVec 8) (s : State) : Out :=
  request s h 0x0904 (.role (if region.toNat < 4 then 3 else 2)) (firstBad [(decide (5 ≤ region.toNat), 0)]) (fun _ =>
    if !otpTime s then .no 7 0x11 []
    else match dieOutside s with
      | some k => .no 0x50 k []
      | none => if !s.nv.auditOk then .no 0x31 0xFFFF [] else .long s (.otpLock region.toNat false))
/-- Rows of the spare region of a region's class (R418). -/
def spareRows (k : Nat) : List Nat := if k = 4 then (List.range 24).map (· + 216) else (List.range 32).map (· + 160)
/-- The spare region of a region's class is already selected (R418). -/
def spareTaken (s : State) (k : Nat) : Bool := if k = 4 then selectFlag s 4 else (List.range 4).any (selectFlag s)
/-- OTP_LOCK, kind RETIRE (R418, R419). -/
def execOtpRetire (h : Hdr) (region : BitVec 8) (s : State) : Out :=
  request s h 0x0904 (.role 3) (firstBad [(decide (5 ≤ region.toNat), 0)]) (fun _ =>
    let k := region.toNat
    if !otpTime s then .no 7 0x11 []
    else match dieOutside s with
      | some d => .no 0x50 d []
      | none =>
        if spareTaken s k then .no 0x31 3 []
        else if (spareRows k).any (fun r => fuseRow s r != 0) then .no 0x31 4 []
        else if !s.nv.auditOk then .no 0x31 0xFFFF []
        else .long s (.otpLock k true))
/-- Burn the eight bits of a flag (R409), with its audit entry. -/
def burnFlag (role : Nat) (s : State) (row k : Nat) : State :=
  let old := ((fuseRow s row) >>> (8 * k)).setWidth 32 &&& 0xFF
  burnRow (auditAll s role [(4, row * 256 + 8 * k, old, 0xFF)]) row ((0xFF : BitVec 64) <<< (8 * k))
/-- OTP_LOCK_DONE (R417, R418): the flags are burned; a lock drops the region's overrides. -/
def execOtpLockDone (s : State) : Out :=
  match s.mbx.long with
  | some (.otpLock k retire, h) =>
    let role := if retire || decide (k < 4) then 3 else max 2 (actsAs s h)
    let t := if retire then burnFlag role (burnFlag role s 241 k) 242 k
      else
        let f := if replacedRegion s k then (if k = 4 then 6 else 5) else k
        let b := burnFlag role s 240 f
        { b with otp.overrides := b.otp.overrides.filter (fun p => !(contentRows k).contains p.1) }
    done s (endLong t 0x0904 h 0 0 [])
  | _ => skip s

end Sys2Proof.Machine
end

