-- ==== Sys2Proof/Machine/Boot.lean ====
section
/-!
DEFINITION. The end of the boot sequence and the T1S line test (21 R432 to R437; 03 R54, R60; 12 R280, R282; 14 R312; 17
R355; 20 R410 to R412, R427). What the boot senses and measures comes with the command.
-/

namespace Sys2Proof.Machine
open Sys2Proof

/-! Fuses and identity (20 R410 to R412). -/

/-- Rows of the map that sense WEAK, ascending. -/
def weakRows (s : State) : List Nat := (List.range 256).filter (fun r => rowState s r == .weak)
/-- The array as sensed: row states, region states, UID and MAC (Table 20.1, Table 20.3), BOOT_WEAK (21 R435). -/
def senseFuses (s : State) (rows : List (Nat × RowState)) : State :=
  let s1 := { s with otp.states := rows, otp.overrides := [] }
  let failed := BitVec.ofNat 5 (bitsOf ((List.range 5).map (failedRegion s1)))
  let idBad := failed.getLsbD 1
  let weak := (weakRows s1).map (BitVec.ofNat 16)
  { s1 with otp.failed := failed,
            boot.uid := if idBad then 0 else rowData s1 64,
            boot.mac := if idBad then 0x020000000000 else (rowData s1 65).setWidth 48,
            boot.weak := (weak ++ List.replicate 8 0xFFFF).take 8 }
/-- The codes of the array: 0x2E03 for each WEAK row, the region codes of Table 20.3. -/
def fuseCodes (s : State) : State :=
  let bad := fun (k : Nat) => s.otp.failed.getLsbD k
  let s1 := (weakRows s).foldl (fun (t : State) r => raise0 t 0x2E03 0 (BitVec.ofNat 8 r)) s
  let s2 := if bad 0 then raise1 s1 0x4E08 0 noDetail else s1
  let s3 := if bad 1 then raise0 s2 0x2E04 0 1 else s2
  let s4 := if bad 4 then raise0 s3 0x2E04 0 4 else s3
  let s5 := if bad 2 then raise1 s4 0x4E09 0 2 else s4
  if bad 3 then raise1 s5 0x4E09 0 3 else s5

/-! Parameters (17 R355, 03 R60). -/

/-- A working set with the values Summit holds in place of its own (R60). -/
def withSummit (held m : List (Nat × Word)) : List (Nat × Word) :=
  (held.filter (fun p => summitHeld p.1)).foldl (fun q p => parPut q p.1 p.2) (m.filter (fun p => !summitHeld p.1))
/-- Every value that needs no enable and no placement is in force from the load on. -/
def bringAll (s : State) : State :=
  [PEffect.boundary, .enable].foldl (fun (t : State) e => bringInDev (bringInAx (bringInAx t .a e) .b e) e) s
/-- The boot bank is loaded, or the defaults where it is not valid; Summit's values stand but at source 1 (R355, R60). -/
def loadBoot (s : State) (src : BitVec 8) : State :=
  let bank := parBank s s.nv.bootBank
  let vals := match bank with | some b => b.vals | none => []
  let m := if src = 1 then vals else withSummit s.par vals
  { bringAll (loadSet s m) with boot.paramBank := if bank.isSome then BitVec.ofNat 8 s.nv.bootBank else 0xFF }

/-! MRAM (20 R427, 12 R282, 03 R51). -/

/-- What fails its tag is lost: units of areas 2 to 8, log records. The device-state record keeps the marks and the
calibration (20 Table 20.8). -/
def loseAtBoot (s : State) (units : List (Nat × Nat)) : State :=
  let us := units.filter (fun u => decide (2 ≤ u.1) && decide (u.1 ≤ 8) && u.1 != 6)
  let s1 := us.foldl unitLost s
  if us.any (fun u => u.1 == 5) then
    let clear := fun (a : AxisSt) => { a with
      legs := sixMap (fun (l : LegSt) => { l with cv.suspect := false, cv.cal := {} }) a.legs, stage.bypassMask := 0 }
    { onBoth s1 clear with ridge.rga.failed := false, ridge.rgb.failed := false, bus.testFailed := false }
  else s1
/-- Log records that fail their tag, each with WARN 0x2A02. -/
def loseLog (s : State) (seqs : List Nat) : State :=
  let s1 := { s with nv.log := s.nv.log.filter (fun e => !seqs.contains e.seq.toNat) }
  seqs.foldl (fun (t : State) _ => raise0 t 0x2A02 0 noDetail) s1
/-- Regions whose erase was cut hold nothing; each is reported as lost units of its area (log 42). -/
def openErases (s : State) : State :=
  (List.range 5).foldl (fun (t : State) (r : Nat) =>
    if s.nv.eraseOpen.getLsbD r then
      let e := if r < 3 then eraseRegion t r else setSlot t (r == 4) { state := .failed }
      let area := if r < 3 then eraseArea t r else r - 3
      raise0 { e with nv.lost := t.nv.lost + 1 } 0x2E07 0 (BitVec.ofNat 8 area)
    else t) s
/-- The fuses a cut burn, lock or retirement leaves. -/
def cutBurn (s : State) : State :=
  let t := { s with nv.cut := none }
  let flag := fun (u : State) (row k : Nat) => partBurn u row ((0xFF : BitVec 64) <<< (8 * k))
  match s.nv.cut with
  | some (.otpBurn rows _) =>
    rows.foldl (fun (u : State) (p : BitVec 16 × BitVec 64) =>
      if burnable u p.1.toNat p.2 then partBurn u (physRow u p.1.toNat) p.2 else u) t
  | some (.otpLock k true) => flag (flag t 241 k) 242 k
  | some (.otpLock k false) => flag t 240 (if replacedRegion s k then (if k = 4 then 6 else 5) else k)
  | _ => s
/-- The operation a power fail cut is logged (03 Table 3.5): the identification with its code, another with a code the spec
does not name, of a class that is reported (00 R11). -/
def cutLogged (s : State) : State :=
  let t := { s with nv.cut := none }
  let f := freeWord t
  match s.nv.cut with
  | some (.ident x) => raise0 t 0x2706 (scopeOf x) 7
  | some (.calConv _ _) => logIt f.2 (logEntry f.2 (freeCode f.1) 1 0 noDetail fnan)
  | some (.angleOfs x) => logIt f.2 (logEntry f.2 (freeCode f.1) 1 (scopeOf x) noDetail fnan)
  | _ => t
/-- The last committed position is the starting position, marked RESTORED (11 R243). -/
def restorePositions (s : State) : State :=
  let put := fun (p : Option Int) (a : AxisSt) => match p with | some v => { a with fb.pos := v, fb.restored := true } | none => a
  onAx (onAx s .a (put s.nv.posA)) .b (put s.nv.posB)

/-! Codes of the boot. -/

/-- Codes Summit held while Thoevo did not run: a power fail and a breaker trip are logged without entering the list (R280). -/
def logHeld (s : State) : State :=
  s.sum.held.foldl (fun (t : State) (h : HeldCode) =>
    if codeClass h.code = 5 then logRaise t h.code h.scope (h.detail.setWidth 8) fnan
    else raise0 t h.code h.scope (h.detail.setWidth 8)) { s with sum.held := [] }
/-- Conditions MRAM keeps are raised again while they hold (R280): bypass masks, suspect marks, failed engines, a failed
chopper test. -/
def keptCodes (s : State) : State :=
  let s1 := bothAxes.foldl (fun (t : State) x => (allLegs.filter (fun l => (getAx s x).stage.bypassMask.getLsbD (legNo l))).foldl
    (fun (u : State) l => raise1 u 0x3205 (scopeOf x) (legIdx x l)) t) s
  let s2 := (List.range 12).foldl (fun (t : State) k =>
    if (getCv s k).suspect then raise0 t 0x2401 (scopeOf (cvLeg k).1) (BitVec.ofNat 8 k) else t) s1
  let s3 := [Engine.rga, .rgb].foldl (fun (t : State) e => if (getEng s e).failed then raise0 t 0x2503 0 (BitVec.ofNat 8 (engNo e)) else t) s2
  if s.bus.testFailed then chopFault s3 1 else s3
/-- The boot tests of engines and converters (21 R432, R436). -/
def bootTests (s : State) (b : BootFacts) : State :=
  let okA := b.sigA == Config.rgSignature
  let okB := b.sigB == Config.rgSignature
  let s1 := { s with ridge.rga.failed := s.ridge.rga.failed || !okA, ridge.rgb.failed := s.ridge.rgb.failed || !okB,
                     boot.bist := if okA && okB then s.boot.bist else s.boot.bist ||| 0x2 }
  let s2 := (List.range 12).foldl (fun (t : State) k =>
    if b.chkBad.getLsbD k then { onCv t k (fun c => { c with suspect := true }) with boot.bist := t.boot.bist ||| 0x4 } else t) s1
  if b.chkBad = 0 then s2 else raise0 s2 0x2006 0 2

/-! Images (21 R433). -/

/-- Why a slot's image does not verify; a slot without an image has no size (log 43). -/
def bootBad (s : State) (i : Option ImageFacts) : Option Nat := match i with | some f => imageBad s f | none => some 1
/-- The slot runs: BOOT_SLOT, and what FW_INFO says of it. -/
def runSlot (s : State) (slot : Bool) (i : Option ImageFacts) : State :=
  let t := { s with boot.slotB := slot, boot.verifyDue := true }
  match i with | some f => setSlot t slot (slotOf f (fwSlot t slot).bytes) | none => t
/-- The preferred slot is booted, or the other; none where neither verifies. -/
def chooseSlot (s : State) (b : BootFacts) : State × Bool :=
  let img := fun (slot : Bool) => if slot then b.imageB else b.imageA
  let p := s.nv.preferB
  match bootBad s (img p) with
  | none => (runSlot s p (img p), true)
  | some d =>
    let s1 := slotFailed s p d
    match bootBad s1 (img (!p)) with
    | none => (runSlot s1 (!p) (img (!p)), true)
    | some d2 => (slotFailed s1 (!p) d2, false)

/-! The end of the boot. -/

/-- Thoevo does not start: the service state (21 R434). -/
def toService (s : State) (v : Service) : State :=
  { s with pwr := { s.pwr with base := .off, boot := none }, boot.service := v, boot.flags := s.boot.flags ||| 0x40, clk.woken := 0 }
/-- The stored placement matches (14 R312). -/
def placeMatches (s : State) (p : Placement) : Bool :=
  p.declId == crc32 s.nv.decl && p.parCrc == nextCrc s &&
  p.failedMarks == BitVec.ofNat 2 (bit s.ridge.rga.failed 0 + bit s.ridge.rgb.failed 1)
/-- The placement is restored: values, images, hosts (14 R312). -/
def restorePlace (s : State) (p : Placement) : State :=
  let s1 := activate s p (some 1)
  let s2 := loadBank (loadBank s1 .rga p.out.imgA) .rgb p.out.imgB
  let s3 := bothAxes.foldl (swapAxis .rgb p.out.imgB) (bothAxes.foldl (swapAxis .rga p.out.imgA) s2)
  { s3 with cairn.matched := true, boot.flags := s3.boot.flags ||| 0x2 }
/-- A stored placement is restored, or NO_PLACEMENT is set; WARN 0x2C06 where one exists and does not match, or was lost. -/
def bootPlace (s : State) (had : Bool) : State :=
  let miss := fun (t : State) => { t with pwr.noPlacement := true }
  match s.nv.place with
  | some p => if placeMatches s p then restorePlace s p else miss (raise0 s 0x2C06 0 noDetail)
  | none => miss (if had then raise0 s 0x2C06 0 noDetail else s)
/-- BOOT_FLAGS bits that follow from the facts (21 R442). -/
def bootFlags (s : State) (b : BootFacts) : BitVec 16 :=
  BitVec.ofNat 16 (bit (s.boot.paramBank == 0xFF) 2 + bit (anyWeak s) 3 + bit (!(b.lostUnits.isEmpty && b.logLost.isEmpty)) 4 +
    bit s.nv.pfOpen 5)
/-- The state the boot ends in (03 R54): BOOT_TARGET for sources 1 to 5. -/
def bootTarget (s : State) (src : BitVec 8) : State :=
  let t := if src = 6 then 0 else (parD s Par.bootTarget).toNat
  if s.pwr.noPlacement then enterHold s
  else if t = 0 then enterReady s
  else if t = 1 then enterHold s
  else enterStandby (commitState s) false
/-- The boot of a drive whose fuses and core are sound, up to the firmware image. -/
def bootMram (s : State) (src : BitVec 8) (b : BootFacts) : State :=
  -- the parameters decide how the codes of the boot show on FAULT_N
  let s1 := loadBoot (loseAtBoot s b.lostUnits) src
  let s2 := openErases (loseLog (cutLogged (logHeld (fuseCodes s1))) b.logLost)
  let s3 := { s2 with boot.flags := s2.boot.flags ||| bootFlags s2 b }
  let s4 := if s3.nv.pfOpen then raise0 { s3 with nv.pfOpen := false } 0x200B 0 noDetail else s3
  restorePositions s4
/-- Thoevo starts: tests, marks, placement, links, state, report (21 R432, R435; 19 R397). -/
def bootThoevo (s : State) (src : BitVec 8) (b : BootFacts) (had : Bool) (flash : FlashFind) : State :=
  let s1 := keptCodes (bootTests s b)
  let s2 := bootPlace s1 had
  let s3 := discover { s2 with boot.cmpFail := b.cmpFail, boot.chopSeen := b.chopSeen, boot.time := b.bootMs,
                               pwr := { s2.pwr with boot := none }, hsp.intStatus := s2.hsp.intStatus ||| 0x20 } flash
  let s4 := bootTarget (raise0 s3 0x1004 0 src) src
  placeLinks (if thoevoUp s4 then relatch s4 else s4)
/-- BOOT_COMPLETE (21 R432 to R435). -/
def execBootComplete (b : BootFacts) (flash : FlashFind) (s : State) : Out :=
  match s.pwr.boot with
  | none => skip s
  | some src =>
    let s0 := { s with clk.extRef := b.xtal, clk.xtal := b.xtal, nv.bootCount := s.nv.bootCount + 1 }
    let s1 := senseFuses (cutBurn s0) b.rows
    let core := if b.coreOk then s1 else raise1 { s1 with boot.bist := s1.boot.bist ||| 0x1 } 0x400A 0 noDetail
    let keys := s1.otp.failed.getLsbD 2 || s1.otp.failed.getLsbD 3
    done s
      (if !b.coreOk || keys then toService (fuseCodes core) .maker
       else
         let c := chooseSlot (bootMram s1 src b) b
         if c.2 then bootThoevo c.1 src b s.nv.place.isSome flash
         else toService (raise1 c.1 0x4008 0 noDetail) .recovery)
/-- T1S_LINE_TEST_DONE (21 R437, Table 21.4). -/
def execT1sLineTestDone (fault : Bool) (s : State) : Out :=
  let t := { s with boot.lineTest := false }
  when_ s s.boot.lineTest
    (if fault then raise0 { t with boot.bist := t.boot.bist ||| 0x40 } 0x2006 0 6
     else { t with boot.bist := t.boot.bist &&& ~~~0x40 })

end Sys2Proof.Machine
end

