-- ==== Sys2Proof/Machine/Brake.lean ====
section
/-!
DEFINITION. Holding-brake outputs (chapter 04 R87 to R89; 10 R236).
-/

namespace Sys2Proof.Machine
open Sys2Proof

/-- The bus voltage the brake output of an axis is computed from: VM_A for axis A, VM_B for axis B (R88). -/
def hbBus (s : State) (x : Axis) : F32 := match x with | .a => s.bus.vmA | .b => s.bus.vmB
/-- The duty of a brake output (R88): 24 V over its bus voltage while it pulls, HB_HOLD_DUTY of that while it holds, never above 1,
and 0 while it is off. It follows the bus voltage, which the drive takes anew every 100 µs. -/
def hbDuty (s : State) (x : Axis) : F32 :=
  let full := fmin f1 (fThoevo (24 / fval (hbBus s x)))
  match (getAx s x).stage.brake with
  | .off => 0
  | .pull => full
  | .hold => fmin f1 (fThoevo (fval (parX s x Par.hbHoldDuty) / 100 * 24 / fval (hbBus s x)))
/-- HB_PULL_EXPIRY (R88): the output holds at HB_HOLD_DUTY. -/
def execHbPullExpiry (x : Axis) (s : State) : Out :=
  when_ s ((getAx s x).stage.brake == .pull) (onAx s x (fun a => { a with stage.brake := .hold }))

/-- HB_OVERCURRENT (R88): above 1.8 A for 50 µs, or above 3 A. -/
def execHbOvercurrent (x : Axis) (currentMa us : Nat) (s : State) : Out :=
  when_ s ((getAx s x).stage.brake != .off && (decide (1800 < currentMa ∧ 50 ≤ us) || decide (3000 < currentMa)))
    (raise (onAx s x brakeOff) 0x4208 (scopeOf x) noDetail (frnd (milli currentMa)) false)

/-- HB_OPEN_TIMEOUT (R88): current below HB_OPEN_THR in hold; the output stays on. -/
def execHbOpenTimeout (x : Axis) (currentMa : Nat) (s : State) : Out :=
  when_ s ((getAx s x).stage.brake == .hold && decide ((currentMa : Rat) < fval (parX s x Par.hbOpenThr)))
    (raise s 0x2203 (scopeOf x) noDetail (frnd (milli currentMa)) false)

/-- HB_RELEASE_EXPIRY (R89; 10 Tables 10.3 to 10.5): from RELEASE the axis goes to RUN and accepts setpoints; in an
alignment the brake is simply released. -/
def execHbReleaseExpiry (x : Axis) (s : State) : Out :=
  when_ s (getAx s x).stage.releaseWait (onAx s x (fun a =>
    let b := { a with stage.releaseWait := false }
    if a.start.ax = .release then acceptSp (setAx .run b) else b))

/-- HB_TRIP_HOLD_EXPIRY (R89): 5 ms after a trip without an automatic bypass the output switches off. -/
def execHbTripHoldExpiry (x : Axis) (s : State) : Out :=
  when_ s (getAx s x).stage.tripHold (onAx s x brakeOff)

/-- HB_ENGAGE_EXPIRY (10 Table 10.10, R236): gates off, the axis is DISABLED. -/
def execHbEngageExpiry (x : Axis) (s : State) : Out :=
  when_ s ((getAx s x).stage.engageWait && (getAx s x).start.ax == .stopping)
    (onAx s x (fun a => disableAxis { a with stage.engageWait := false }))

end Sys2Proof.Machine
end

