-- ==== Sys2Proof/Machine/Feedback.lean ====
section
/-!
DEFINITION. Position feedback events: quadrature, Z, Hall, sin/cos and serial sources, emulation, compare and capture
(chapter 11).
-/

namespace Sys2Proof.Machine
open Sys2Proof

/-- 2^32 fractions of a revolution (01 R4). -/
def revFrac : Int := 4294967296
/-- A stamp truncated to 8 ns of gPTP time, or of local time without synchronisation (R245, R261). -/
def trunc8 (s : State) (t : Int) : Nat :=
  if gptpOk s then ((t + s.net.ofs) / 8 * 8 - s.net.ofs).toNat else (t / 8 * 8).toNat
/-- A filter parameter in units of 10 ns, as ns (R32). -/
def filtNs (s : State) (x : Axis) (i : Nat) : Int := 10 * ((parX s x i).toNat : Int)
/-- The feedback interface samples this source: PD_ENC is on and the placement declares it (R240; 15 Table 15.3). -/
def fbRuns (s : State) (x : Axis) : Bool := isReady s && hosted s x
/-- A STOP of the feedback subsystem: FB_OK clears (Table 11.6). -/
def fbStop (s : State) (x : Axis) (code : BitVec 16) : State :=
  raise0 (onAx s x (fun a => { a with fb.faulted := true })) code (scopeOf x) noDetail
/-- A qualified edge at a stamp, in the direction of the position of R242 (R255, R256). -/
def qualEdge (s : State) (x : Axis) (rawUp : Bool) (stamp : Nat) : State :=
  let rev := rawUp == (parX s x Par.fbDir == 1)
  onAx s x (fun a =>
    let f := a.fb
    let es := (stamp :: f.edges).take 65
    if f.inDir = 0 ∨ f.dirRev ≠ rev then
      { a with fb := { f with edges := es, dirRev := rev, inDir := 1, speed := 0, speedValid := false } }
    else { a with fb := { f with edges := es, inDir := 2, standstill := false } })
/-- Position counts per revolution of the Z comparison (R244, R246): 4N, or quarter-periods of a sin/cos source. -/
def countsPerRev (s : State) (x : Axis) : Int :=
  if parX s x Par.fbSrc == 3 then 4 * ((parX s x Par.fbScPeriods).toNat : Int) else 4 * ((parX s x Par.fbQepLines).toNat : Int)
/-- Count c of a position, modulo n: the fraction c × 2^32 / n rounded up names it (R244). -/
def countOf (n : Int) (pos : Int) : Int := (pos % revFrac) * n / revFrac
/-- Position of count c in n, rounded up, in a turn (R244, R248). -/
def posOfCount (n turns c : Int) : Int := turns * revFrac + (c * revFrac + n - 1) / n
/-- The position one count up or down, turns counted on wrap (R244). -/
def stepCount (n : Int) (up : Bool) (pos : Int) : Int :=
  let t := pos / revFrac; let c := countOf n pos
  if up then (if c + 1 = n then posOfCount n (t + 1) 0 else posOfCount n t (c + 1))
  else (if c = 0 then posOfCount n (t - 1) (n - 1) else posOfCount n t (c - 1))

/-- The latest position of the source, before FB_DIR: its last sample also before the boundary that latches it (R249, R253). -/
def newPos (f : FbSt) : Int := f.sample.getD f.pos
/-- P of R242 as the interface has it now. -/
def posNow (s : State) (x : Axis) : Int :=
  if sampledSrc s x then (let p := newPos (getAx s x).fb; if parX s x Par.fbDir == 1 then -p else p) else srcPos s x
/-- E of R258. -/
def emuTarget (s : State) (x : Axis) : Int :=
  posNow s x * ((parX s x Par.emuNum).toNat : Int) / (((parX s x Par.emuDen).toNat : Int) * 65536)
/-- The count the output should have now: E, or for a sampled source the way from one E to the next, spread evenly over a period
(R258). -/
def emuCourse (s : State) (x : Axis) : Int :=
  let f := (getAx s x).fb
  let t := periodNs s x
  if sampledSrc s x then
    (if t = 0 then f.emuGoal else f.emuFrom + (f.emuGoal - f.emuFrom) * ((min (s.clk.now - f.emuSince) t : Nat) : Int) / (t : Int))
  else emuTarget s x
/-- The emulation output follows its course count by count, 100 ns apart, as far as the time allows; a lag of more than 16
counts is reported (R258). A new sample begins a new course. -/
def emulate (s : State) (x : Axis) : State :=
  if !(parX s x Par.emuEn).getLsbD 0 then s
  else
    let f := (getAx s x).fb
    let e := emuCourse s x
    let gap := (e - f.emu).natAbs
    let n := min gap ((s.clk.now - f.emuAt) / 100)
    let out := if f.emu ≤ e then f.emu + (n : Int) else f.emu - (n : Int)
    let lag := decide (16 < (e - out).natAbs)
    let s1 := onAx s x (fun a => { a with
      fb.emuFrom := e, fb.emuGoal := emuTarget s x, fb.emuSince := s.clk.now,
      fb.emu := out, fb.emuLag := lag, fb.emuAt := if n = gap then (if n = 0 then f.emuAt else s.clk.now) else f.emuAt + 100 * n })
    if lag && !f.emuLag then raise0 s1 0x2906 (scopeOf x) noDetail else s1

/-- EMUx_A and EMUx_B as the output count sets them, A leading B while it counts up (R258; log 30). -/
def emuPair (s : State) (x : Axis) : Bool × Bool :=
  let k := (getAx s x).fb.emu % 4
  if !(parX s x Par.emuEn).getLsbD 0 then (false, false) else (k == 1 || k == 2, k == 2 || k == 3)
/-- EMUx_Z: high while E mod C_e = EMU_Z_OFS (R258). -/
def emuZ (s : State) (x : Axis) : Bool :=
  let ce := 65536 * ((parX s x Par.emuNum).toNat : Int) / ((parX s x Par.emuDen).toNat : Int)
  parX s x Par.emuEn == 3 && (getAx s x).fb.emu % ce == ((parX s x Par.emuZOfs).toNat : Int)
/-- The source moves: both compare units judge the motion from where it was (R259). -/
def moveFrom (p : Int) (f : FbSt) : FbSt := { f with cmp0.origin := p, cmp1.origin := p }

/-! Quadrature and Z (R244 to R246). -/

/-- Gray position of a pair (A, B): A leads B while counting up (R244; log 30). -/
def quadPhase : Bool × Bool → Nat | (false, false) => 0 | (true, false) => 1 | (true, true) => 2 | (false, true) => 3
/-- QUAD_COUNT (R244, R245): one count, or a QERR sample; four of those within 1 ms raise STOP 0x4910. -/
def execQuadCount (x : Axis) (a b : Bool) (t stableNs : Nat) (s : State) : Out :=
  let s0 := at_ s t
  let f := (getAx s0 x).fb
  let d := (quadPhase (a, b) + 4 - quadPhase f.ab) % 4
  let s1 := onAx s0 x (fun y => { y with fb.ab := (a, b) })
  when_ s (fbRuns s x && parX s x Par.fbSrc == 1 && filtPass (parX s x Par.fbQepFilt) stableNs && d != 0)
    (if d = 2 then
       let keep := s1.clk.now :: (f.qerrStamps.filter (fun (u : Nat) => decide (s1.clk.now < u + 1000000)))
       let s2 := onAx s1 x (fun y => { y with fb.qerr := f.qerr + 1, fb.qerrStamps := keep.take 4 })
       if 4 ≤ keep.length ∧ !s1.flt.list.any (sameFault 0x4910 (scopeOf x) noDetail) then fbStop s2 x 0x4910 else s2
     else
       let up := d == 1
       let s2 := onAx s1 x (fun y => { y with fb := { moveFrom f.pos y.fb with up := up, pos := stepCount (countsPerRev s x) up f.pos } })
       emulate (qualEdge s2 x up (trunc8 s1 ((t : Int) - filtNs s x Par.fbQepFilt))) x)
/-- A shift of the position that leaves the position error unchanged (R246): the references move with it. -/
def shiftPosition (s : State) (x : Axis) (d : Int) : State :=
  let d' := if parX s x Par.fbDir == 1 then -d else d
  let s1 := onAx s x (fun a => { a with fb := { moveFrom (a.fb.pos + d) a.fb with pos := a.fb.pos + d, hist := a.fb.hist.map (· + d') } })
  if (getAx s x).start.ax == .run && (getAx s x).sp.mode == 2 then
    onAx s1 x (fun a =>
      let q := spPos a.sp.now + d'
      { a with
        ctl.posRef := a.ctl.posRef + d',
        sp.now := { a.sp.now with frac := BitVec.ofInt 32 (q % revFrac), turns := BitVec.ofInt 32 (q / revFrac) },
        sp.prevPos := a.sp.prevPos.map (fun p => (p.1 + d', p.2)) })
  else s1
/-- Z_EDGE (R246, Table 11.2). -/
def execZEdge (x : Axis) (rising : Bool) (t stableNs : Nat) (s : State) : Out :=
  let s0 := at_ s t
  let f := (getAx s0 x).fb
  let src := parX s x Par.fbSrc
  let n := countsPerRev s x
  let c := countOf n f.pos
  let off := min c (n - c)
  let ok := decide (off ≤ ((parX s x Par.fbZTol).toNat : Int))
  let run := f.zRun + 1
  let first := onAx (shiftPosition s0 x (f.pos / revFrac * revFrac - f.pos)) x (fun a => { a with fb.referenced := true })
  let bad := raise0 (onAx s0 x (fun a => { a with fb.zErr := f.zErr + 1, fb.zRun := run })) 0x2902 (scopeOf x) noDetail
  when_ s (fbRuns s x && filtPass (parX s x Par.fbQepFilt) stableNs && parX s x Par.fbZMode == 1 && (src == 1 || src == 3) && rising == f.up)
    (if !f.referenced then emulate (raise0 first 0x1901 (scopeOf x) noDetail) x
     else if ok then onAx s0 x (fun a => { a with fb.zRun := 0 })
     else if 3 ≤ run then fbStop bad x 0x4916
     else bad)

/-! Hall inputs (R247, R248). -/

/-- Difference of two angles in °e, in [−180, 180]. -/
def degDiff (a b : Rat) : Rat := let d := a - b; d - 360 * (((roundEven (d / 360)) : Int) : Rat)
/-- Mechanical angle of the position, rad (R242). -/
def thetaM (s : State) (x : Axis) : Rat := ((fbPos s x % revFrac : Int) : Rat) * 2 * piR / 4294967296
/-- A Hall edge at an angle in °e: the first sets θ_ofs, a later one checks the primary (R248). -/
def hallCheck (s : State) (x : Axis) (e : Rat) : State :=
  let f := (getAx s x).fb
  match f.hallOfs with
  | none => onAx s x (fun a => { a with fb.hallOfs := some (rd (degDiff (e - polePairs s x * thetaM s x * 180 / piR) 0)) })
  | some _ =>
    let d := absR (degDiff (fval (elecOf s x (fbPos s x)) * 180 / piR) e)
    if pf s x Par.fbHallTol < d then
      let n := f.hallRun + 1
      let s1 := raise (onAx s x (fun a => { a with fb.hallErr := f.hallErr + 1, fb.hallRun := n, fb.hallBad := true }))
        0x2903 (scopeOf x) noDetail (rd d) false
      if 3 ≤ n then fbStop s1 x 0x4912 else s1
    else onAx s x (fun a => { a with fb.hallRun := 0, fb.hallBad := false })
/-- HALL_EDGE (R247, R248). -/
def execHallEdge (x : Axis) (h : BitVec 3) (t stableNs : Nat) (s : State) : Out :=
  let s0 := at_ s t
  let f := (getAx s0 x).fb
  let src2 := parX s x Par.fbSrc == 2
  let used := src2 || parX s x Par.fbHallUse == 1
  let k0 := (hallIdx f.hall).getD 0
  let illegal := onAx s0 x (fun a => { a with fb.hallErr := f.hallErr + 1, fb.hallIllegal := true })
  let legal := endCause (onAx s0 x (fun a => { a with fb.hall := h, fb.hallIllegal := false })) 0x4911 (scopeOf x) noDetail
  when_ s (fbRuns s x && filtPass (parX s x Par.fbHallFilt) stableNs && used)
    (match hallIdx h with
     | none => illegal
     | some k =>
       let d := (k + 6 - k0) % 6
       if d = 0 then legal
       else if d = 1 ∨ d = 5 then
         let mid := hallCentre s x k0 + (degDiff (hallCentre s x k) (hallCentre s x k0)) / 2
         let up := (d == 1) != (parX s x Par.fbHallRev == 1)
         let s1 := onAx legal x (fun a => { a with fb.hallEdge := some (rd mid) })
         if src2 then
           let n : Int := 6 * ((parX s x Par.motPolePairs).toNat : Int)
           let s2 := onAx s1 x (fun a => { a with fb := { moveFrom f.pos a.fb with up := up, pos := stepCount n up f.pos } })
           emulate (qualEdge s2 x up (trunc8 s0 ((t : Int) - filtNs s x Par.fbHallFilt))) x
         else hallCheck s1 x mid
       else illegal)
/-- HALL_ILLEGAL_TIMEOUT (R247). -/
def execHallIllegalTimeout (x : Axis) (s : State) : Out :=
  when_ s (fbRuns s x && (getAx s x).fb.hallIllegal)
    (raise1 (onAx s x (fun a => { a with fb.faulted := true })) 0x4911 (scopeOf x) noDetail)

/-! Sampled sources (R249 to R253, R255). -/

/-- A position extrapolated from the latest sample at the reported speed (R250, R253). -/
def extrapolate (s : State) (x : Axis) (t : Nat) : Int :=
  let f := (getAx s x).fb
  let dir : Rat := if parX s x Par.fbDir == 1 then -1 else 1
  newPos f + roundEven (dir * fval f.speed * nsSec (t - f.sampleAt) / (2 * piR) * 4294967296)
/-- A position between two samples by linear interpolation, at a stamp in ns, in the sign of R242 (R259, R261). -/
def between (rev : Bool) (p0 p1 : Int) (t0 t1 t : Nat) : Int :=
  let p := if t1 ≤ t0 then p1 else p0 + (p1 - p0) * ((min (t - t0) (t1 - t0) : Nat) : Int) / ((t1 - t0 : Nat) : Int)
  if rev then -p else p
/-- A FIFO of 16 takes an entry while it has room. -/
def fifoPut (q : List (Int × Nat × Bool)) (e : Int × Nat × Bool) : List (Int × Nat × Bool) := if q.length < 16 then q ++ [e] else q
/-- The captures that waited for a sample take their positions from it (R261). -/
def settleCap (pos : Nat → Int) (c : CapSt) : CapSt :=
  { c with fifo := c.wait.foldl (fun q e => fifoPut q (pos e.1, e.2)) c.fifo, wait := [] }
/-- The position a sample gives, measured or extrapolated: the interface has it from its instant on (R249, R253, R259, R261). -/
def moveSample (s : State) (x : Axis) (p : Int) (t : Nat) : State :=
  onAx s x (fun a =>
    let f := a.fb
    let at' := between (parX s x Par.fbDir == 1) (newPos f) p f.sampleAt t
    { a with fb := { moveFrom (newPos f) f with sample := some p, prevAt := f.sampleAt, sampleAt := t,
                                                cap0 := settleCap at' f.cap0, cap1 := settleCap at' f.cap1 } })
/-- A valid sample at an instant: it reaches the port at the next boundary and may be a qualified edge (R254, R255). -/
def takeSample (s : State) (x : Axis) (p : Int) (t : Nat) : State :=
  let grid := ((parX s x Par.fbSmpGrid).toNat : Int)
  let s1 := moveSample s x p t
  let s2 := match (getAx s1 x).fb.edgePos with
    | none => onAx s1 x (fun a => { a with fb.edgePos := some p })
    | some e =>
      let d := p - e
      if grid ≤ d.natAbs then
        let up := decide (0 < d)
        let n : Int := (d.natAbs : Int) / grid * grid
        qualEdge (onAx s1 x (fun a => { a with fb.edgePos := some (if up then e + n else e - n), fb.up := up })) x up (trunc8 s1 t)
      else s1
  emulate s2 x
/-- Quadrant of phi, from the signs of sin and cos codes (R249). -/
def quadrant (sin cos : Int) : Nat :=
  if 0 ≤ sin ∧ 0 < cos then 0 else if 0 < sin ∧ cos ≤ 0 then 1 else if sin ≤ 0 ∧ cos < 0 then 2 else 3
/-- Fraction and turns of R249 from the corrected quarter count and the fine count. -/
def sincosPos (s : State) (x : Axis) (q : Int) (f : Int) : Int :=
  let np := ((parX s x Par.fbScPeriods).toNat : Int)
  let per := q / 4
  per / np * revFrac + ((per % np * 1048576 + f) * 4096 + np - 1) / np
/-- The converter of a pair whose table holds the sin or cos channel; its first one where no table tells (R249, Table 6.1). -/
def scCv (s : State) (pair : Nat) : Nat :=
  let holds := fun (cv : Nat) => (getCv s cv).tables.any (fun t => (t.trig == 7 || t.trig == 8) && t.entries.any (fun e => entryChan e == 1))
  if !holds pair && holds (pair + 6) then pair + 6 else pair
/-- The fine count f of two codes (R249). -/
def scFine (sin cos : Int) : Int :=
  let p := atan2R (sin : Rat) (cos : Rat)
  let p := if p < 0 then p + 2 * piR else p
  roundEven (p / (2 * piR) * 1048576) % 1048576
/-- SINCOS_SAMPLE_EVENT (R249, R250), at t_b + FB_SC_DELAY of the period it is due in. -/
def execSincosSampleEvent (x : Axis) (sin cos : BitVec 16) (quarter : Int) (s : State) : Out :=
  let tick := (getAx s x).fb.scDue.getD 0 + nsTicks (parX s x Par.fbScDelay)
  let s0 := onAx (at_ s (tick / 4)) x (fun a => { a with fb.scDue := none })
  let f := (getAx s0 x).fb
  -- the pairs of SIN and COS (06 Table 6.1)
  let cvs := (match x with | .a => [2, 3] | .b => [4, 5]).map (scCv s)
  let sus := cvs.any (fun k => (getCv s k).suspect || !(getAx s (cvAxis k)).conv.refOk)
  let vs := (sin.toInt : Rat) * vRef s (cvs[0]?.getD 0) / 65536
  let vc := (cos.toInt : Rat) * vRef s (cvs[1]?.getD 0) / 65536
  let amp := fsqrtRat (vs * vs + vc * vc)
  let out := flt amp (parX s x Par.fbScAmin) || flt (parX s x Par.fbScAmax) amp
  let bad := out || sus
  let k : Int := (quadrant sin.toInt cos.toInt : Nat)
  let q := quarter + ((k - quarter % 4 + 2) % 4) - 2
  let s1 := onAx s0 x (fun a => { a with
    fb.sin := rd vs, fb.cos := rd vc, fb.amp := amp, fb.ampOut := out, fb.scRun := if bad then f.scRun + 1 else 0 })
  when_ s (fbRuns s x && parX s x Par.fbSrc == 3 && (getAx s x).fb.scDue.isSome)
    (if bad then
       let s2 := emulate (moveSample s1 x (extrapolate s0 x (tick / 4)) (tick / 4)) x
       let s3 := if out then raise s2 0x2904 (scopeOf x) noDetail amp false else s2
       if 3 ≤ f.scRun + 1 then fbStop s3 x 0x4913 else s3
     else takeSample (onAx s1 x (fun a => { a with fb.quarter := q })) x (sincosPos s x q (scFine sin.toInt cos.toInt)) (tick / 4))

/-- A serial source is placed (Table 11.1). -/
def serialSrc (s : State) (x : Axis) : Bool := parX s x Par.fbSrc == 4 || parX s x Par.fbSrc == 5
/-- SERIAL_FRAME_REQUEST (R251, Table 11.6), at t_b + FB_SER_DELAY of the period it is due in. -/
def execSerialFrameRequest (x : Axis) (datHigh : Bool) (s : State) : Out :=
  let at' := (getAx s x).fb.serDue.getD 0 / 4 + usNs (parX s x Par.fbSerDelay)
  let s0 := onAx (at_ s at') x (fun a => { a with fb.serDue := none })
  when_ s (fbRuns s x && serialSrc s x && (getAx s x).fb.serDue.isSome)
    (onAx s0 x (fun a =>
      if a.fb.serBusy then { a with fb.serLate := true }
      else { a with fb.serBusy := true, fb.serLate := false, fb.serDatHigh := datHigh, fb.serAt := at' }))

/-- One field word in use: KIND, WIDTH, ARG (Table 11.4). -/
def serFields (s : State) (x : Axis) : List (Nat × Nat × Nat) :=
  (((List.range 8).map (fun k => (parX s x (Par.fbSerField0 + k)).toNat)).takeWhile (fun w => w / 2 ^ 28 != 0)).map
    (fun w => (w / 2 ^ 28, w / 65536 % 256, w % 65536))
/-- Value of received bits: the first bit is the most significant one with FB_SER_CFG bit 0 set, else the least. -/
def bitsVal (msb : Bool) (bs : List Bool) : Nat :=
  (if msb then bs else bs.reverse).foldl (fun v b => 2 * v + (if b then 1 else 0)) 0
/-- Gray code to binary. -/
def grayVal (w : Nat) (v : Nat) : Nat := (List.range w).foldl (fun r k => r ^^^ (v >>> k)) 0
/-- The CRC register of R251 over bits, before inversion. -/
def serCrc (w poly init : Nat) (bs : List Bool) : Nat :=
  bs.foldl (fun c b =>
    let top := (c >>> (w - 1)) % 2
    let c' := (c * 2) % 2 ^ w
    if (top == 1) != b then c' ^^^ (poly % 2 ^ w) else c') init
/-- What a serial frame decodes to. -/
structure SerFrame where
  single : Option Nat := none
  singleW : Nat := 0
  turns : Option Int := none
  ok : Bool := true
  /-- Bits since the last start or acknowledge field. -/
  seen : List Bool := []
  rest : List Bool := []
deriving DecidableEq, Repr
/-- One field of the frame (Table 11.4). -/
def serField (s : State) (x : Axis) (started : Bool) (r : SerFrame) (fw : Nat × Nat × Nat) : SerFrame :=
  let cfg := parX s x Par.fbSerCfg
  let crc := parX s x Par.fbSerCrc
  let (kind, w, arg) := fw
  let bs := r.rest.take w
  let v := bitsVal (cfg.getLsbD 0) bs
  let g := if cfg.getLsbD 1 then grayVal w v else v
  let nx := { r with seen := r.seen ++ bs, rest := r.rest.drop w, ok := r.ok && bs.length == w }
  match kind with
  | 1 => { r with ok := r.ok && started, seen := [] }
  | 2 => { r with seen := [] }
  | 3 => { nx with single := some g, singleW := w }
  | 4 => { nx with turns := some (if cfg.getLsbD 2 ∧ 2 ^ (w - 1) ≤ g then (g : Int) - 2 ^ w else (g : Int)) }
  | 5 => { nx with ok := nx.ok && v &&& arg == 0 }
  | 6 =>
    let cw := (crc >>> 24).toNat
    let init := if crc.getLsbD 17 then 2 ^ cw - 1 else 0
    let c := serCrc cw (crc.toNat % 65536) init r.seen
    { nx with ok := nx.ok && v == (if crc.getLsbD 16 then 2 ^ cw - 1 - c else c) }
  | 8 => { nx with ok := nx.ok && v == arg }
  | _ => nx
/-- Position of a decoded frame (R251): turns from the multi-turn field, else counted on wrap from the last position. -/
def serPos (r : SerFrame) (last : Int) : Int :=
  let v : Int := (r.single.getD 0 : Nat)
  let frac := if r.singleW ≤ 32 then v * 2 ^ (32 - r.singleW) else v / 2 ^ (r.singleW - 32)
  match r.turns with
  | some t => t * revFrac + frac
  | none =>
    let p := last / revFrac * revFrac + frac
    if revFrac / 2 < p - last then p - revFrac else if p - last < -(revFrac / 2) then p + revFrac else p
/-- SERIAL_FRAME_END (R251, R253). -/
def execSerialFrameEnd (x : Axis) (started : Bool) (bits : List Bool) (t : Nat) (s : State) : Out :=
  let s0 := at_ s t
  let f := (getAx s0 x).fb
  let r := (serFields s x).foldl (serField s x started) { rest := bits }
  let at' := f.serAt + usNs (parX s x Par.fbSerLat)
  let p := serPos r (newPos f)
  let exp := extrapolate s0 x at'
  let lim := pf s x Par.fbJumpMax
  let jump := decide (lim ≠ 0) && f.valid && decide (lim < (((p - exp).natAbs : Nat) : Rat) * 2 * piR / 4294967296)
  let formBad := !f.serDatHigh || f.serLate || !r.ok || r.single.isNone
  let n := f.serRun + 1
  let jumps := (f.serRun == 0 || f.serJump) && !formBad && jump
  let bad0 := emulate (moveSample (onAx s0 x (fun a => { a with
    fb.serBusy := false, fb.serLate := false, fb.serBad := true, fb.serErr := f.serErr + 1, fb.serRun := n, fb.serJump := jumps }))
    x exp at') x
  let bad1 := raise0 bad0 0x2905 (scopeOf x) noDetail
  let good := onAx s0 x (fun a => { a with
    fb.serBusy := false, fb.serLate := false, fb.serBad := false, fb.serRun := 0, fb.serJump := true, fb.valid := true, fb.restored := false,
    fb.referenced := true })
  when_ s (fbRuns s x && serialSrc s x && f.serBusy)
    (if formBad || jump then
       if (parX s x Par.fbSerErrmax).toNat ≤ n then fbStop bad1 x (if jumps then 0x4915 else 0x4914) else bad1
     else takeSample good x p at')

/-- FB_STANDSTILL_TIMEOUT (R256). -/
def execFbStandstillTimeout (x : Axis) (s : State) : Out :=
  when_ s (fbRuns s x)
    (onAx s x (fun a => { a with fb.standstill := true, fb.inDir := 0, fb.speed := 0, fb.speedValid := false }))

/-! Compare and capture (R259 to R261). -/

/-- A compare unit. -/
def getCmp (f : FbSt) : CmpUnit → CmpSt | .u0 => f.cmp0 | .u1 => f.cmp1
def setCmp (f : FbSt) (u : CmpUnit) (c : CmpSt) : FbSt := match u with | .u0 => { f with cmp0 := c } | .u1 => { f with cmp1 := c }
/-- Parameter of a compare unit: unit 1 stands at an offset of 8 (R264). -/
def cmpPar (u : CmpUnit) (i : Nat) : Nat := match u with | .u0 => i | .u1 => i + 8
/-- Time of a FIFO entry (R259, R261): gPTP time to 8 ns, or local time flagged unsynchronised. -/
def fifoTime (s : State) (t : Int) : Nat × Bool :=
  if gptpOk s then (((t + s.net.ofs) / 8 * 8).toNat, false) else ((t / 8 * 8).toNat, true)
/-- The latest motion of the position crosses V of a unit in its armed direction (R259). -/
def crossed (s : State) (x : Axis) (c : CmpSt) (falling : Bool) : Bool :=
  let sgn := fun (p : Int) => if parX s x Par.fbDir == 1 then -p else p
  let p0 := sgn c.origin; let p1 := sgn (newPos (getAx s x).fb)
  if falling then decide (c.v < p0) && decide (p1 ≤ c.v) else decide (p0 < c.v) && decide (c.v ≤ p1)
/-- The instant of a crossing: of the count, or between two samples by linear interpolation (R259). -/
def crossAt (s : State) (x : Axis) (c : CmpSt) (t : Nat) : Nat :=
  let f := (getAx s x).fb
  let v := if parX s x Par.fbDir == 1 then -c.v else c.v
  let d := newPos f - c.origin
  if sampledSrc s x ∧ d ≠ 0 then f.prevAt + ((v - c.origin) * ((f.sampleAt - f.prevAt : Nat) : Int) / d).toNat else t
/-- The level of CMPOUT for the pulses of a unit at a stamp: active high, or low with CMP_CFG bit 2 (R259). -/
def cmpOut (s : State) (x : Axis) (u : CmpUnit) (t : Nat) : Bool :=
  let w := usNs (parX s x (cmpPar u Par.cmpPulse0))
  (getCmp (getAx s x).fb u).ends.any (fun e => decide (e - w ≤ t) && decide (t < e)) != (parX s x (cmpPar u Par.cmpCfg0)).getLsbD 2
/-- COMPARE_HIT (R259, R260): pulse, advance of V, count, disarm after CMP_N hits. -/
def execCompareHit (x : Axis) (u : CmpUnit) (t : Nat) (s : State) : Out :=
  let s0 := at_ s t
  let c := getCmp (getAx s0 x).fb u
  let now := crossAt s0 x c s0.clk.now
  let par := fun i => parX s x (cmpPar u i)
  let falling := (par Par.cmpCfg0).getLsbD 1
  let step : Int := ((par Par.cmpStep0).toNat : Int) * 4096
  let live := c.ends.filter (fun (e : Nat) => decide (now < e))
  let go := max (if sampledSrc s x then now + periodNs s x else now) ((live.getLast?).elim 0 (· + 100))
  let room := decide (live.length < 16)
  let hits := c.hits + 1
  let done' := par Par.cmpN0 != 0 && hits.toNat ≥ (par Par.cmpN0).toNat
  let ft := fifoTime s0 now
  let warn := !room && (match c.warnedAt with | some w => decide (w + 1000000000 ≤ now) | none => true)
  let c' : CmpSt := { c with
    v := if falling then c.v - step else c.v + step
    hits := hits
    armed := !done'
    ends := if room then live ++ [go + usNs (par Par.cmpPulse0)] else live
    ovr := if room then c.ovr else c.ovr + 1
    warnedAt := if warn then some now else c.warnedAt
    fifo := fifoPut c.fifo (c.v, ft.1, ft.2) }
  let s1 := onAx s0 x (fun a => { a with fb := setCmp a.fb u c' })
  let addr := parAddr x (cmpPar u Par.cmpCfg0)
  let off := fun (m : List (Nat × Word)) => parPut m addr (((mapGet m addr).getD 0) &&& ~~~1)
  let s2 := if done' then { s1 with par := off s1.par, inForce := off s1.inForce } else s1
  when_ s (fbRuns s x && c.armed && crossed s x c falling) (if warn then raise0 s2 0x2907 (scopeOf x) noDetail else s2)
/-- CAPTURE_EDGE (R261): the position of the sample of the edge, which for a sampled source the next sample gives. -/
def execCaptureEdge (x : Axis) (inp : CmpUnit) (rising : Bool) (t stableNs : Nat) (s : State) : Out :=
  let s0 := at_ s t
  let f := (getAx s0 x).fb
  let c := match inp with | .u0 => f.cap0 | .u1 => f.cap1
  let cfg := parX s x (match inp with | .u0 => Par.capCfg0 | .u1 => Par.capCfg1)
  let want := cfg.getLsbD (if rising then 0 else 1)
  let merged := match c.last with | some l => decide (s0.clk.now < l + 100) | none => false
  let ft := fifoTime s0 ((t : Int) - filtNs s x Par.capFilt)
  let full := decide (16 ≤ c.fifo.length + c.wait.length)
  let c' : CapSt :=
    if full then { c with last := some s0.clk.now }
    else if sampledSrc s x then { c with wait := c.wait ++ [(s0.clk.now - (filtNs s x Par.capFilt).toNat, ft.1, ft.2)], last := some s0.clk.now }
    else { c with fifo := c.fifo ++ [(srcPos s x, ft.1, ft.2)], last := some s0.clk.now }
  let s1 := onAx s0 x (fun a => { a with fb := match inp with | .u0 => { a.fb with cap0 := c' } | .u1 => { a.fb with cap1 := c' } })
  let half : BitVec 16 := match inp with | .u0 => f.capOvr.setWidth 16 | .u1 => (f.capOvr >>> 16).setWidth 16
  let ovr : Word := match inp with
    | .u0 => (f.capOvr &&& 0xFFFF0000) ||| (sat16 half).setWidth 32
    | .u1 => (f.capOvr &&& 0x0000FFFF) ||| ((sat16 half).setWidth 32 <<< 16)
  when_ s (fbRuns s x && filtPass (parX s x Par.capFilt) stableNs && want && !merged)
    (if full then raise0 (onAx s1 x (fun a => { a with fb.capOvr := ovr })) 0x2908 (scopeOf x) noDetail else s1)

end Sys2Proof.Machine
end

