-- ==== Sys2Proof/Machine/StateCmd.lean ====
section
/-!
DEFINITION. The state, fault, leg-service and setpoint commands (17 Table 17.5, classes 0x03 and 0x04).
-/

namespace Sys2Proof.Machine
open Sys2Proof

/-- STATE_GET (17 R360). -/
def execStateGet (h : Hdr) (s : State) : Out :=
  request s h 0x0301 .nothing none (fun _ =>
    .ok s ([pwrState s, axCode s.axes.a.start.ax, axCode s.axes.b.start.ax] ++ u8 (faultActiveN s) ++ u16 (faultTop s).toNat ++ [0, 0]))
/-- A requested move to READY, to HOLD or to STANDBY of Table 3.7; none where the table has no such move or its condition
fails (03 R53, R54). -/
def powerMove (s : State) (target : Nat) : Option State :=
  if anyRun s then none
  else match s.pwr.base, target with
    | .ready, 2 => some (enterHold s)
    | .ready, 1 => some (enterStandby (commitState s) false)
    | .hold, 1 => some (enterStandby (commitState s) false)
    | .hold, 3 => if s.pwr.noPlacement then none else some (toReady s)
    | _, _ => none
/-- PWR_REQ (03 R53). The move to STANDBY ends Thoevo with its outbox. -/
def execPwrReq (h : Hdr) (target : BitVec 8) (s : State) : Out :=
  request s h 0x0302 (.role 1) (firstBad [(decide (target.toNat = 0) || decide (3 < target.toNat), 0)]) (fun _ =>
    match powerMove s target.toNat with
    | none => .no 7 0x10 []
    | some t => if target = 1 then .later t else .ok t [])
/-- The result pair of one axis in an ENABLE reply (17 Table 17.5). -/
def enablePair (named : Bool) (refusal : Option Nat) : List Byte :=
  if !named then u16 0xFFFF ++ u16 0
  else match refusal with | none => u16 0 ++ u16 0 | some c => u16 7 ++ u16 c
/-- ENABLE (10 R222): axis A, then axis B; refused only when no named axis starts. -/
def execEnable (h : Hdr) (mask : BitVec 8) (s : State) : Out :=
  request s h 0x0303 (.role 1) (firstBad [(badMask mask 2, 0)]) (fun _ =>
    let nA := mask.getLsbD 0
    let nB := mask.getLsbD 1
    let rA := enableRefusal s .a
    let s1 := if nA then tryEnable s .a else s
    let rB := enableRefusal s1 .b
    let s2 := if nB then tryEnable s1 .b else s1
    let data := enablePair nA rA ++ enablePair nB rB
    if nA && rA.isNone || nB && rB.isNone then .ok s2 data
    else .fail s2 7 ((if nA then rA else rB).getD 0) data)
/-- DISABLE (10 R235): a ramp stop. -/
def execDisable (h : Hdr) (mask : BitVec 8) (s : State) : Out :=
  request s h 0x0304 (.role 1) (firstBad [(badMask mask 2, 0)]) (fun _ =>
    .ok ((maskAxes mask).foldl (fun t x => requestStop t x .ramp) s) [])
/-- QUICK_STOP (10 R235). -/
def execQuickStop (h : Hdr) (mask : BitVec 8) (s : State) : Out :=
  request s h 0x0305 (.role 1) (firstBad [(badMask mask 2, 0)]) (fun _ =>
    .ok ((maskAxes mask).foldl (fun t x => requestStop t x .quick) s) [])
/-- Scope bytes of a scope mask: drive, A, B (17 Table 17.5, 12 Table 12.7). -/
def maskScopes (m : BitVec 8) : List (BitVec 8) :=
  (if m.getLsbD 0 then [0] else []) ++ (if m.getLsbD 1 then [1] else []) ++ (if m.getLsbD 2 then [2] else [])
/-- A clear request with what a chopper test it runs leaves in BIST_STATUS (12 R271, R278; 21 Table 21.4). -/
def clearScopes (s : State) (scopes : List (BitVec 8)) (seen : Bool) : State :=
  let t := clearRequest s scopes seen
  if namesChop s scopes && vmTestable s && parD s Par.chopEn == 1 then
    { t with boot.bist := if seen then t.boot.bist &&& ~~~0x10 else t.boot.bist ||| 0x10 }
  else t
/-- FAULT_CLEAR (12 R271, R278): a chopper fault that stays refuses the request with FAULT_ACTIVE; otherwise the reply
lists the entries that stay. -/
def execFaultClear (h : Hdr) (scope : BitVec 8) (chopSeen : Bool) (s : State) : Out :=
  request s h 0x0306 (.role 1) (firstBad [(badMask scope 3, 0)]) (fun _ =>
    let t := clearScopes s (maskScopes scope) chopSeen
    let left := stays t (maskScopes scope)
    match left.find? (fun e => e.code == 0x3A04 || e.code == 0x5A03) with
    | some e => .fail t 0x30 e.code.toNat
    | none => .ok t (u8 left.length ++ [0, 0, 0] ++ left.flatMap (fun e => u16 e.code.toNat ++ [e.scope, e.detail])))
/-- FAULT_LIST (12 R276). -/
def execFaultList (h : Hdr) (s : State) : Out :=
  request s h 0x0307 (.role 1) none (fun _ =>
    .ok s (u8 s.flt.list.length ++ [0, 0, 0] ++ s.flt.list.flatMap (fun e =>
      u16 e.code.toNat ++ [e.scope, e.detail] ++ u8 (bit (latched e) 0) ++ u8 (bit e.active 0) ++ [0, 0] ++ u64 e.time.toNat)))
/-- The fields axis and leg of a request. -/
def badAxisLeg (axis leg : BitVec 8) : List (Bool × Nat) := [(decide (2 ≤ axis.toNat), 0), (decide (6 ≤ leg.toNat), 1)]
/-- Audit entry of a bypass mask (20 Table 20.8a). -/
def maskEntry (x : Axis) (old new : BitVec 6) : Nat × Nat × Word × Word := (16, axisNo x, old.setWidth 32, new.setWidth 32)
/-- LEG_SERVICE bypass (04 R81): the current share of the leg or star starts its ramp to zero. -/
def execLegServiceBypass (h : Hdr) (axis leg : BitVec 8) (s : State) : Out :=
  request s h 0x0308 (.role 2) (firstBad (badAxisLeg axis leg)) (fun role =>
    let x := axisOf axis.toNat
    let l := legOf leg.toNat
    let m := (getAx s x).stage.bypassMask
    if !mayRamp s x then .no 0x31 1 []
    else audited s role [maskEntry x m (m ||| (bitW (legNo l)).setWidth 6)] (fun t => .ok (startBypass t x l) []))
/-- A leg test passes (21 R437). -/
def legPass (s : State) (x : Axis) (l : Leg) (m : LegMeasure) : Bool :=
  decide (m.pulseMa ≤ 10000) && m.edges && decide (-500 ≤ m.offsetMa) && decide (m.offsetMa ≤ 500) && decide (5000 ≤ m.bootMv) &&
    (getSen s (legIdx x l).toNat).valid && m.cmpOk
/-- A leg test may run on an axis (21 R437): DISABLED, in READY, with VM between 36 V and 75 V and its gates supplied. -/
def legTestable (s : State) (x : Axis) : Bool :=
  isReady s && (getAx s x).start.ax == .disabled && !gatesOn (getAx s x) && vmTestable s
/-- The run of a leg test with its BIST bit (21 Table 21.4). -/
def legTested (s : State) (pass : Bool) : State :=
  { s with boot.bist := if pass then s.boot.bist &&& ~~~0x20 else s.boot.bist ||| 0x20 }
/-- LEG_SERVICE return (04 R82): the leg test passes, the mask bit clears. -/
def execLegServiceReturn (h : Hdr) (axis leg : BitVec 8) (m : LegMeasure) (s : State) : Out :=
  request s h 0x0308 (.role 2) (firstBad (badAxisLeg axis leg)) (fun role =>
    let x := axisOf axis.toNat
    let l := legOf leg.toNat
    let old := (getAx s x).stage.bypassMask
    let new := old &&& ~~~(bitW (legNo l)).setWidth 6
    if anyRun s || !legTestable s x || !old.getLsbD (legNo l) then .no 0x31 2 []
    else if !legPass s x l m then .fail (legTested s false) 0x31 2
    else audited s role [maskEntry x old new] (fun t =>
      let t1 := legTested (onAx t x (fun a => { a with stage.bypassMask := new })) true
      .ok (endCause t1 0x3205 (scopeOf x) (legIdx x l)) []))
/-- SW_TRIP (05 R109): Scarp sources 30 and 31. -/
def execSwTrip (h : Hdr) (mask : BitVec 8) (s : State) : Out :=
  request s h 0x0309 (.role 1) (firstBad [(badMask mask 2, 0)]) (fun _ =>
    .ok ((maskAxes mask).foldl (fun t x => scarpFire t (30 + axisNo x) noDetail) s) [])

/-! Setpoints (08 R190, R191; 10 R238). -/

/-- The axis has not accepted setpoints since it was last DISABLED: one that comes is kept (10 Table 10.11). -/
def keepsSp (a : AxisSt) : Bool := !a.sp.accepted && a.start.ax != .stopping && a.start.ax != .activeShort
/-- A mailbox-style setpoint of the owning source: applied at the first boundary that sees it, kept before acceptance, and
ignored after a stop began. -/
def giveSetpoint (s : State) (x : Axis) (p : Setpoint) : State :=
  onAx s x (fun a =>
    if a.sp.accepted then { a with sp.shadow := some p }
    else if keepsSp a then { a with sp.kept := some p }
    else a)
/-- The source that owns an axis's setpoints at this moment (08 R190). -/
def spOwner (s : State) (x : Axis) : Nat :=
  if (getAx s x).start.ax = .disabled then (storX s x Par.spSrc).toNat else (getAx s x).sp.src.toNat
/-- The setpoint a payload carries (17 Table 17.5). -/
def wordsSp (w : SpWords) : Setpoint :=
  if w.kind = 2 then { kind := 2, frac := w.w0, turns := w.w1, vff := w.w2, tff := w.w3 }
  else if w.kind = 1 then { kind := 1, value := w.w2, tff := w.w3 }
  else { kind := 0, value := w.w2 }
/-- Words a kind leaves unused, and the axis and kind fields (17 Table 17.5). -/
def badSp (w : SpWords) : Option Nat :=
  firstBad [(decide (2 ≤ w.axis.toNat), 0), (decide (3 ≤ w.kind.toNat), 1), (decide (w.kind.toNat < 2) && w.w0 != 0, 4),
    (decide (w.kind.toNat < 2) && w.w1 != 0, 8), (w.kind == 0 && w.w3 != 0, 16)]
/-- SP_SET (08 R190, R191). -/
def execSpSet (h : Hdr) (w : SpWords) (s : State) : Out :=
  request s h 0x0401 (.role 1) (badSp w) (fun _ =>
    let x := axisOf w.axis.toNat
    if spOwner s x != 0 then .no 8 w.axis.toNat []
    else if w.kind.toNat ≠ (storX s x Par.ctrlMode).toNat then .no 9 w.axis.toNat []
    else .ok (giveSetpoint s x (wordsSp w)) [])
/-- SP_GET (17 R360): the reference in force, in the layout of SP_SET. -/
def execSpGet (h : Hdr) (axis : BitVec 8) (s : State) : Out :=
  request s h 0x0402 (.role 1) (firstBad [(decide (2 ≤ axis.toNat), 0)]) (fun _ =>
    let p := (getAx s (axisOf axis.toNat)).sp.now
    .ok s ([axis, p.kind, 0, 0] ++
      (if p.kind = 2 then w32 p.frac ++ w32 p.turns ++ w32 p.vff ++ w32 p.tff
       else if p.kind = 1 then u32 0 ++ u32 0 ++ w32 p.value ++ w32 p.tff
       else u32 0 ++ u32 0 ++ w32 p.value ++ u32 0)))

end Sys2Proof.Machine
end

