-- ==== Sys2Proof/Machine/CalCmd.lean ====
section
/-!
DEFINITION. Calibration, motor identification and the angle-offset measurement (17 Table 17.6, class 0x05; 06 R139, R140;
09 R217 to R219; 11 R262).
-/

namespace Sys2Proof.Machine
open Sys2Proof

/-! Converter calibration (06 R139, R140). -/

/-- A calibration of converter cv is accepted (R139). -/
def calAccepted (s : State) (cv : Nat) : Bool :=
  let p := cvLeg cv
  let partner := getCv s ((cv + 6) % 12)
  isReady s && (!anyRun s || (getAx s p.1).stage.bypassMask.getLsbD (legNo p.2)) && !partner.suspect && !partner.outOfService
/-- Accept the converters of a mask in ascending order: a pair's lower converter leaves service first, so that its partner
waits for it (R139: CV0 to CV5 together, then CV6 to CV11). -/
def calPick (s : State) (mask : BitVec 12) : BitVec 12 :=
  (List.range 12).foldl (fun (m : BitVec 12) cv => if mask.getLsbD cv && calAccepted s cv then m ||| (bitW cv).setWidth 12 else m) 0
/-- The calibrations of a mask begin (R139): the converters without an accepted lower partner go out of service now, after an
urgent conversion that is pending on them; the others 1 ms later. -/
def calStart (s : State) (m : BitVec 12) : State :=
  let later := (m <<< 6) &&& m
  (List.range 12).foldl (fun t cv => if (m &&& ~~~later).getLsbD cv then calBegin t cv else t)
    { s with conv.calNext := later, conv.calAt := s.clk.now }
/-- CAL_CONV (R139). -/
def execCalConv (h : Hdr) (mask : BitVec 16) (s : State) : Out :=
  request s h 0x0501 (.role 2) (firstBad [(decide (mask.toNat = 0) || decide (4096 ≤ mask.toNat), 0)]) (fun _ =>
    let m := calPick s (mask.setWidth 12)
    if m = 0 then .no 0x31 0 []
    else .long (calStart s m) (.calConv (mask.setWidth 12) m))
/-- CRC-32 of a converter's calibration values (20 Table 20.8a). -/
def calCrc (v : CalVals) : Word := crc32 (w32 v.coreOfs ++ w32 v.coreGain ++ w32 v.shuntOfs ++ w32 v.shuntGain)
/-- A value beyond ± a limit. -/
def beyond (v : F32) (lim : Rat) : Bool := !fle (fabs v) (frnd lim)
/-- The samples of the shunt offset step span more than 100 mA: the step is abandoned (R140). The test is made first. -/
def calNoisy (m : CalMeasure) : Bool := !fle m.span (frnd (mkRat 1 10))
/-- The result of one converter: 0 pass, 1 limits, 2 offset noisy (R140). -/
def calResult (m : CalMeasure) : Nat :=
  if beyond m.coreOfs 256 || beyond m.coreGain (mkRat 2 100) || beyond m.shuntGain (mkRat 3 100) ||
    (!calNoisy m && beyond m.shuntOfs (mkRat 1 2)) then 1
  else if calNoisy m then 2
  else 0
/-- The values a converter holds after its calibration. -/
def calNew (old : CalVals) (m : CalMeasure) : CalVals :=
  if calResult m = 1 then old
  else { coreOfs := m.coreOfs, coreGain := m.coreGain, shuntGain := m.shuntGain,
         shuntOfs := if calResult m = 2 then old.shuntOfs else m.shuntOfs }
/-- One converter's calibration ends (R134, R140): marks, codes, CAL_COUNT of a completed one, and its work back where the
converter was out or its suspect mark clears. -/
def calEnd (role : Nat) (s : State) (p : Nat × CalMeasure) : State :=
  let cv := p.1
  let was := getCv s cv
  let new := calNew was.cal p.2
  let x := (cvLeg cv).1
  let r := calResult p.2
  let sus := r = 1 ∨ (was.suspect ∧ r ≠ 0)
  let s1 := if was.cal = new then s else auditAll s role [(15, cv, calCrc was.cal, calCrc new)]
  let s2 := onCv s1 cv (fun c => { c with outOfService := false, cal := new, calCount := if r = 0 then sat16 c.calCount else c.calCount,
                                          suspect := if r = 0 then false else c.suspect })
  let s3 := if (was.outOfService ∨ was.suspect) ∧ ¬sus then
      { s2 with cairn.pendingTr := s2.cairn.pendingTr ++ [(.converterBack (Fin.ofNat 12 cv), s2.clk.now)] } else s2
  let s4 := if calNoisy p.2 then raise0 s3 0x2407 (scopeOf x) (BitVec.ofNat 8 cv) else s3
  if r = 0 then endCause s4 0x440A (scopeOf x) (BitVec.ofNat 8 (cv % 6))
  else if r = 1 then raise0 (markSuspect s4 cv) 0x2408 (scopeOf x) (BitVec.ofNat 8 cv)
  else s4
/-- The measures a calibration stores need an audit entry that cannot be committed (20 R425). -/
def calBlocked (s : State) (ps : List (Nat × CalMeasure)) : Bool :=
  !s.nv.auditOk && ps.any (fun p => decide (calNew (getCv s p.1).cal p.2 ≠ (getCv s p.1).cal))
/-- Back in service with nothing stored. -/
def calBack (s : State) (cv : Nat) : State := if (getCv s cv).outOfService then cvBack s cv else s
/-- No phase of a calibration is left. -/
def calOver (s : State) : State := { s with conv.calWait := 0, conv.calNext := 0 }
/-- CAL_CONV_DONE (R140): the accepted converters in ascending order, one measurement each. -/
def execCalConvDone (m : List CalMeasure) (s0 : State) : Out :=
  let s := calOver (calTurn s0)
  match s.mbx.long with
  | some (.calConv asked acc, h) =>
    let cvs := (List.range 12).filter (fun (cv : Nat) => acc.getLsbD cv)
    let ps := cvs.zip m
    if calBlocked s ps then done s (endLong (cvs.foldl calBack s) 0x0501 h 0x31 0xFFFF [])
    else
      let t := ps.foldl (calEnd (max 2 (actsAs s h))) s
      let res := fun (cv : Nat) => match ps.find? (fun q => decide (q.1 = cv)) with
        | some q => calResult q.2
        | none => 3
      done s (endLong t 0x0501 h 0 0 ((List.range 12).flatMap (fun (cv : Nat) => u8 (if asked.getLsbD cv then res cv else 3))))
  | _ => skip s0

/-! Identification (09 R217 to R219). -/

/-- Identification and the angle measurement of an axis are accepted (09 R217). -/
def motorIdle (s : State) (x : Axis) : Bool :=
  isReady s && !anyRun s && !s.pwr.safe && hosted s x && (getAx s x).start.ax == .disabled &&
    (getAx s x).stage.bypassMask == 0 && (getAx s x).conv.refOk && vmTestable s && !tripped s x
/-- The axis runs in IDENT mode (R217): gates switch, times count from now. -/
def startIdent (s : State) (x : Axis) : State :=
  onAx s x (fun a => { armGates a with seq.written := .ident, start.t0 := s.clk.now,
                                       crest := clearFit { a.crest with th := 0, we := 0, conv := false, polarity := false, ident := {} } })
/-- IDENT (R217). -/
def execIdent (h : Hdr) (axis : BitVec 8) (s : State) : Out :=
  request s h 0x0502 (.role 2) (firstBad [(decide (2 ≤ axis.toNat), 0)]) (fun _ =>
    let x := axisOf axis.toNat
    if !motorIdle s x then .no 7 0x11 []
    else .long (onAx (startIdent s x) x (fun a => { a with crest.identStatus := 1 })) (.ident x))
/-- What motor identification measured (09 R218): leg ripple A peak-to-peak, the d-axis difference of the two reads
in °e, Rs, terminal L_d and L_q in µH, star inductances, ψ, the polarity value k, and whether the spin failed. -/
structure IdentMeasure where
  ripple : F32
  axisDiff : F32
  rs : F32
  ld : F32
  lq : F32
  ls : F32
  m : F32
  psi : F32
  k : F32
  spinFailed : Bool
deriving DecidableEq, Repr

/-- Terminal inductances L_d and L_q in µH of a fit (09 R198, R201, R218): the d-axis is the one of the smaller inductance,
unless the model says L_q < L_d. -/
def fitL (s : State) (x : Axis) (g11 g12 g22 : F32) : F32 × F32 :=
  let m := (fval g11 + fval g22) / 2; let d := (fval g11 - fval g22) / 2
  let r := fval (fsqrtRat (d * d + fval g12 * fval g12))
  let small := rd (1000000 / (m + r)); let large := rd (1000000 / (m - r))
  if termLq s x < termLd s x then (large, small) else (small, large)
/-- The d-axis of a fit in the stationary frame, rad, within a half turn (09 R201). -/
def axisAngle (g11 g12 g22 : F32) : Rat := angleR (rd (2 * fval g12)) (rd (fval g11 - fval g22)) / 2
/-- Difference of the d-axes of the two reads in °e, whole half turns dropped. -/
def axesDiffer (r : IdentRun) : F32 :=
  let d := axisAngle r.a11 r.a12 r.a22 - axisAngle r.b11 r.b12 r.b22
  rd (absR (d - piR * (roundEven (d / piR) : Int)) * 180 / piR)
/-- What the steps of an identification measured (R218). -/
def identMeasured (s : State) (x : Axis) : IdentMeasure :=
  let c := (getAx s x).crest
  let r := c.ident
  let half := fun (p q : F32) => rd ((fval p + fval q) / 2)
  let g11 := half r.a11 r.b11; let g12 := half r.a12 r.b12; let g22 := half r.a22 r.b22
  let l := fitL s x g11 g12 g22
  let ls := rd (1000000 / fval r.gStar)
  { ripple := r.ripple, axisDiff := axesDiffer r, rs := rd (fval r.eSum / fval r.iSum), ld := l.1, lq := l.2, ls := ls,
    m := rd (1000000 * 2 / (fval g11 + fval g22) - fval ls), psi := rd (fval r.fxSum / (r.fxN : Rat)),
    k := rd (polarityK c.gPlus c.gMinus), spinFailed := r.spinFail }
/-- A stored inductance of a terminal value: phase mode removes PHASE_LSIG / 2 (R218). -/
def motorL (s : State) (x : Axis) (l : F32) : F32 :=
  if dualStar s x then l else frnd (fval l - fval (storX s x Par.phaseLsig) / 2)
/-- A value fits the range of its parameter. -/
def inRange (i : Nat) (v : F32) : Bool := match parDef i with | some d => valueOk d v | none => false
/-- The parameters identification writes, with their values (R217). -/
def identVals (s : State) (x : Axis) (m : IdentMeasure) : List (Nat × F32) :=
  [(Par.motRs, m.rs), (Par.motLd, motorL s x m.ld), (Par.motLq, motorL s x m.lq)] ++
  (if dualStar s x then [(Par.motLs, m.ls), (Par.motM, m.m)] else []) ++
  (if parX s x Par.identSpin == 1 then [(Par.motPsi, m.psi)] else [])
/-- The first reason that stores nothing, in the order of the steps (R219). -/
def identFail (s : State) (x : Axis) (m : IdentMeasure) : Option Nat :=
  if flt (frnd (mkRat 21 2)) m.ripple then some 1
  else if flt (frnd 10) m.axisDiff then some 3
  else if !((identVals s x m).all (fun p => inRange p.1 p.2)) then some 4
  else if fval (fabs m.k) < pf s x Par.crestPolMin / 100 then some 5
  else if parX s x Par.identSpin == 1 && m.spinFailed then some 6
  else none
/-- A measured value goes to the working set and to the boot bank in MRAM (R218). -/
def keepMeasured (s : State) (x : Axis) (p : Nat × F32) : State :=
  let a := parAddr x p.1
  let s1 := storePar s a p.2
  { s1 with nv.banks := s1.nv.banks.modify s1.nv.bootBank (fun o => o.map (fun b => { b with vals := parPut b.vals a p.2 })) }
/-- Identification of an axis ended with a failure (R219). -/
def identFailed (s : State) (x : Axis) (h : Hdr) (r : Nat) : State :=
  endLong (raise0 (onAx s x (fun a => { a with crest.identStatus := BitVec.ofNat 8 (16 * r + 3) })) 0x2706 (scopeOf x) (BitVec.ofNat 8 r))
    0x0502 h 0x31 r []
/-- A measured value, or NaN. -/
def orNan (b : Bool) (v : F32) : List Byte := w32 (if b then v else fnan)
/-- IDENT_DONE (R218, R219), once the last step has ended. -/
def execIdentDone (s : State) : Out :=
  match s.mbx.long with
  | some (.ident x, h) =>
    let m := identMeasured s x
    let s0 := onAx s x motorOff
    if (getAx s x).crest.ident.step ≠ .ended then skip s
    else match identFail s x m with
    | some r => done s (identFailed s0 x h r)
    | none =>
      let vs := identVals s x m
      let es := (vs.filter (fun p => storX s x p.1 != p.2)).map (fun p => (1, parAddr x p.1, storX s x p.1, p.2))
      if !s.nv.auditOk && !es.isEmpty then done s (endLong (onAx s0 x (fun a => { a with crest.identStatus := 3 })) 0x0502 h 0x31 0xFFFF [])
      else
        let s1 := vs.foldl (fun t p => keepMeasured t x p) (auditAll s0 (max 2 (actsAs s h)) es)
        let low := termRatio (fval m.ld) (fval m.lq) < fval (storX s x Par.crestSalMin)
        if low then
          -- reason 2: the values are stored (Table 9.6)
          let s2 := raise0 s1 0x2701 (scopeOf x) noDetail
          done s (identFailed s2 x h 2)
        else
          done s (endLong (onAx s1 x (fun a => { a with crest.identStatus := 2 })) 0x0502 h 0 0
            ([2, 0, 0, 0] ++ w32 m.rs ++ w32 (motorL s x m.ld) ++ w32 (motorL s x m.lq) ++ orNan (dualStar s x) m.ls ++
              orNan (dualStar s x) m.m ++ orNan (parX s x Par.identSpin == 1) m.psi))
  | _ => skip s

/-! Angle offset (11 R262). -/

/-- ANGLE_OFS (11 R262). -/
def execAngleOfs (h : Hdr) (axis : BitVec 8) (s : State) : Out :=
  request s h 0x0503 (.role 2) (firstBad [(decide (2 ≤ axis.toNat), 0)]) (fun _ =>
    let x := axisOf axis.toNat
    let absolute := parX s x Par.fbSrc == 4 || parX s x Par.fbSrc == 5
    if !motorIdle s x || (absolute && !fbOk s x) then .no 7 0x11 []
    else .long (startIdent s x) (.angleOfs x))
/-- An angle in °e in [0, 360). -/
def deg360 (q : Rat) : F32 :=
  let d := frnd (q - 360 * ((q / 360).floor : Int))
  if ffinite d && fle 0 d && flt d 0x43B40000 then d else 0
/-- θ̂ of an angle measurement in rad: the rest read's with its polarity, or the angle of the alignment (11 R262). -/
def ofsAngle (s : State) (x : Axis) : Rat :=
  if storedSalient s x then fval (getAx s x).crest.th else fval (fdeg (parX s x Par.stAlignAng))
/-- ANGLE_OFS_DONE (11 R262), once its last step has ended: θ̂ against p × θ_m. -/
def execAngleOfsDone (s : State) : Out :=
  match s.mbx.long with
  | some (.angleOfs x, h) =>
    let s0 := onAx s x motorOff
    let sal := storedSalient s x
    let k := polarityK (getAx s x).crest.gPlus (getAx s x).crest.gMinus
    if (getAx s x).crest.ident.step ≠ .ended then skip s
    else if sal && decide (absR k < pf s x Par.crestPolMin / 100) then done s (endLong s0 0x0503 h 0x31 5 [])
    else
      let th := ofsAngle s x * 180 / piR
      let ofs := deg360 (th - polePairs s x * thetaM s x * 180 / piR)
      let halls := parX s x Par.fbHallUse == 1 || parX s x Par.fbSrc == 2
      let c : Rat := 60 * (((hallIdx (getAx s x).fb.hall).getD 0 : Nat) : Rat)
      let hofs := if halls then deg360 (th - (if parX s x Par.fbHallRev == 1 then -c else c)) else storX s x Par.fbHallOfs
      let vs := [(Par.fbAngleOfs, ofs)] ++ (if halls then [(Par.fbHallOfs, hofs)] else [])
      let es := (vs.filter (fun p => storX s x p.1 != p.2)).map (fun p => (1, parAddr x p.1, storX s x p.1, p.2))
      if !s.nv.auditOk && !es.isEmpty then done s (endLong s0 0x0503 h 0x31 0xFFFF [])
      else
        let s1 := vs.foldl (fun t p => storePar t (parAddr x p.1) p.2) (auditAll s0 (max 2 (actsAs s h)) es)
        done s (endLong s1 0x0503 h 0 0 (w32 ofs ++ w32 hofs))
  | _ => skip s

end Sys2Proof.Machine
end

