-- ==== Sys2Proof/Machine/Clock.lean ====
section
/-!
DEFINITION. Clocks, crossings and what a change of synchronisation does to the network lock (chapter 15; 05 Table 5.1;
18 R373).
-/

namespace Sys2Proof.Machine
open Sys2Proof

/-! Synchronisation (18 R373, 05 Table 5.1). -/

/-- The network lock of an axis when synchronisation comes: WAIT and HOLDOVER move to ACQUIRE. -/
def nlGain (s : State) (x : Axis) : State :=
  let n := (getAx s x).pwm.nl
  if n = .wait ∨ n = .holdover then onAx s x (fun a => { a with pwm.nl := .acquire, pwm.lockRun := 0, pwm.lossRun := 0 }) else s
/-- A gain of synchronisation, as slave or as grandmaster: INFO 0x1D02 (R373). -/
def gainSync (s : State) (g : GptpState) : State :=
  if gptpOk s then { s with net.gptp := g }
  else bothAxes.foldl nlGain (raise0 { s with net.gptp := g } 0x1D02 0 noDetail)

/-! Clock faults (R316). -/

/-- DETAIL of a PLL or DLL in 0x5002 (Table 15.2). -/
def pllNo : Pll → Nat | .pll0 => 0 | .pll1 => 1 | .pll2 => 2 | .dllA => 3 | .dllB => 4
/-- XTAL_LOSS (R316): the reference changes to the RC oscillator until the next boot; backbone and CAN stop, and the
network lock leaves LOCKED with the synchronisation. The axes keep running. -/
def execXtalLoss (s : State) : Out :=
  when_ s (thoevoUp s && s.clk.extRef)
    (loseSync (raise0 (netOff { s with clk.extRef := false, clk.xtal := false, can.on := false }) 0x2001 0 noDetail))
/-- PLL_LOCK_LOSS (R316): TRIP 0x5002 and the software trips of both axes with 0x5313. -/
def execPllLockLoss (p : Pll) (s : State) : Out :=
  let s1 := raise1 { s with clk.unlocked := s.clk.unlocked ||| (bitW (pllNo p)).setWidth 5 } 0x5002 0 (BitVec.ofNat 8 (pllNo p))
  when_ s (thoevoUp s && !s.clk.unlocked.getLsbD (pllNo p)) (scarpFire (scarpFire s1 30 noDetail) 31 noDetail)
/-- PLL_RELOCK (R316): lock is back; 0x5002 is clearable once every lock has held for 10 ms. -/
def execPllRelock (p : Pll) (s : State) : Out :=
  let u := s.clk.unlocked &&& ~~~((bitW (pllNo p)).setWidth 5)
  when_ s (s.clk.unlocked.getLsbD (pllNo p))
    (endCause { s with clk.unlocked := u, clk.lockAt := s.clk.now } 0x5002 0 (BitVec.ofNat 8 (pllNo p)))
/-- PLL_RELOCK_TIMEOUT (R316): Summit resets the drive, source 3 (21 Table 21.1). A PLL that does not lock in a boot ends it the
same way (21 Table 21.2). -/
def execPllRelockTimeout (s : State) : Out :=
  when_ s ((s.clk.unlocked != 0 || s.pwr.boot.isSome) && !s.sum.pfCommit) (startBoot { s with clk.unlocked := 0 } 3)

/-! Col cells (R320, R323). -/

/-- Bit of a cell in the sticky flags and its DETAIL in 0x2003 (R320; the numbering is the model's). -/
def cellNo : ColCell → Nat | .heartbeatA => 0 | .heartbeatB => 1 | .encA => 2 | .encB => 3
/-- EVENT_CELL_OVERFLOW (R320): sticky flag and WARN 0x2003 naming the cell. -/
def execEventCellOverflow (cell : ColCell) (s : State) : Out :=
  when_ s (thoevoUp s)
    (raise0 { s with clk.colFlags := s.clk.colFlags ||| bitW (cellNo cell) } 0x2003 0 (BitVec.ofNat 8 (cellNo cell)))
/-- Index of an island. -/
def islandNo : Island → Nat
  | .sys => 0 | .rga => 1 | .rgb => 2 | .cva => 3 | .cvb => 4 | .net => 5 | .enc => 6 | .gda => 7 | .gdb => 8 | .xsp => 9
/-- An island is gated or unpowered (R315, Table 15.3). -/
def islandOff (s : State) (i : Island) : Bool :=
  if s.pwr.base == .ready then
    match i with
    | .rga => !(s.axes.a.seq.host == some .rga || s.axes.b.seq.host == some .rga)
    | .rgb => !(s.axes.a.seq.host == some .rgb || s.axes.b.seq.host == some .rgb)
    | .net => !s.net.on
    | _ => false
  else if s.pwr.base == .hold then
    match i with
    | .cva => false | .cvb => false | .net => !s.net.on | _ => true
  else true
/-- ISLAND_WAKE (R323): the island's clock starts, its domain powers up, and the word its cell holds is delivered. -/
def execIslandWake (i : Island) (s : State) : Out :=
  when_ s (s.sum.on && islandOff s i && !s.clk.woken.getLsbD (islandNo i))
    { s with clk.woken := s.clk.woken ||| (bitW (islandNo i)).setWidth 10 }

end Sys2Proof.Machine
end

