-- ==== Sys2Proof/Machine/Ridge.lean ====
section
/-!
DEFINITION. Heartbeat, bank arming, hand-over and engine self-test (01 R17; 07 R161, R164, R170).
-/

namespace Sys2Proof.Machine
open Sys2Proof

/-- An engine sees the heartbeat count: not through a cell whose overflow flag is set (15 R320). -/
def seeHeartbeat (s : State) (e : Engine) : State :=
  if s.clk.colFlags.getLsbD (engNo e) then s else onEng s e (fun g => { g with heartbeat := s.clk.heartbeat })

/-- HEARTBEAT_WRITE (01 R17): the count crosses to both sequencers. Twenty intervals of at most 500 µs after a loss make
the 10 ms of 12 Table 12.6 (log 20). -/
def execHeartbeatWrite (s : State) : Out :=
  let n := s.clk.heartbeatRun + 1
  let s1 := { s with clk.heartbeat := s.clk.heartbeat + 1, clk.heartbeatRun := min n 21, clk.heartbeatOk := decide (21 ≤ n) }
  when_ s (thoevoUp s) (seeHeartbeat (seeHeartbeat s1 .rga) .rgb)

/-- Supervisor loss on one axis (01 R17; 10 Table 10.9): HB_LOSS, STOP 0x4A06, brake output off at once. -/
def loseSupervisor (s : State) (x : Axis) : State :=
  let s1 := raise1 (onAx s x (fun a => { a with seq.hbLoss := true })) 0x4A06 (scopeOf x) noDetail
  onAx s1 x brakeOff

/-- HEARTBEAT_TIMEOUT (01 R17): 1 ms without a change of the count while an axis is in RUN. -/
def execHeartbeatTimeout (e : Engine) (s : State) : Out :=
  let s1 := { s with clk.heartbeatRun := 0, clk.heartbeatOk := false }
  when_ s (anyRun s && !(hostedOn s e).isEmpty) ((hostedOn s e).foldl loseSupervisor s1)

/-- Both swaps of a hand-over wait: its copy begins, unless a chain of the axis is still to end (R164). -/
def copyDue (s : State) : State :=
  match s.ridge.handover with
  | some x =>
    let q := (getAx s x).seq
    if s.ridge.rga.swapPending && s.ridge.rgb.swapPending && !q.chainBusy && !q.chainQueued then { s with ridge.copyPending := true }
    else s
  | none => s

/-- BANK_ARM_CHECK (R161): an accepted bank waits for its lead axis's boundary, or is active at once when that axis runs
no timebase; a refused one leaves the placement in force, and the arm of its other engine is withdrawn (log 21). -/
def execBankArmCheck (e : Engine) (s : State) : Out :=
  let ok := bankOk (inactiveBank s e)
  -- a newly armed bank is what makes 0x4502 clearable (12 Table 12.6)
  let s0 := endCause (endCause s 0x4502 1 (BitVec.ofNat 8 (engNo e))) 0x4502 2 (BitVec.ofNat 8 (engNo e))
  let s1 := onEng s0 e (fun g => { g with armed := false, swapPending := true })
  let bad := onEng s e (fun g => { g with armed := false, bankBad := true })
  let bad2 := onEng { bad with cairn.arming := none, ridge.handover := none } (otherEng e) (fun g => { g with armed := false, swapPending := false })
  when_ s (getEng s e).armed
    (if !ok then bad2
     else if (getAx s (leadAxis s1 e)).pwm.running then copyDue s1
     else finishSwap (swapEngine s1 e))

/-- HANDOVER_COPY_DONE (R164): the axis's block stands in the destination engine; a chain that waited for it starts. -/
def execHandoverCopyDone (x : Axis) (s : State) : Out :=
  let e := ((getAx s x).seq.host).getD .rga
  -- before the swap the host is the source; after it, the destination
  let src := if s.ridge.handover == some x then e else otherEng e
  let lo := axisNo x * 512
  let mine := (getEng s src).file.filter (fun p => p.1 / 512 == axisNo x)
  let other := (getEng s (otherEng src)).file.filter (fun p => p.1 / 512 != axisNo x)
  let file := if lo = 0 then mine ++ other else other ++ mine
  let s1 := onEng { s with ridge.copyPending := false } (otherEng src) (fun g => { g with file := file })
  when_ s s.ridge.copyPending
    (onAx s1 x (fun a => if a.seq.chainQueued then { a with seq.chainQueued := false, seq.chainBusy := true } else a))

/-- RG_SELFTEST_TICK (R170): one engine per RG_TEST_PERIOD, alternating. -/
def execRgSelftestTick (s : State) : Out :=
  when_ s (isReady s && parD s Par.rgTestPeriod != 0 && !swapBusy s && !s.ridge.rga.underTest && !s.ridge.rgb.underTest)
    (startEngineTest s s.ridge.nextTest)

/-- The reply to RG_TEST (17 Table 17.9): 0 pass, 1 fail, 2 skipped. -/
def replyRgTest (s : State) (result : Nat) : State :=
  match s.mbx.rgTest with
  | none => s
  | some (_, h) =>
    let m := mkReply 0x0807 h 0 0 (u8 result ++ [0, 0, 0])
    sendMsg (keepReply { s with mbx.rgTest := none } 0x0807 h m) h.tr m

/-- RG_TEST_DONE (R170): the signature decides; a pass restores the placement by hand-over. -/
def execRgTestDone (e : Engine) (signature : BitVec 32) (s : State) : Out :=
  let pass := signature == Config.rgSignature
  let s0 := { s with boot.bist := if pass then s.boot.bist &&& ~~~0x2 else s.boot.bist ||| 0x2 }
  let s1 := onEng s0 e (fun g => { g with underTest := false, failed := g.failed || !pass })
  when_ s ((getEng s e).underTest && (hostedOn s e).isEmpty)
    (if pass then replyRgTest (nextHandover s1) 0
     else replyRgTest (raise0 { s1 with
       ridge.testMoved := [], cairn.pendingTr := s1.cairn.pendingTr ++ [(.engineFailed e, s.clk.now)] } 0x2503 0 (BitVec.ofNat 8 (engNo e))) 1)

end Sys2Proof.Machine
end

