-- ==== Sys2Proof/Machine/Diag.lean ====
section
/-!
DEFINITION. The log and diagnostics commands (17 Table 17.7, classes 0x07 and 0x08) and the record streams (14 R302).
-/

namespace Sys2Proof.Machine
open Sys2Proof

/-! Logs (12 R282, 20 R425). -/

/-- A fault-log entry as bytes (12 Table 12.7). -/
def logBytes (e : LogEntry) : List Byte :=
  w32 e.seq ++ u64 e.time.toNat ++ u16 e.code.toNat ++ [e.event, e.scope, e.detail, e.pwr, e.axsA, e.axsB] ++ w32 e.vm ++ w32 e.value ++
    u16 e.boot.toNat ++ u16 e.repeats.toNat
/-- Numbers missing from a rising run: entries that failed their tag. -/
def missing : List Nat → Nat
  | [] => 0
  | [_] => 0
  | a :: b :: l => (b - a - 1) + missing (b :: l)
/-- LOG_READ (12 R282): entries from a SEQ on, those still to be written included. -/
def execLogRead (h : Hdr) (from_ : BitVec 32) (max : BitVec 8) (s : State) : Out :=
  request s h 0x0701 (.role 1) (firstBad [(badCount max.toNat 127, 4)]) (fun _ =>
    let l := ((s.nv.log ++ s.flt.logPending).filter (fun e => decide (from_.toNat ≤ e.seq.toNat))).take max.toNat
    .ok s (u8 l.length ++ u8 (missing (l.map (fun (e : LogEntry) => e.seq.toNat))) ++ [0, 0] ++ l.flatMap logBytes))
/-- LOG_ERASE (12 R282): SEQ goes on counting. -/
def execLogErase (h : Hdr) (s : State) : Out :=
  request s h 0x0702 (.role 2) none (fun role =>
    audited s role [(11, 0, 0, 0)] (fun t => .ok { t with nv.log := [], flt.logPending := [] } []))
/-- An audit entry as bytes (20 Table 20.8a). -/
def auditBytes (e : AuditEntry) : List Byte :=
  w32 e.seq ++ u64 e.time.toNat ++ [e.role, e.kind] ++ u16 e.object.toNat ++ w32 e.old ++ w32 e.new
/-- AUDIT_READ (20 R425): entries from a ring index on, to the newest. -/
def execAuditRead (h : Hdr) (index : BitVec 16) (max : BitVec 8) (s : State) : Out :=
  request s h 0x0703 (.role 1) (firstBad [(decide (4096 ≤ index.toNat), 0), (badCount max.toNat 120, 2)]) (fun _ =>
    let l := (s.nv.audit.dropWhile (fun e => e.seq.toNat % 4096 != index.toNat)).take max.toNat
    .ok s (u8 l.length ++ u8 (missing (l.map (fun (e : AuditEntry) => e.seq.toNat))) ++ u16 (s.nv.auditSeq.toNat % 4096) ++ l.flatMap auditBytes))

/-! Compare and capture FIFOs (11 R259, R261). -/

/-- FIFO of a unit of FIFO_READ: 0 and 1 compare, 2 and 3 capture. -/
def unitFifo (a : AxisSt) (u : Nat) : List (Int × Nat × Bool) :=
  if u = 0 then a.fb.cmp0.fifo else if u = 1 then a.fb.cmp1.fifo else if u = 2 then a.fb.cap0.fifo else a.fb.cap1.fifo
/-- The FIFO without its first n entries. -/
def dropFifo (u n : Nat) (a : AxisSt) : AxisSt :=
  if u = 0 then { a with fb.cmp0.fifo := a.fb.cmp0.fifo.drop n }
  else if u = 1 then { a with fb.cmp1.fifo := a.fb.cmp1.fifo.drop n }
  else if u = 2 then { a with fb.cap0.fifo := a.fb.cap0.fifo.drop n }
  else { a with fb.cap1.fifo := a.fb.cap1.fifo.drop n }
/-- An entry as bytes: fraction, turns, time with bit 63 for unsynchronised. -/
def fifoBytes (e : Int × Nat × Bool) : List Byte :=
  u32 (e.1 % 4294967296).toNat ++ w32 (BitVec.ofInt 32 (e.1 / 4294967296)) ++ u64 (e.2.1 % 2 ^ 63 + (if e.2.2 then 2 ^ 63 else 0))
/-- FIFO_READ (11 R259, R261): entries read leave the FIFO. -/
def execFifoRead (h : Hdr) (axis unit max : BitVec 8) (s : State) : Out :=
  request s h 0x0704 (.role 1) (firstBad [(decide (2 ≤ axis.toNat), 0), (decide (4 ≤ unit.toNat), 1), (badCount max.toNat 16, 2)]) (fun _ =>
    let x := axisOf axis.toNat
    let l := (unitFifo (getAx s x) unit.toNat).take max.toNat
    .ok (onAx s x (dropFifo unit.toNat l.length)) (u8 l.length ++ [0, 0, 0] ++ l.flatMap fifoBytes))

/-! Streams (14 R302). -/

/-- The placed stream of a number. -/
def placedStream (s : State) (n : Nat) : Option StreamPlace :=
  s.cairn.active.bind (fun p => p.streams.find? (fun q => q.stream == n))
/-- A record was lost with its block. -/
def lostRec (r : Nat × List (BitVec 32)) : Bool := r.2.isEmpty
/-- Records of a stream from a number on: the number of the first one there is, and the run that follows it. -/
def streamFrom (t : StreamSt) (from_ : Nat) : Nat × List (Nat × List (BitVec 32)) :=
  let start := Nat.max from_ t.base
  let tail := t.recs.drop (start - t.base)
  let gone := (tail.takeWhile lostRec).length
  (start + gone, (tail.drop gone).takeWhile (fun r => !lostRec r))
/-- STREAM_READ (14 R302): as many whole records as asked for and as a reply carries. -/
def execStreamRead (h : Hdr) (stream : BitVec 8) (from_ : BitVec 32) (max : BitVec 16) (s : State) : Out :=
  request s h 0x0705 (.role 1) none (fun _ =>
    match placedStream s stream.toNat with
    | none => .no 0x31 1 []
    | some q =>
      let r := streamFrom ((s.cairn.streams[stream.toNat]?).getD {}) from_.toNat
      let room := (4084 - 8) / (8 + 4 * q.params.length)
      let l := r.2.take (min max.toNat room)
      .ok s (u16 l.length ++ [0, 0] ++ u32 r.1 ++ l.flatMap (fun e => u64 e.1 ++ e.2.flatMap w32)))
/-- Bytes of a record of a placed stream (14 R297). -/
def placedBytes (q : StreamPlace) : Nat := recBytes q.params.length
/-- Records a stream's span keeps. -/
def streamKeeps (q : StreamPlace) : Nat := max 1 (fval q.span * fval q.rate).floor.toNat
/-- One record taken: the ring keeps the newest; an MRAM block fills at 4 KiB. -/
def addRecord (q : StreamPlace) (r : Nat × List (BitVec 32)) (t : StreamSt) : StreamSt :=
  let l := t.recs ++ [r]
  let surplus := l.length - streamKeeps q
  let n := t.openN + 1
  { t with recs := l.drop surplus, base := t.base + surplus, openN := if q.dest = .mram ∧ (n + 1) * placedBytes q ≤ 4096 then n else 0 }
/-- Change one stream. -/
def onStream (s : State) (n : Nat) (f : StreamSt → StreamSt) : State := { s with cairn.streams := s.cairn.streams.modify n f }
/-- A record is dropped: counted, WARN 0x2C04 at most once per second per stream (Table 14.5). -/
def dropRecord (s : State) (n : Nat) : State :=
  let t := (s.cairn.streams[n]?).getD {}
  let quiet := match t.warnedAt with | some w => decide (s.clk.now < w + 1000000000) | none => false
  let s1 := onStream { s with cairn.streamDrop := s.cairn.streamDrop + 1 } n (fun t =>
    { t with lost := t.lost + 1, warnedAt := if quiet then t.warnedAt else some s.clk.now })
  if quiet then s1 else raise0 s1 0x2C04 0 (BitVec.ofNat 8 n)
/-- First flash address of a stream's ring: rings follow one another from 0x70000 in stream order (19 Table 19.2; log 45). -/
def ringBase (s : State) (n : Nat) : Nat :=
  match s.cairn.active with
  | some p => 0x70000 + (p.streams.filter (fun q => q.dest == .flash && decide (q.stream < n))).foldl
      (fun (b : Nat) q => b + ((streamKeeps q * placedBytes q) / 65536 + 2) * 65536) 0
  | none => 0x70000
/-- A flash ring erases the block ahead when its write pointer enters a new one (19 R404). -/
def eraseAhead (s : State) (q : StreamPlace) : State :=
  let t := (s.cairn.streams[q.stream]?).getD {}
  let total := t.base + t.recs.length
  let blocks := (streamKeeps q * placedBytes q) / 65536 + 2
  let before := (total - 1) * placedBytes q / 65536
  let now := total * placedBytes q / 65536
  if before = now then s else eraseBlock s (ringBase s q.stream + ((now + 1) % blocks) * 65536) 65536
/-- STREAM_RECORD_TICK (14 R302, R308, R311): a record is taken and written, or dropped and counted; at the die limit every
second record is dropped without being counted. -/
def execStreamRecordTick (stream : Fin 16) (fate : RecordFate) (s : State) : Out :=
  match placedStream s stream.val with
  | none => skip s
  | some q =>
    let n := stream.val
    let s0 := onStream s n (fun t => { t with ticks := t.ticks + 1 })
    let halve := s.th.halved && decide (((s.cairn.streams[n]?).getD {}).ticks % 2 = 1)
    let noFlash := q.dest == .flash && (s.cairn.suspended || !flashLive s)
    let r := ((stamp s).toNat, q.params.map (fun (i : BitVec 16) => parValue s i.toNat))
    let wrote := onStream s0 n (addRecord q r)
    when_ s (thoevoUp s)
      (if halve then s0
       else if noFlash || fate != .written then dropRecord s0 n
       else if q.dest == .flash then eraseAhead wrote q
       else wrote)

/-! Counters and Scarp (17 R361; 05 R103, R115). -/

/-- Position of the first unknown id. -/
def badId (ids : List (BitVec 16)) : Option Nat := ids.findIdx? (fun i => !cntKnown i)
/-- CNT_READ (17 R361). -/
def execCntRead (h : Hdr) (ids : List (BitVec 16)) (s : State) : Out :=
  request s h 0x0801 (.role 1) (firstBad [(badCount ids.length 64, 0)]) (fun _ =>
    match badId ids with
    | some k => .no 0x31 k []
    | none => .ok s (ids.flatMap (fun (i : BitVec 16) => w32 (cntValue s i))))
/-- CNT_CLEAR (17 R361). -/
def execCntClear (h : Hdr) (ids : List (BitVec 16)) (s : State) : Out :=
  request s h 0x0802 (.role 1) (firstBad [(badCount ids.length 64, 0)]) (fun _ =>
    match badId ids with
    | some k => .no 0x31 k []
    | none => .ok (ids.foldl cntZero s) [])
/-- CMP_RAW (05 R103). -/
def execCmpRaw (h : Hdr) (s : State) : Out :=
  request s h 0x0803 (.role 1) none (fun _ => .ok s (w32 (s.scarp.raw &&& 0xFFFFFF)))
/-- CMP_TEST (05 R115; 21 Table 21.4): each named comparator once, in order; the reply names those that fail. -/
def execCmpTest (h : Hdr) (mask : BitVec 32) (fails : BitVec 24) (s : State) : Out :=
  request s h 0x0804 (.role 1) (firstBad [(decide (0x1000000 ≤ mask.toNat), 0)]) (fun _ =>
    let named := (List.range 24).filter (fun (n : Nat) => mask.getLsbD n)
    let bad := mask &&& fails.setWidth 32
    let t := named.foldl (cmpTested (fun n => fails.getLsbD n)) s
    .ok { t with boot.bist := if named.isEmpty || bad != 0 then t.boot.bist else t.boot.bist &&& ~~~0x8 } (w32 bad))
/-- CHOP_TEST (12 R271). -/
def execChopTest (h : Hdr) (seen : Bool) (s : State) : Out :=
  request s h 0x0805 (.role 2) none (fun _ =>
    if !vmTestable s then .no 0x31 1 []
    else if parD s Par.chopEn != 1 then .no 0x31 3 []
    else
      let t := chopTested s seen
      .ok t (u8 (if seen then 0 else 1) ++ [0, 0, 0]))
/-- LEG_TEST (21 R437). -/
def execLegTest (h : Hdr) (axis leg : BitVec 8) (m : LegMeasure) (s : State) : Out :=
  request s h 0x0806 (.role 2) (firstBad (badAxisLeg axis leg)) (fun _ =>
    let x := axisOf axis.toNat
    if !legTestable s x then .no 7 0x11 []
    else
      let pass := legPass s x (legOf leg.toNat) m
      .ok (legTested s pass) (u8 (if pass then 0 else 1) ++ [0, 0, 0]))
/-- Engine of an index. -/
def engOf (n : Nat) : Engine := if n = 0 then .rga else .rgb
/-- RG_TEST (07 R170): the reply follows the test; a skipped one is answered at once. -/
def execRgTest (h : Hdr) (engine : BitVec 8) (s : State) : Out :=
  request s h 0x0807 (.role 2) (firstBad [(decide (2 ≤ engine.toNat), 0)]) (fun _ =>
    let e := engOf engine.toNat
    if !isReady s || swapBusy s || s.ridge.rga.underTest || s.ridge.rgb.underTest || s.mbx.rgTest.isSome then .no 7 0x11 []
    else if !testFits s e then .ok { s with ridge.testSkipped := true } [2, 0, 0, 0]
    else .later { startEngineTest s e with mbx.rgTest := some (e, h) })
/-- COL_FLAGS (15 R320): read before the clear. -/
def execColFlags (h : Hdr) (clear : BitVec 8) (s : State) : Out :=
  request s h 0x0808 (.role (if clear.getLsbD 0 then 2 else 1)) (firstBad [(decide (2 ≤ clear.toNat), 0)]) (fun _ =>
    .ok (if clear.getLsbD 0 then { s with clk.colFlags := 0 } else s) (w32 s.clk.colFlags))
/-- CONV_ONCE (06 R129, Table 6.7): one urgent conversion; refused when the slot or the converter drops it. -/
def execConvOnce (h : Hdr) (converter channel : BitVec 8) (code : BitVec 16) (s : State) : Out :=
  request s h 0x0809 (.role 2) (firstBad [(decide (12 ≤ converter.toNat), 0), (decide (10 ≤ channel.toNat), 1)]) (fun _ =>
    let cv := converter.toNat
    let ch := Fin.ofNat 10 channel.toNat
    let c := getCv s cv
    let t := urgentNow s cv ch
    if c.outOfService || c.urgent.isSome then .fail t 0x31 1
    else
      -- the drive is idle between commands: no diode temperature comes with a single conversion (log 126)
      let k := chanIdx cv ch.val
      let diode := decide (1 ≤ ch.val ∧ ch.val ≤ 8) && (decide (k % 8 = 3 ∨ k % 8 = 4) || [37, 7, 15].contains k)
      let degC := if diode then (s.conv.si[k]?.map (·.1)).getD 0 else 0
      let u := takeResult t cv ch code degC true
      .ok u (w32 (getCv u cv).urgentResult))
/-- TEST_ACCESS (20 R424). -/
def execTestAccess (h : Hdr) (opened : BitVec 8) (s : State) : Out :=
  request s h 0x080A (.role 3) (firstBad [(decide (2 ≤ opened.toNat), 0)]) (fun _ =>
    if (installerOpt s).getLsbD 0 then .no 0x31 1 []
    else .ok { s with otp.testOpen := opened.getLsbD 0 } [])

end Sys2Proof.Machine
end

