-- ==== Sys2Proof/Machine/NetCmd.lean ====
section
/-!
DEFINITION. The network commands (17 Table 17.8, class 0x0C; 21 R438).
-/

namespace Sys2Proof.Machine
open Sys2Proof

/-- An external port of the switch. -/
def getPort (s : State) : Port → PortSt | .rmii1 => s.net.rmii1 | .rmii2 => s.net.rmii2 | .t1s => s.net.t1s
/-- Change an external port. -/
def onPort (s : State) (p : Port) (f : PortSt → PortSt) : State :=
  match p with
  | .rmii1 => { s with net.rmii1 := f s.net.rmii1 }
  | .rmii2 => { s with net.rmii2 := f s.net.rmii2 }
  | .t1s => { s with net.t1s := f s.net.t1s }
/-- Index of a port: DETAIL of 0x1D01 and bit of a port mask (18 Table 18.10, R363). -/
def portNo : Port → Nat | .rmii1 => 0 | .rmii2 => 1 | .t1s => 2
/-- The external ports in order. -/
def allPorts : List Port := [.rmii1, .rmii2, .t1s]
/-- A signed number as f32, rounded once. -/
def intF32 (n : Int) : F32 := frnd (n : Rat)
/-- NET_STATUS (17 R360). -/
def execNetStatus (h : Hdr) (s : State) : Out :=
  request s h 0x0C01 (.role 1) none (fun _ =>
    let delay := match s.net.slave with | some p => (getPort s p).pathDelay | none => 0
    .ok s (u8 (bitsOf (allPorts.map (fun p => (getPort s p).up))) ++
      [Config.plcaCode (parD s Par.t1sPlcaId == 255) s.net.csmaFallback s.net.beacon] ++ u8 (bit (gptpOk s) 0) ++ [0] ++
      w32 (intF32 delay) ++ w32 (intF32 s.net.lastOffset)))
/-- Fields of MDIO that are out of range. -/
def badMdio (port phy reg : BitVec 8) : Option Nat :=
  firstBad [(decide (2 ≤ port.toNat), 0), (decide (32 ≤ phy.toNat), 2), (decide (32 ≤ reg.toNat), 3)]
/-- MDIO read: the value the PHY answers (18 R366). -/
def execMdioRead (h : Hdr) (port phy reg : BitVec 8) (value : BitVec 16) (s : State) : Out :=
  request s h 0x0C02 (.role 1) (badMdio port phy reg) (fun _ => .ok s (u16 value.toNat ++ [0, 0]))
/-- MDIO write: the PHY takes the value. -/
def execMdioWrite (h : Hdr) (port phy reg : BitVec 8) (value : BitVec 16) (s : State) : Out :=
  request s h 0x0C02 (.role 2) (badMdio port phy reg) (fun _ =>
    .ok { s with net.mdioOut := some (port, phy, reg, value) } (u16 value.toNat ++ [0, 0]))
/-- The port is the only one in the mask of a receive set that an axis in RUN reads (21 R438). -/
def solePath (s : State) (p : Port) : Bool :=
  match s.cairn.active with
  | none => false
  | some pl => pl.cyclic.any (fun c => !c.transmit && c.ports == (bitW (portNo p)).setWidth 8 &&
      bothAxes.any (fun x => gatesOn (getAx s x) && (getAx s x).sp.src == 1 && (parX s x Par.tvRxSet).toNat == c.set))
/-- PORT_TEST (21 R438): loopback of 16 frames, while the other ports forward. -/
def execPortTest (h : Hdr) (port : BitVec 8) (intact : Nat) (s : State) : Out :=
  request s h 0x0C03 (.role 2) (firstBad [(decide (2 ≤ port.toNat), 0)]) (fun _ =>
    let p : Port := if port = 0 then .rmii1 else .rmii2
    if s.net.slave == some p || solePath s p then .no 0x31 1 []
    else if intact = 16 then .ok { s with boot.bist := s.boot.bist &&& ~~~0x80 } [0, 0, 0, 0]
    else .ok (raise0 { s with boot.bist := s.boot.bist ||| 0x80 } 0x2006 0 7) [1, 0, 0, 0])

end Sys2Proof.Machine
end

