-- ==== Sys2Proof/Machine/PlaceCmd.lean ====
section
/-!
DEFINITION. The Cairn and user-segment commands (17 Table 17.6, classes 0x06 and 0x0B).
-/

namespace Sys2Proof.Machine
open Sys2Proof

/-! Declarations (14 R297 to R299). -/

/-- Bytes written at an offset of a buffer of a given length. -/
def putBytes (buf : List Byte) (total off : Nat) (bs : List Byte) : List Byte :=
  let b := (buf ++ List.replicate total 0).take total
  b.take off ++ bs ++ b.drop (off + bs.length)
/-- DECL_WRITE (14 R297): another total begins the staging anew; complete when offset + bytes = total. -/
def execDeclWrite (h : Hdr) (offset total : BitVec 16) (bytes : List (BitVec 8)) (s : State) : Out :=
  let n := total.toNat
  request s h 0x0601 (.role 2)
    (firstBad [(decide (n < 8) || decide (4088 < n), 2), (decide (n < offset.toNat + bytes.length), 4 + (n - offset.toNat))]) (fun role =>
    let old := if s.cairn.stagedTotal = n then s.cairn.staged else []
    let new := putBytes old n offset.toNat bytes
    let complete := decide (offset.toNat + bytes.length = n)
    let oldId : Word := if s.nv.decl.isEmpty then 0 else crc32 s.nv.decl
    audited s role (if complete then [(8, 0, oldId, crc32 new)] else []) (fun t =>
      .ok { t with cairn.staged := new, cairn.stagedTotal := n, cairn.stagedDirty := complete } []))
/-- A compile starts: discovery first in READY (19 R397), then the staged declaration, or the stored one (17 Table 17.6). -/
def startCompile (s : State) (chk : Bool) (flash : FlashFind) : Ans :=
  let begun := s.cairn.stagedTotal != 0
  if begun && !s.cairn.stagedDirty || !begun && s.nv.decl.isEmpty then .no 0x31 1 []
  else if !thoevoUp s then .no 7 0x11 []
  else
    let s1 := if isReady s && !anyRun s then discover s flash else s
    .long { s1 with cairn.compiling := some (chk, begun), cairn.interrupts := 0 } (.compile chk begun)
/-- COMPILE (14 R299). -/
def execCompile (h : Hdr) (flash : FlashFind) (s : State) : Out :=
  request s h 0x0602 (.role 2) none (fun _ => startCompile s false flash)
/-- COMPILE with its check-only flag (14 R299). -/
def execCompileCheckOnly (h : Hdr) (flash : FlashFind) (s : State) : Out :=
  request s h 0x0602 (.role 2) none (fun _ => startCompile s true flash)
/-- Bytes a reply can carry beside RESULT and DETAIL (17 R344). -/
def replyRoom : Nat := 4084
/-- DECL_READ (17 Table 17.6). -/
def execDeclRead (h : Hdr) (offset count : BitVec 16) (s : State) : Out :=
  request s h 0x0603 (.role 1) none (fun _ => .ok s ((s.nv.decl.drop offset.toNat).take (min count.toNat replyRoom)))
/-- A conversion table as its header and entry words (06 Tables 6.4, 6.5). -/
def tableWords (t : ConvTable) : List Byte :=
  w32 ((t.trig.setWidth 32 <<< 28) ||| (t.div.setWidth 32 <<< 24) ||| t.delay.setWidth 32) ++ t.entries.flatMap w32
/-- The gate list of a port as PLACE_INFO gives it (18 R370). -/
def gateBytes (cs : List CyclicPlace) (p : Port) : List Byte :=
  let l := gateList cs p
  u8 l.length ++ [0, 0, 0] ++ u32 (gateCycle cs) ++ l.flatMap (fun e => [e.1, 0, 0, 0] ++ u32 e.2)
/-- Port of an index. -/
def portOf (n : Nat) : Port := if n = 0 then .rmii1 else if n = 1 then .rmii2 else .t1s
/-- Init-list entry counts of an axis in the active bank: Cairn's part, user part (07 R163). -/
def initCounts (s : State) (x : Axis) : List Byte :=
  match placedAx s x with | some p => u8 p.init.1 ++ u8 p.init.2 | none => [0, 0]
/-- Details of one kind (17 Table 17.6). -/
def placeDetails (s : State) (kind index : Nat) : List Byte :=
  let cs := match s.cairn.active with | some p => p.cyclic | none => []
  if kind = 0 then [rgHost s.axes.a, rgHost s.axes.b] ++ w32 (activeId s) ++ initCounts s .a ++ initCounts s .b
  else if kind = 1 then (getCv s index).tables.flatMap tableWords
  else if kind = 2 then (List.range 128).flatMap (fun (k : Nat) => u16 (Config.teleName (activeId s) index k).toNat)
  else if kind = 3 then (List.range 64).map (fun (k : Nat) => Config.viewChannel (activeId s) k)
  else gateBytes cs (portOf index)
/-- The largest index of a kind: converter, axis, port; other kinds have none. -/
def placeTop (kind : Nat) : Nat := if kind = 1 then 11 else if kind = 2 then 1 else if kind = 4 then 2 else 255
/-- PLACE_INFO (17 Table 17.6). -/
def execPlaceInfo (h : Hdr) (kind index : BitVec 8) (s : State) : Out :=
  request s h 0x0604 (.role 1) (firstBad [(decide (4 < kind.toNat), 0), (decide (placeTop kind.toNat < index.toNat), 1)]) (fun _ =>
    .ok s (placeDetails s kind.toNat index.toNat))
/-- LEDGER (14 R305, R306): the active placement with reason 0. -/
def execLedger (h : Hdr) (s : State) : Out :=
  request s h 0x0605 (.role 1) none (fun _ =>
    .ok s (ledgerReport 0 0xFFFF (activeTotal s) (parD s Par.ledgerBudget) (match s.cairn.active with | some p => p.items | none => [])))

/-! User segments (07 R171 to R173). -/

/-- The axis and hook fields of a request. -/
def badHook (axis hook : BitVec 8) : List (Bool × Nat) := [(decide (2 ≤ axis.toNat), 0), (decide (4 ≤ hook.toNat), 1)]
/-- Key of a segment: axis × 4 + hook. -/
def segKey (axis hook : BitVec 8) : Nat := axis.toNat * 4 + hook.toNat
/-- SEG_STAGE (17 Table 17.6): no check of the ops. -/
def execSegStage (h : Hdr) (axis hook : BitVec 8) (offset : BitVec 16) (ops : List (BitVec 64)) (s : State) : Out :=
  request s h 0x0B01 (.role 2) (firstBad (badHook axis hook ++ [(decide (ops.length = 0) || decide (510 < ops.length), 4)])) (fun _ =>
    let k := segKey axis hook
    let old := (mapGet s.cairn.segStage k).getD []
    let pad := old ++ List.replicate (offset.toNat - old.length) 0
    .ok { s with cairn.segStage := mapPut s.cairn.segStage k (pad.take offset.toNat ++ ops ++ pad.drop (offset.toNat + ops.length)) } [])
/-- CRC-32 of a segment image: its ops, then its init entries (20 Table 20.8a). -/
def segCrc (g : UserSeg) : Word :=
  crc32 (g.ops.flatMap (fun (w : BitVec 64) => leBytes 8 w.toNat) ++ g.init.flatMap (fun (p : Nat × Word) => u16 p.1 ++ w32 p.2))
/-- Audit entry of a segment: axis × 256 + hook, CRC before and after. -/
def segEntry (s : State) (axis hook : BitVec 8) (new : Word) : Nat × Nat × Word × Word :=
  (10, axis.toNat * 256 + hook.toNat, ((s.nv.segs.find? (fun g => g.key == segKey axis hook)).map segCrc).getD 0, new)
/-- The staged ops of a segment, as many as asked for. -/
def stagedOps (s : State) (k n : Nat) : List (BitVec 64) := (((mapGet s.cairn.segStage k).getD []) ++ List.replicate n 0).take n
/-- SEG_COMMIT (07 R173): checked in full, then stored; the next placement links it. -/
def execSegCommit (h : Hdr) (axis hook : BitVec 8) (ops : BitVec 16) (init : List (BitVec 16 × BitVec 32)) (s : State) : Out :=
  request s h 0x0B02 (.role 2) (firstBad (badHook axis hook)) (fun role =>
    let k := segKey axis hook
    let code := stagedOps s k ops.toNat
    let ini := init.map (fun (p : BitVec 16 × BitVec 32) => (p.1.toNat, p.2))
    let others := s.nv.segs.filter (fun g => g.key / 4 == axis.toNat && g.key != k)
    let rest := s.nv.segs.filter (fun g => g.key / 4 != axis.toNat)
    match userCheck hook.toNat code ini others rest with
    | some (r, i) => .no 0x23 (r * 4096 + i) []
    | none =>
      let g : UserSeg := { key := k, ops := code, init := ini }
      audited s role [segEntry s axis hook (segCrc g)] (fun t =>
        .ok { t with nv.segs := t.nv.segs.filter (fun q => q.key != k) ++ [g], cairn.segStage := mapDel t.cairn.segStage k } []))
/-- SEG_DELETE (17 Table 17.6). -/
def execSegDelete (h : Hdr) (axis hook : BitVec 8) (s : State) : Out :=
  request s h 0x0B03 (.role 2) (firstBad (badHook axis hook)) (fun role =>
    let k := segKey axis hook
    audited s role (if s.nv.segs.any (fun g => g.key == k) then [segEntry s axis hook 0] else []) (fun t =>
      .ok { t with nv.segs := t.nv.segs.filter (fun q => q.key != k) } []))
/-- SEG_READ (17 Table 17.6). -/
def execSegRead (h : Hdr) (axis hook : BitVec 8) (offset n : BitVec 16) (s : State) : Out :=
  request s h 0x0B04 (.role 1) (firstBad (badHook axis hook)) (fun _ =>
    let ops := ((s.nv.segs.find? (fun g => g.key == segKey axis hook)).map (·.ops)).getD []
    .ok s (((ops.drop offset.toNat).take (min n.toNat 510)).flatMap (fun (w : BitVec 64) => leBytes 8 w.toNat)))

end Sys2Proof.Machine
end

