-- ==== Sys2Proof/Machine/Request.lean ====
section
/-!
DEFINITION. Requests that arrive as bytes: the layouts of Tables 17.5 to 17.8 and the meaning each opcode selects (R344 to
R347, R360).
-/

namespace Sys2Proof.Machine
open Sys2Proof

/-- Fields of a payload at an offset; missing bytes read 0. -/
def f8 (p : List Byte) (o : Nat) : BitVec 8 := BitVec.ofNat 8 (field p o 1)
def f16 (p : List Byte) (o : Nat) : BitVec 16 := BitVec.ofNat 16 (field p o 2)
def f32At (p : List Byte) (o : Nat) : BitVec 32 := BitVec.ofNat 32 (field p o 4)
def f64 (p : List Byte) (o : Nat) : BitVec 64 := BitVec.ofNat 64 (field p o 8)
/-- The least offset among failed checks. -/
def leastBad (l : List (Bool × Nat)) : Option Nat := l.foldl (fun (m : Option Nat) c => if c.1 then lower m (some c.2) else m) none
/-- What breaks a layout of `len` bytes with these reserved bytes: a length that differs shows at the first byte missing or too
many (R360; log 50). -/
def layout (p : List Byte) (len : Nat) (res : List Nat) : List (Bool × Nat) :=
  (decide (p.length ≠ len), min p.length len) :: res.map (fun o => (f8 p o != 0, o))
/-- Offsets of reserved bytes at fixed places of each of n items. -/
def itemRes (n base size : Nat) (at_ : List Nat) : List Nat := (List.range n).flatMap (fun k => at_.map (fun o => base + size * k + o))
/-- Number of whole items a payload holds, at most n. -/
def held (p : List Byte) (n base size : Nat) : Nat := min n ((p.length - base) / size)
/-- Items of a payload. -/
def items {α : Type} (n base size : Nat) (f : Nat → α) : List α := (List.range n).map (fun k => f (base + size * k))

/-- A request with its layout checked: the header carries the first byte that breaks it. -/
def laid (h : Hdr) (l : List (Bool × Nat)) : Hdr := { h with bad := leastBad l }
/-- A request with no payload. -/
def bare (h : Hdr) (p : List Byte) : Hdr := laid h (layout p 0 [])
/-- One byte and three reserved ones. -/
def oneByte (h : Hdr) (p : List Byte) : Hdr := laid h (layout p 4 [1, 2, 3])
/-- Two bytes and two reserved ones. -/
def twoBytes (h : Hdr) (p : List Byte) : Hdr := laid h (layout p 4 [2, 3])
/-- Three bytes and a reserved one. -/
def threeBytes (h : Hdr) (p : List Byte) : Hdr := laid h (layout p 4 [3])
/-- A request refused before its meaning: BUSY during a long operation, else this result (Table 17.2). -/
def refuse (s : State) (h : Hdr) (op : BitVec 16) (r : Nat) : Out :=
  when_ s (serves s h) (if s.mbx.long.isSome then reply s h op 1 (Config.busyMs s.clk.now).toNat [] else reply s h op r 0 [])

/-- Classes 0x01 to 0x04 (Table 17.5). -/
def runBasic (s : State) (h : Hdr) (op : Nat) (p : List Byte) (q : ReqFacts) : Option Out :=
  match op with
  | 0x0101 => some (execSessionOpen (oneByte h p) (f8 p 0) s)
  | 0x0102 => some (execSessionAuth (laid h (layout p 32 [])) (BitVec.ofNat 256 (field p 0 32)) s)
  | 0x0103 => some (execSessionClose (bare h p) s)
  | 0x0104 => some (execSessionInfo (bare h p) s)
  | 0x0105 => some (execEventMask (oneByte h p) (f8 p 0) s)
  | 0x0201 =>
    let n := (f16 p 0).toNat
    some (execParGet (laid h ((badCount n 510, 0) :: layout p (4 + 2 * n) [2, 3])) (items (held p n 4 2) 4 2 (f16 p)) s)
  | 0x0202 =>
    let n := (f16 p 0).toNat
    let k := held p n 4 8
    some (execParSet (laid h ((badCount n 510, 0) :: layout p (4 + 8 * n) ([2, 3] ++ itemRes k 4 8 [2, 3])))
      (items k 4 8 (fun o => (f16 p o, f32At p (o + 4)))) s)
  | 0x0203 => some (execParInfo (twoBytes h p) (f16 p 0) s)
  | 0x0204 => some (execParCommit (twoBytes h p) (f8 p 0) (f8 p 1) s)
  | 0x0205 => some (execParLoad (oneByte h p) (f8 p 0) s)
  | 0x0206 => some (execParBanks (bare h p) s)
  | 0x0207 => some (execParDefaults (bare h p) s)
  | 0x0301 => some (execStateGet (bare h p) s)
  | 0x0302 => some (execPwrReq (oneByte h p) (f8 p 0) s)
  | 0x0303 => some (execEnable (oneByte h p) (f8 p 0) s)
  | 0x0304 => some (execDisable (oneByte h p) (f8 p 0) s)
  | 0x0305 => some (execQuickStop (oneByte h p) (f8 p 0) s)
  | 0x0306 => some (execFaultClear (oneByte h p) (f8 p 0) q.chopSeen s)
  | 0x0307 => some (execFaultList (bare h p) s)
  | 0x0308 =>
    let g := laid h ((f8 p 2 != 1 && f8 p 2 != 2, 2) :: layout p 4 [3])
    if f8 p 2 = 2 then some (execLegServiceReturn g (f8 p 0) (f8 p 1) q.leg s) else some (execLegServiceBypass g (f8 p 0) (f8 p 1) s)
  | 0x0309 => some (execSwTrip (oneByte h p) (f8 p 0) s)
  | 0x0401 =>
    some (execSpSet (laid h (layout p 20 [2, 3])) ⟨f8 p 0, f8 p 1, f32At p 4, f32At p 8, f32At p 12, f32At p 16⟩ s)
  | 0x0402 => some (execSpGet (oneByte h p) (f8 p 0) s)
  | _ => none
/-- Classes 0x05, 0x06 and 0x0B (Table 17.6). -/
def runCairn (s : State) (h : Hdr) (op : Nat) (p : List Byte) (q : ReqFacts) : Option Out :=
  match op with
  | 0x0501 => some (execCalConv (twoBytes h p) (f16 p 0) s)
  | 0x0502 => some (execIdent (oneByte h p) (f8 p 0) s)
  | 0x0503 => some (execAngleOfs (oneByte h p) (f8 p 0) s)
  | 0x0601 => some (execDeclWrite (laid h (layout p (max 4 p.length) [])) (f16 p 0) (f16 p 2) (p.drop 4) s)
  | 0x0602 =>
    let g := laid h ((decide (2 ≤ (f8 p 0).toNat), 0) :: layout p 4 [1, 2, 3])
    if (f8 p 0).getLsbD 0 then some (execCompileCheckOnly g q.flash s) else some (execCompile g q.flash s)
  | 0x0603 => some (execDeclRead (laid h (layout p 4 [])) (f16 p 0) (f16 p 2) s)
  | 0x0604 => some (execPlaceInfo (twoBytes h p) (f8 p 0) (f8 p 1) s)
  | 0x0605 => some (execLedger (bare h p) s)
  | 0x0B01 =>
    let n := (f16 p 4).toNat
    some (execSegStage (laid h ((badCount n 510, 4) :: layout p (8 + 8 * n) [6, 7])) (f8 p 0) (f8 p 1) (f16 p 2) (items (held p n 8 8) 8 8 (f64 p)) s)
  | 0x0B02 =>
    let n := (f8 p 4).toNat
    let k := held p n 8 8
    some (execSegCommit (laid h (layout p (8 + 8 * n) ([5, 6, 7] ++ itemRes k 8 8 [2, 3]))) (f8 p 0) (f8 p 1) (f16 p 2)
      (items k 8 8 (fun o => (f16 p o, f32At p (o + 4)))) s)
  | 0x0B03 => some (execSegDelete (twoBytes h p) (f8 p 0) (f8 p 1) s)
  | 0x0B04 => some (execSegRead (laid h (layout p 8 [6, 7])) (f8 p 0) (f8 p 1) (f16 p 2) (f16 p 4) s)
  | _ => none
/-- Classes 0x07 and 0x08 (Table 17.7). -/
def runDiag (s : State) (h : Hdr) (op : Nat) (p : List Byte) (q : ReqFacts) : Option Out :=
  match op with
  | 0x0701 => some (execLogRead (laid h (layout p 8 [5, 6, 7])) (f32At p 0) (f8 p 4) s)
  | 0x0702 => some (execLogErase (bare h p) s)
  | 0x0703 => some (execAuditRead (threeBytes h p) (f16 p 0) (f8 p 2) s)
  | 0x0704 => some (execFifoRead (threeBytes h p) (f8 p 0) (f8 p 1) (f8 p 2) s)
  | 0x0705 => some (execStreamRead (laid h (layout p 12 [1, 2, 3, 10, 11])) (f8 p 0) (f32At p 4) (f16 p 8) s)
  | 0x0801 =>
    let n := (f8 p 0).toNat
    some (execCntRead (laid h ((badCount n 64, 0) :: layout p (4 + 2 * n) [1, 2, 3])) (items (held p n 4 2) 4 2 (f16 p)) s)
  | 0x0802 =>
    let n := (f8 p 0).toNat
    some (execCntClear (laid h ((badCount n 64, 0) :: layout p (4 + 2 * n) [1, 2, 3])) (items (held p n 4 2) 4 2 (f16 p)) s)
  | 0x0803 => some (execCmpRaw (bare h p) s)
  | 0x0804 => some (execCmpTest (laid h (layout p 4 [])) (f32At p 0) q.cmpFails s)
  | 0x0805 => some (execChopTest (bare h p) q.chopSeen s)
  | 0x0806 => some (execLegTest (twoBytes h p) (f8 p 0) (f8 p 1) q.leg s)
  | 0x0807 => some (execRgTest (oneByte h p) (f8 p 0) s)
  | 0x0808 => some (execColFlags (oneByte h p) (f8 p 0) s)
  | 0x0809 => some (execConvOnce (twoBytes h p) (f8 p 0) (f8 p 1) q.code s)
  | 0x080A => some (execTestAccess (oneByte h p) (f8 p 0) s)
  | _ => none
/-- Classes 0x09, 0x0A and 0x0C (Table 17.8). -/
def runSystem (s : State) (h : Hdr) (op : Nat) (p : List Byte) (q : ReqFacts) : Option Out :=
  match op with
  | 0x0901 => some (execOtpRead (threeBytes h p) (f16 p 0) (f8 p 2) s)
  | 0x0902 => some (execOtpOverride (laid h (layout p 12 [2, 3])) (f16 p 0) (f64 p 4) s)
  | 0x0903 =>
    let n := (f8 p 0).toNat
    let k := held p n 4 12
    some (execOtpBurn (laid h ((badCount n 8, 0) :: layout p (4 + 12 * n) ([1, 2, 3] ++ itemRes k 4 12 [2, 3])))
      (items k 4 12 (fun o => (f16 p o, f64 p (o + 4)))) s)
  | 0x0904 =>
    let g := laid h ((decide (2 ≤ (f8 p 1).toNat), 1) :: layout p 4 [2, 3])
    if f8 p 1 = 1 then some (execOtpRetire g (f8 p 0) s) else some (execOtpLock g (f8 p 0) s)
  | 0x0A01 => some (execFwBegin (laid h (layout p 4 [])) (f32At p 0) s)
  | 0x0A02 => some (execFwData (laid h (layout p (max 4 p.length) [])) (f32At p 0) (p.drop 4) s)
  | 0x0A03 => some (execFwInstall (oneByte h p) (f8 p 0) s)
  | 0x0A04 => some (execFwInfo (bare h p) s)
  | 0x0A05 => some (execMramErase (oneByte h p) (f8 p 0) s)
  | 0x0A06 => some (execReboot (bare h p) s)
  | 0x0C01 => some (execNetStatus (bare h p) s)
  | 0x0C02 =>
    let g := laid h ((decide (2 ≤ (f8 p 1).toNat), 1) :: layout p 8 [6, 7])
    if f8 p 1 = 1 then some (execMdioWrite g (f8 p 0) (f8 p 2) (f8 p 3) (f16 p 4) s) else some (execMdioRead g (f8 p 0) (f8 p 2) (f8 p 3) q.mdio s)
  | 0x0C03 => some (execPortTest (oneByte h p) (f8 p 0) q.intact s)
  | _ => none
/-- A message with an opcode of Tables 17.5 to 17.8 runs its meaning; another is answered BAD_OPCODE (Table 17.2). -/
def runOp (s : State) (h : Hdr) (op : BitVec 16) (p : List Byte) (q : ReqFacts) : Out :=
  let n := op.toNat
  match (runBasic s h n p q).orElse (fun _ => (runCairn s h n p q).orElse (fun _ => (runDiag s h n p q).orElse (fun _ => runSystem s h n p q))) with
  | some o => o
  | none => refuse s h op 3
/-- Payload length a message's header names. -/
def msgLen (m : List Byte) : Nat := field m 4 2
/-- A whole message (R344 to R347): its CRC first, then its opcode. -/
def runMsg (s : State) (tr : Transport) (m : List Byte) (q : ReqFacts) : Out :=
  let p := (m.drop 8).take (msgLen m)
  let crc := f16 m 6
  let h : Hdr := { tr := tr, session := f8 m 3, tag := f8 m 2, crc := crc }
  let op := f16 m 0
  if crc16 (m.take 6 ++ p) ≠ crc then refuse s h op 2 else runOp s h op p q
/-- Bytes of a message (Table 17.1). -/
def msgBytes (m : Msg) : List Byte :=
  let head := u16 m.opcode.toNat ++ [m.tag, m.session] ++ u16 m.payload.length
  head ++ u16 (crc16 (head ++ m.payload)).toNat ++ m.payload

end Sys2Proof.Machine
end

