-- ==== Sys2Proof/Machine/Hsp.lean ====
section
/-!
DEFINITION. The host serial port: frames, registers, mailbox windows and the telemetry window (chapter 16).
-/

namespace Sys2Proof.Machine
open Sys2Proof

/-! What the port reports (R332, R334, R336). -/

/-- PD_SYS is powered, so that the port takes frames (R337; 21 R434). -/
def portOn (s : State) : Bool :=
  s.sum.on && !s.sum.resetLow && (s.pwr.boot.isSome || thoevoUp s || s.boot.service != .none)
/-- A frame that starts now is busy (R336). -/
def portBusy (s : State) : Bool := s.mbx.long.isSome || s.pwr.boot.isSome
/-- MBX_IN_FREE (R339, 17 R348): no message waits for its copy, and fewer than eight replies and events wait. -/
def inFree (s : State) : Bool :=
  s.pwr.boot.isNone && !s.hsp.submitted && decide ((s.hsp.outbox.toList ++ s.hsp.queue).length < 8)
/-- The status byte (Table 16.2). -/
def statusByte (s : State) (rdOk : Bool) : Byte :=
  BitVec.ofNat 8 (bit (portBusy s) 7 + bit (irqLow s) 6 + bit s.hsp.outbox.isSome 5 + bit (inFree s) 4 + bit s.hsp.frameErr 3 +
    bit s.hsp.lengthErr 2 + bit s.hsp.addrOver 1 + bit rdOk 0)
/-- Bytes of the reply in the outbox. -/
def outboxBytes (s : State) : List Byte := match s.hsp.outbox with | some m => msgBytes m | none => []
/-- A byte of a little-endian value. -/
def byteOf (n k : Nat) : Byte := BitVec.ofNat 8 (n / 256 ^ k)
/-- A byte of the register window (Table 16.4); beyond 0xFF and at reserved addresses 0. -/
def regByte (s : State) (a : Nat) : Byte :=
  if a < 4 then byteOf 0x7502 a
  else if a = 4 then 3
  else if a < 8 then [(4 : Byte), 1, 0].getD (a - 5) 0
  else if a < 0x10 then byteOf s.boot.uid.toNat (a - 8)
  else if a = 0x10 then statusByte s false
  else if a = 0x11 then pwrState s
  else if a < 0x14 then byteOf s.hsp.intStatus.toNat (a - 0x12)
  else if a < 0x16 then byteOf s.hsp.intMask.toNat (a - 0x14)
  else if a = 0x17 then s.hsp.mbxErr
  else if a = 0x18 ∨ a = 0x19 then byteOf (outboxBytes s).length (a - 0x18)
  else if a = 0x1A then s.hsp.mode
  else if a = 0x1C ∨ a = 0x1D then byteOf s.hsp.prof0.toNat (a - 0x1C)
  else if a = 0x1E ∨ a = 0x1F then byteOf s.hsp.prof1.toNat (a - 0x1E)
  else if a = 0x20 ∨ a = 0x21 then byteOf s.hsp.prof2.toNat (a - 0x20)
  else if a = 0x22 ∨ a = 0x23 then byteOf s.hsp.prof3.toNat (a - 0x22)
  else if a = 0x24 ∨ a = 0x25 then byteOf s.hsp.frameErrCnt.toNat (a - 0x24)
  else 0
/-- A byte of the telemetry window (Table 16.9). -/
def teleByte (s : State) (o : Nat) : Byte :=
  if o < 0x80 then (s.hsp.teleDrive[o]?).getD 0
  else if o < 0x280 then byteOf (mapRead 0 s.hsp.teleA ((o - 0x80) / 4)).toNat ((o - 0x80) % 4)
  else if o < 0x480 then byteOf (mapRead 0 s.hsp.teleB ((o - 0x280) / 4)).toNat ((o - 0x280) % 4)
  else 0

/-! Frames (R328 to R331, R341, R343). -/

/-- Profile a frame selects. -/
def profOf (s : State) (cmd : Byte) : BitVec 16 :=
  match cmd.toNat / 64 with | 0 => s.hsp.prof0 | 1 => s.hsp.prof1 | 2 => s.hsp.prof2 | _ => s.hsp.prof3
/-- RW of a command byte. -/
def isRead (cmd : Byte) : Bool := cmd.getLsbD 5
/-- TGT of a command byte. -/
def target (cmd : Byte) : Nat := cmd.toNat / 4 % 8
/-- Address a frame carries under its profile: eight bits with ADDR_W = 1 (R328). -/
def frameAddr (s : State) (f : HspFrame) : Nat :=
  if (profOf s f.cmd).getLsbD 9 then f.addr.toNat % 256
  else f.addr.toNat
/-- A frame whose command the drive discards, further edges ignored (Table 16.11): reserved bits, a reserved target, a wrong
direction, lanes above the mode's. -/
def badCommand (s : State) (f : HspFrame) : Bool :=
  let m := s.hsp.mode.toNat % 4
  let p := (profOf s f.cmd).toNat
  f.cmd.toNat % 4 != 0 || decide (4 ≤ target f.cmd) || (target f.cmd == 1 && isRead f.cmd) ||
  (decide (2 ≤ target f.cmd) && !isRead f.cmd) ||
  (m != 0 && (decide (m < p / 4096 % 4) || decide (m < p / 1024 % 4)))
/-- LEN the drive rejects (R341). -/
def badLen (s : State) (f : HspFrame) : Bool :=
  let a := frameAddr s f
  let n := f.len.toNat
  if n = 65535 then !(target f.cmd == 3 && isRead f.cmd)
  else match target f.cmd with
    | 0 => decide (256 < n)
    | 3 => decide (2048 < a + n)
    | _ => decide (4096 < a + n)
/-- What becomes of a frame that is not busy. -/
inductive FrameFate where | frameErr | lengthErr | accepted
deriving DecidableEq, Repr
/-- The fate of a frame (Table 16.11). -/
def frameFate (s : State) (f : HspFrame) : FrameFate :=
  if f.how == .merged || badCommand s f || f.how == .cutHead then .frameErr
  else if badLen s f then .lengthErr
  else if f.how == .cut || (!isRead f.cmd && f.data.length != f.len.toNat) then .frameErr
  else .accepted
/-- The answer this frame carries: the pending one when its fetch had completed (R331, R342). -/
def offered (s : State) (f : HspFrame) : Option HspAnswer := if f.fetched then s.hsp.answer else none
/-- Bytes of an answer that a number of clocked bytes carries; beyond it 0 (R330, R340). -/
def answerBytes (s : State) (a : HspAnswer) (n : Nat) : List Byte :=
  match a.stream with
  | some o => (List.range n).map (fun (k : Nat) => if k < 65535 then teleByte s ((o + k) % 2048) else 0)
  | none => (a.bytes ++ List.replicate (n - a.bytes.length) 0).take n
/-- Data bytes the drive drives in a frame whose data phase it serves. -/
def dataBytes (s : State) (f : HspFrame) : List Byte :=
  if isRead f.cmd then
    match offered s f with | some a => answerBytes s a f.clocked | none => List.replicate f.clocked 0
  else if s.hsp.mode.toNat % 4 = 0 then List.replicate f.data.length 0 else []
/-- Read-clear bits of the registers: only those delivered as 1 (R331). -/
def readClear (s : State) (a : Nat) : List Byte → State
  | [] => s
  | b :: bs =>
    let t := if a = 0x17 then { s with hsp.mbxErr := s.hsp.mbxErr &&& ~~~b }
      else if a = 0x24 then { s with hsp.frameErrCnt := s.hsp.frameErrCnt &&& ~~~(b.setWidth 16) }
      else if a = 0x25 then { s with hsp.frameErrCnt := s.hsp.frameErrCnt &&& ~~~(b.setWidth 16 <<< 8) }
      else s
    readClear t (a + 1) bs
/-- The answer to an accepted read request, assembled after the frame (R331, R334, R338, R340). -/
def assemble (s : State) (f : HspFrame) : HspAnswer :=
  let a := frameAddr s f
  let n := f.len.toNat
  match target f.cmd with
  | 0 => { bytes := (List.range n).map (fun (k : Nat) => if a + k < 256 then regByte s (a + k) else 0), regs := some a }
  | 2 => let o := (outboxBytes s).drop a
         { bytes := (o ++ List.replicate n 0).take n }
  | _ => if n = 65535 then { bytes := [], stream := some (a % 2048) }
         else { bytes := (List.range n).map (fun (k : Nat) => teleByte s (a + k)) }

/-! Register and inbox writes (R333 to R335, R338, R339). -/

/-- A mailbox framing error (Table 16.8). -/
def mbxError (s : State) (code : Byte) : State := { s with hsp.mbxErr := code, hsp.intStatus := s.hsp.intStatus ||| 0x0004 }
/-- The inbox became free: INT_STATUS bit 1 (Table 16.5). -/
def noteFree (s t : State) : State :=
  if !inFree s && inFree t then { t with hsp.intStatus := t.hsp.intStatus ||| 0x0002 } else t
/-- RELEASE (Table 16.7): the outbox is freed, and the next message that waits is placed at once. -/
def releaseOut (s : State) : State :=
  if s.hsp.outbox.isNone then s
  else
    let t := match s.hsp.queue with
      | [] => { s with hsp.outbox := none }
      | m :: ms => { s with hsp.outbox := some m, hsp.queue := ms, hsp.intStatus := s.hsp.intStatus ||| 0x0001 }
    noteFree s t
/-- SUBMIT (R339). -/
def submitIn (s : State) : State :=
  if !inFree s then mbxError s 3
  else if 4088 < leVal (mapReadN 0 s.hsp.inbox 4 2) then mbxError s 1
  else { s with hsp.submitted := true }
/-- A write of MBX_CTRL: RELEASE first, then SUBMIT. -/
def mbxCtrl (s : State) (b : Byte) : State :=
  let t := if b.getLsbD 1 then releaseOut s else s
  if b.getLsbD 0 then submitIn t else t
/-- Write a profile register; a value with a reserved bit set is ignored (R333). -/
def setProf (s : State) (n : Nat) (v : BitVec 16) : State :=
  if v &&& 0xC1E0 ≠ 0 then s
  else match n with
    | 0 => { s with hsp.prof0 := v } | 1 => { s with hsp.prof1 := v } | 2 => { s with hsp.prof2 := v } | _ => { s with hsp.prof3 := v }
/-- Write INT_MASK; a value with a reserved bit set is ignored (log 51). -/
def setMask (s : State) (v : BitVec 16) : State := if v &&& 0xFE00 ≠ 0 then s else { s with hsp.intMask := v }
/-- Write a two-byte register whose bits are judged together: INT_MASK and the profiles. -/
def writePair (s : State) (a : Nat) (v : BitVec 16) : State := if a = 0x14 then setMask s v else setProf s ((a - 0x1C) / 2) v
/-- A two-byte register starts at this address. -/
def pairAt (a : Nat) : Bool := a == 0x14 || a == 0x1C || a == 0x1E || a == 0x20 || a == 0x22
/-- The register that holds this address as its low or high byte, as it stands. -/
def pairVal (s : State) (a : Nat) : BitVec 16 := BitVec.ofNat 16 ((regByte s a).toNat + 256 * (regByte s (a + 1)).toNat)
/-- Write one byte of the window (Table 16.4). -/
def writeByte (s : State) (a : Nat) (b : Byte) : State :=
  if a = 0x12 then { s with hsp.intStatus := s.hsp.intStatus &&& ~~~(b.setWidth 16) }
  else if a = 0x13 then { s with hsp.intStatus := s.hsp.intStatus &&& ~~~(b.setWidth 16 <<< 8) }
  else if a = 0x16 then mbxCtrl s b
  else if a = 0x1A then
    if b.toNat / 16 ≠ 0 ∨ b.toNat % 4 < b.toNat / 4 % 4 then s else { s with hsp.mode := b }
  else if pairAt a then writePair s a ((pairVal s a &&& 0xFF00) ||| b.setWidth 16)
  else if a ≠ 0 ∧ pairAt (a - 1) then writePair s (a - 1) ((pairVal s (a - 1) &&& 0x00FF) ||| (b.setWidth 16 <<< 8))
  else s
/-- Write bytes to the register window in address order; those beyond 0xFF are discarded with ADDR_OVER (R334, R335). -/
def writeRegs (a : Nat) (s : State) : List Byte → State
  | [] => s
  | [b] => if 255 < a then { s with hsp.addrOver := true } else writeByte s a b
  | b :: c :: bs =>
    if 255 < a then { s with hsp.addrOver := true }
    else if pairAt a then writeRegs (a + 2) (writePair s a (BitVec.ofNat 16 (b.toNat + 256 * c.toNat))) bs
    else writeRegs (a + 1) (writeByte s a b) (c :: bs)
/-- The writes of an accepted frame. -/
def writeFrame (s : State) (f : HspFrame) : State :=
  if target f.cmd = 0 then writeRegs (frameAddr s f) s f.data
  else if !inFree s then mbxError s 2
  else { s with hsp.inbox := mapWriteAll 0 s.hsp.inbox (frameAddr s f) f.data }
/-- A discard with FRAME_ERR (R343). -/
def frameError (s : State) : State :=
  { s with hsp.frameErr := true, hsp.frameErrCnt := sat16 s.hsp.frameErrCnt, hsp.answer := none }
/-- An accepted frame (R331, R332, R337). -/
def acceptFrame (s : State) (f : HspFrame) : State :=
  let s1 := { s with hsp.frameErr := false, hsp.lengthErr := false, hsp.addrOver := false, hsp.answer := none }
  if isRead f.cmd then
    let s2 := match offered s f with
      | some a => match a.regs with
        | some r => readClear s1 r ((dataBytes s f).take a.bytes.length)
        | none => s1
      | none => s1
    let exceeds := target f.cmd == 0 && f.len != 0 && decide (256 < frameAddr s f + f.len.toNat)
    let s3 := if exceeds then { s2 with hsp.addrOver := true } else s2
    if f.len = 0 then s3 else { s3 with hsp.answer := some (assemble s3 f) }
  else
    let s2 := writeFrame s1 f
    if s2.pwr.base == .hold && thoevoUp s2 && !s2.pwr.noPlacement && !s2.sum.pfCommit then toReady s2 else s2
/-- HSP_FRAME (R328 to R332, R336, R341, R343). -/
def execHspFrame (f : HspFrame) (s : State) : Out :=
  let status := statusByte s (offered s f).isSome
  let head := if s.hsp.mode.toNat % 4 = 0 then [status] else []
  let zeros := if isRead f.cmd then List.replicate f.clocked (0 : Byte) else if s.hsp.mode.toNat % 4 = 0 then List.replicate f.data.length 0 else []
  when_ s (portOn s)
    (if portBusy s then { s with hsp.answer := none, hsp.driven := status :: zeros }
     else match frameFate s f with
       | .lengthErr => { s with hsp.lengthErr := true, hsp.answer := none, hsp.driven := head }
       | .frameErr =>
         let cutData := f.how == .cut && !badCommand s f
         frameError { s with hsp.driven := if cutData then status :: dataBytes s f else head }
       | .accepted => acceptFrame { s with hsp.driven := status :: dataBytes s f } f)
/-- HSP_FRAME_TIMEOUT (R342, Table 16.11): the frame in progress is discarded; one that is busy counts no error. -/
def execHspFrameTimeout (s : State) : Out :=
  when_ s (portOn s) (if portBusy s then { s with hsp.answer := none } else frameError s)
/-- MBX_COPY_DONE (R339; 17 R347): the inbox is free again, and the message is executed. -/
def execMbxCopyDone (facts : ReqFacts) (s : State) : Out :=
  let n := leVal (mapReadN 0 s.hsp.inbox 4 2)
  let s1 := noteFree s { s with hsp.submitted := false }
  if s.hsp.submitted && serves s {} then runMsg s1 .host (mapReadN 0 s.hsp.inbox 0 (8 + n)) facts else skip s
/-- The drive block of the telemetry window (Table 16.9). -/
def driveBlock (s : State) : List Byte :=
  let flags := bit (s.axes.a.pwm.nl == .locked) 0 + bit (s.axes.b.pwm.nl == .locked) 1 + bit (gptpOk s) 2 + bit (throttleReq s) 3
  u64 (stamp s).toNat ++ [pwrState s, BitVec.ofNat 8 flags] ++ u16 (faultTop s).toNat ++
    [axCode s.axes.a.start.ax, axCode s.axes.b.start.ax] ++ u8 (faultActiveN s) ++ [0] ++ w32 (vmHi s) ++ w32 (tMax s) ++ List.replicate 104 0
/-- TELEMETRY_DRIVE_UPDATE (R340): every 100 µs. -/
def execTelemetryDriveUpdate (s : State) : Out := when_ s (thoevoUp s) { s with hsp.teleDrive := driveBlock s }

end Sys2Proof.Machine
end

