-- ==== Sys2Proof/Machine/Net.lean ====
section
/-!
DEFINITION. The backbone: switch, PHYs, gate lists, time synchronisation and Traverse frames (chapter 18, R363 to R385).
-/

namespace Sys2Proof.Machine
open Sys2Proof

/-! The switch (R363 to R369). -/

/-- A port is enabled (R363). -/
def portEnabled (s : State) (p : Port) : Bool := s.net.on && (parD s Par.netPortEn).getLsbD (portNo p)
/-- A port carries frames: its PHY reports the link, or it is the integrated T1S PHY. -/
def carries (s : State) (p : Port) : Bool := portEnabled s p && ((getPort s p).up || p == .t1s)
/-- A group address: bit 0 of the first octet. -/
def isGroup (m : BitVec 48) : Bool := m.getLsbD 40
/-- Destinations never forwarded, 01-80-C2-00-00-00 to -0F (R365). -/
def linkLocal (m : BitVec 48) : Bool := m >>> 4 == 0x0180C200000
/-- Port an address was learned on. -/
def learned (s : State) (m : BitVec 48) : Option Port := (s.net.table.find? (fun e => e.1 == m)).map (·.2)
/-- Learn a source address; the table holds the 1,024 learned last (R365; log 54). -/
def learn (s : State) (f : EthFrame) : State :=
  match f.from? with
  | some p => if isGroup f.src || !f.fcsOk then s
    else { s with net.table := ((f.src, p) :: s.net.table.filter (fun e => e.1 != f.src)).take 1024 }
  | none => s
/-- External ports a frame goes to (R365). -/
def egress (s : State) (f : EthFrame) : List Port :=
  let flood := allPorts.filter (fun p => carries s p && f.from? != some p)
  if linkLocal f.dst then (if f.from?.isNone then flood else [])
  else if f.dst == s.boot.mac then []
  else if isGroup f.dst then flood
  else match learned s f.dst with
    | some p => if carries s p && f.from? != some p then [p] else []
    | none => flood
/-- A frame also goes to the host port (R365). -/
def toHost (s : State) (f : EthFrame) : Bool :=
  f.from?.isSome && (if linkLocal f.dst then f.gptp else f.dst == s.boot.mac || isGroup f.dst || (learned s f.dst).isNone)
/-- Queue of a frame: TC from its PCP, TC0 untagged, TC2 for gPTP (R369). -/
def trafficClass (f : EthFrame) : BitVec 2 :=
  if f.gptp then 2 else match f.pcp with | some p => (p >>> 1).setWidth 2 | none => 0
/-- One more error of a port in PORT_ERR, each half a 16-bit count that saturates; T1S has no counter (Table 18.11). -/
def countPort (s : State) (p : Port) : State :=
  let lo : BitVec 16 := s.net.portErr.setWidth 16
  let hi : BitVec 16 := (s.net.portErr >>> 16).setWidth 16
  match p with
  | .rmii1 => { s with net.portErr := hi ++ sat16 lo }
  | .rmii2 => { s with net.portErr := sat16 hi ++ lo }
  | .t1s => s
/-- A path between the RMII ports is cut through; every other is stored and forwarded (R364). -/
def cutThrough (f : EthFrame) (p : Port) : Bool := (f.from? == some .rmii1 && p == .rmii2) || (f.from? == some .rmii2 && p == .rmii1)
/-- A frame at one egress port: a stored one needs a good FCS, a full queue drops it (R364, R369). -/
def putOut (f : EthFrame) (s : State) (p : Port) : State :=
  if !f.fcsOk && !cutThrough f p then s
  else if f.fullPorts.contains p then countPort s p
  else onPort s p (fun q => { q with lastOut := some (f.bytes, trafficClass f) })
/-- Frames to the host port other than Traverse frames: at most 8,000 in a second (R383). -/
def hostFrame (s : State) (full : Bool) : State :=
  let keep := s.net.hostStamps.filter (fun t => decide (s.clk.now < t + 1000000000))
  if full || decide (8000 ≤ keep.length) then { s with net.hostDrop := s.net.hostDrop + 1, net.hostStamps := keep }
  else { s with net.hostStamps := s.clk.now :: keep }
/-- ETH_FRAME_FORWARD (R364, R365, R369): learned, forwarded, and a bad FCS counted at the port it came in on (log 55). -/
def execEthFrameForward (f : EthFrame) (s : State) : Out :=
  let ok := match f.from? with | some p => carries s p | none => true
  let s1 := (egress s f).foldl (putOut f) (learn s f)
  let s2 := match f.from? with | some p => if f.fcsOk then s1 else countPort s1 p | none => s1
  when_ s (s.net.on && ok) (if toHost s f && f.fcsOk then hostFrame s2 f.hostFull else s2)
/-- ADDRESS_AGE_EXPIRY (R365). -/
def execAddressAgeExpiry (mac : BitVec 48) (s : State) : Out :=
  when_ s (s.net.on && (learned s mac).isSome) { s with net.table := s.net.table.filter (fun e => e.1 != mac) }
/-- ETH_RST_RELEASE (R366). -/
def execEthRstRelease (s : State) : Out := when_ s (s.net.on && !s.net.rstReleased) { s with net.rstReleased := true }
/-- A slave port that goes down ends synchronisation unless the other port can lead to a grandmaster (R373, Table 18.5). -/
def slaveDown (s : State) (p : Port) : State :=
  let other : Port := if p = .rmii1 then .rmii2 else .rmii1
  if s.net.slave != some p then s
  else if s.net.gptp == .slave && !((getPort s other).up && (getPort s other).asCapable) then loseSync { s with net.slave := none }
  else { s with net.slave := none }
/-- What a poll of one PHY does (R365, R366). -/
def pollPort (s : State) (p : Port) (h : PhyStatus) : State :=
  if !portEnabled s p then s
  else
    let up := h.link && h.rate100 && h.full
    let wrong := h.link && !(h.rate100 && h.full)
    let was := getPort s p
    let s1 := onPort s p (fun q => { q with up := up, wrongMode := wrong, asCapable := q.asCapable && up, pdelayRun := if up then q.pdelayRun else 0 })
    let s2 := if wrong && !was.wrongMode then raise0 s1 0x2D08 0 (BitVec.ofNat 8 (portNo p)) else s1
    if up == was.up then s2
    else
      let s3 := raise0 s2 0x1D01 0 (BitVec.ofNat 8 (portNo p))
      if up then s3 else slaveDown { s3 with net.table := s3.net.table.filter (fun e => e.2 != p) } p
/-- PHY_POLL (R366). -/
def execPhyPoll (rmii1 rmii2 : PhyStatus) (s : State) : Out :=
  when_ s (s.net.on && s.net.rstReleased) (pollPort (pollPort s .rmii1 rmii1) .rmii2 rmii2)
/-- The T1S port is a PLCA follower (R367). -/
def follower (s : State) : Bool := portEnabled s .t1s && parD s Par.t1sPlcaId != 255 && parD s Par.t1sPlcaId != 0
/-- T1S_BEACON_LOSS (R367). -/
def execT1sBeaconLoss (s : State) : Out :=
  when_ s (follower s && !s.net.csmaFallback) (raise0 { s with net.csmaFallback := true, net.beacon := false } 0x2D0B 0 noDetail)
/-- PLCA_BEACON_RECEIVED (R367). -/
def execPlcaBeaconReceived (s : State) : Out :=
  when_ s (follower s) { s with net.csmaFallback := false, net.beacon := true }
/-- ARP_ICMP_REQUEST (R375): with an address, ARP and ICMP echo of up to 1,472 bytes are answered; the cache holds the sixteen
senders heard last. -/
def execArpIcmpRequest (icmp : Bool) (sender target : BitVec 32) (bytes : Nat) (s : State) : Out :=
  let mine := parD s Par.ipAddr != 0 && target == parD s Par.ipAddr
  let s1 := { s with net.answered := s.net.answered + 1 }
  when_ s (s.net.on && thoevoUp s && mine && (!icmp || decide (bytes ≤ 1472)))
    (if icmp then s1 else { s1 with net.arp := (sender :: s.net.arp.filter (fun a => a != sender)).take 16 })

/-! Gate lists (R370, R371). -/

/-- The list Cairn placed for a port; none without a transmit window. -/
def placedGates (s : State) (p : Port) : List (BitVec 8 × Nat) :=
  match s.cairn.active with
  | some pl => if (gateWins pl.cyclic p).isEmpty then [] else gateList pl.cyclic p
  | none => []
/-- Entry a time within the list cycle falls into. -/
def entryAt : Nat → List (BitVec 8 × Nat) → Nat
  | _, [] => 0
  | t, e :: es => if t < e.2 then 0 else 1 + entryAt (t - e.2) es
/-- Length of a list cycle, ns. -/
def listCycle (l : List (BitVec 8 × Nat)) : Nat := l.foldl (fun (n : Nat) e => n + e.2) 0
/-- GATE_LIST_INTERVAL (R370, R371): the next entry applies; at a list cycle start the placed list takes effect, and after a
step of the gPTP time the list restarts on the new time. -/
def execGateListInterval (port : Port) (s : State) : Out :=
  let q := getPort s port
  let fresh := placedGates s port
  let next := q.gate + 1
  when_ s (portEnabled s port && !(q.gates.isEmpty && fresh.isEmpty))
    (onPort s port (fun q =>
      if q.restart then { q with gates := fresh, gate := entryAt (gptpNow s % max 1 (listCycle fresh)) fresh, restart := false }
      else if next < q.gates.length then { q with gate := next }
      else { q with gates := fresh, gate := 0 }))

/-! Time synchronisation (R372, R373). -/

/-- A step of the gPTP time ends the list cycles in progress (R371). -/
def restartLists (s : State) : State :=
  allPorts.foldl (fun (t : State) p => onPort t p (fun q => { q with restart := !q.gates.isEmpty })) s
/-- RX and TX latency of a port's PHY (R374); T1S has none. -/
def rxLat (s : State) : Port → Rat | .rmii1 => fval (parD s Par.rmii1RxLat) | .rmii2 => fval (parD s Par.rmii2RxLat) | .t1s => 0
def txLat (s : State) : Port → Rat | .rmii1 => fval (parD s Par.rmii1TxLat) | .rmii2 => fval (parD s Par.rmii2TxLat) | .t1s => 0
/-- The offset of a Sync whose stamp was taken at the RMII interface, corrected by the PHY's receive latency and rounded to
whole ns (R374; log 138). -/
def syncOffset (s : State) (raw : Int) : Int :=
  match s.net.slave with | some p => raw - roundEven (rxLat s p) | none => raw
/-- The path delay of an exchange stamped at the RMII interface, corrected by both latencies (R374; log 138). -/
def linkDelay (s : State) (p : Port) (raw : Int) : Int := raw - roundEven ((rxLat s p + txLat s p) / 2)
/-- GPTP_SYNC (R373, R374): an offset above 1 µs steps the clock, a smaller one is slewed; three in a row within the threshold gain
synchronisation. `rawNs` is the drive's time minus the grandmaster's, as stamped at the RMII interface. -/
def execGptpSync (rawNs : Int) (rate : F32) (t : Nat) (s : State) : Out :=
  let s0 := at_ s t
  let offsetNs := syncOffset s rawNs
  let step := decide (1000 < offsetNs.natAbs)
  let back := if step then offsetNs else Config.slewNs offsetNs s0.clk.now
  let run := if decide ((offsetNs.natAbs : Rat) ≤ fval (parD s Par.gptpSyncThr)) then s.net.syncRun + 1 else 0
  let s1 := { s0 with net.ofs := s0.net.ofs - back, net.rate := rate, net.lastOffset := offsetNs, net.syncRun := run }
  let s2 := if step then restartLists s1 else s1
  when_ s (s.net.on && s.net.slave.isSome && s.net.gptp != .master)
    (if 3 ≤ run && s.net.gptp != .slave then gainSync s2 .slave else s2)
/-- GPTP_ANNOUNCE (R372, R373): BMCA makes a port the slave, or leaves the drive the best clock, which is then grandmaster if
it may be. A change of grandmaster does not end synchronisation. -/
def execGptpAnnounce (slave : SlavePort) (s : State) : Out :=
  let s1 := { s with net.slave := slave, net.announced := slave.isSome }
  when_ s (s.net.on && slave != some .t1s)
    (match slave with
     | some _ => if s.net.gptp == .master then { s1 with net.gptp := .slave, net.syncRun := 0 } else s1
     | none =>
       if (parD s Par.gptpPrio1).toNat < 255 then gainSync s1 .master
       else if s.net.gptp == .slave || s.net.gptp == .master then loseSync s1
       else s1)
/-- GPTP_PDELAY (R372, R374): two exchanges that yield a rate ratio and a delay within 800 ns make a port as-capable. -/
def execGptpPdelay (port : Port) (rawNs : Int) (rateOk : Bool) (s : State) : Out :=
  let delayNs := linkDelay s port rawNs
  let good := rateOk && decide (delayNs ≤ 800)
  when_ s (port != .t1s && carries s port)
    (onPort s port (fun q => { q with pathDelay := delayNs, pdelayRun := if good then q.pdelayRun + 1 else 0,
                                      asCapable := good && decide (1 ≤ q.pdelayRun) }))
/-- GPTP_RECEIPT_TIMEOUT (R373). -/
def execGptpReceiptTimeout (s : State) : Out :=
  when_ s (thoevoUp s && s.net.gptp != .master && (s.net.gptp == .slave || s.net.slave.isSome))
    { loseSync s with net.slave := none, net.announced := false, net.syncRun := 0 }
/-- GPTP_TRANSMIT_INTERVAL (R372): a grandmaster sends Sync and Announce; Pdelay_Req is always sent. -/
def execGptpTransmitInterval (kind : GptpKind) (s : State) : Out :=
  let n := s.net.sent
  match kind with
  | .sync => when_ s (s.net.on && s.net.gptp == .master) { s with net.sent := (n.1 + 1, n.2.1, n.2.2) }
  | .announce => when_ s (s.net.on && s.net.gptp == .master) { s with net.sent := (n.1, n.2.1 + 1, n.2.2) }
  | .pdelay => when_ s s.net.on { s with net.sent := (n.1, n.2.1, n.2.2 + 1) }

/-! Traverse receive sets (R376 to R380). -/

/-- The carrier of a frame is served: UDP with an address, raw with an EtherType (R375, R376). -/
def tvCarried (s : State) (src : NetSource) : Bool :=
  if src.udp = 0 then parD s Par.tvEthertype != 0 else parD s Par.ipAddr != 0
/-- The placed receive set of a number. -/
def rxSet (s : State) (n : Nat) : Option CyclicPlace :=
  s.cairn.active.bind (fun p => p.cyclic.find? (fun c => !c.transmit && c.set == n))
/-- TV_RX_SET of an axis: the stored one in DISABLED, which the next enable brings into force (R377). -/
def rxSetOf (s : State) (x : Axis) : Nat :=
  if (getAx s x).start.ax = .disabled then (storX s x Par.tvRxSet).toNat else (parX s x Par.tvRxSet).toNat
/-- SP_OFFSET in ns. -/
def spOfs (s : State) (x : Axis) : Nat := usNs (parX s x Par.spOffset)
/-- Local time of the last boundary of an axis. -/
def latchTime (s : State) (x : Axis) : Nat :=
  match (match x with | .a => s.net.latchA | .b => s.net.latchB) with | [] => 0 | e :: _ => e.1
/-- The last boundary of an axis in the drive's time; its time now while no timebase runs. -/
def lastBoundary (s : State) (x : Axis) : Nat :=
  if (getAx s x).pwm.running then ((latchTime s x : Int) + s.net.ofs).toNat else gptpNow s
/-- The application boundary of an instant has passed for an axis (R378). -/
def applied (s : State) (x : Axis) (time : Nat) : Bool := decide (time + judgeLag s x (cycleNs s x) ≤ lastBoundary s x)
/-- When the setpoint of a frame applies: SP_OFFSET after the instant of its cycle, or after its arrival (01 R24). -/
def dueAt (s : State) (x : Axis) (time : Nat) : Nat := (if byInstant s x then time else gptpNow s) + spOfs s x
/-- It has passed for every axis that reads the set. -/
def allApplied (s : State) (n time : Nat) : Bool :=
  let xs := bothAxes.filter (fun x => rxSetOf s x == n)
  !xs.isEmpty && xs.all (fun x => applied s x time)
/-- Frame fields of a receive axis block (Table 18.4). -/
def blockAt : Axis → Nat | .a => 24 | .b => 48
/-- Reserved bits of a receive payload are 0 (R377, Table 18.4). -/
def rxReserved (b : List Byte) : Bool :=
  field b 16 2 / 2 == 0 && field b 18 6 == 0 &&
  [24, 48].all (fun o => field b o 2 / 16 == 0 && field b (o + 3) 1 == 0 && field b (o + 20) 4 == 0)
/-- A type 1 frame is valid in itself and for its set (R378); its instant is judged apart. -/
def rxValid (s : State) (f : TvFrame) : Bool :=
  let b := f.bytes
  decide (72 ≤ b.length) && f8 b 0 == 1 && f8 b 1 == 1 && decide ((f8 b 2).toNat < 8) && decide ((f8 b 3).toNat < 2) &&
  f16 b 6 == 56 && rxReserved b &&
  (match rxSet s (f8 b 2).toNat with | some c => c.ports.getLsbD (portNo f.port) | none => false)
/-- TIME of a frame fits its set and the drive's time (R378); with TV_REQ_SYNC = 0 it is not judged (R380). -/
def timeValid (s : State) (c : CyclicPlace) (time : Nat) : Bool :=
  parD s Par.tvReqSync != 1 || decide (time % max 1 c.cycleNs = 0) && !allApplied s c.set time && decide (time ≤ gptpNow s + c.cycleNs)
/-- A discard is counted; ten within a second raise WARN 0x2D04 (R378). -/
def discardRx (s : State) : State :=
  let keep := s.clk.now :: s.net.rxErrStamps.filter (fun t => decide (s.clk.now < t + 1000000000))
  let s1 := { s with net.rxErr := s.net.rxErr + 1, net.rxErrStamps := keep }
  if 10 ≤ keep.length then raise0 { s1 with net.rxErrStamps := [] } 0x2D04 0 noDetail else s1
/-- The setpoint of an axis block. -/
def blockSp (b : List Byte) (o : Nat) : Setpoint :=
  wordsSp ⟨0, f8 b (o + 2), f32At b (o + 4), f32At b (o + 8), f32At b (o + 12), f32At b (o + 16)⟩
/-- WARN 0x2D0A, at most once per second (R379). -/
def kindWarn (s : State) (x : Axis) : State :=
  let quiet := match s.net.kindWarned with | some t => decide (s.clk.now < t + 1000000000) | none => false
  if quiet then s else raise0 { s with net.kindWarned := some s.clk.now } 0x2D0A (scopeOf x) noDetail
/-- A setpoint of a cyclic source for the cycle of an instant, due at a time of the drive: kept before acceptance, ignored
after a stop began (08 R193; 10 R238). -/
def giveCyclic (s : State) (x : Axis) (base due : Nat) (p : Setpoint) : State :=
  onAx s x (fun a =>
    if a.sp.accepted then { a with sp.got := (base :: a.sp.got).take 8, sp.cyclic := a.sp.cyclic.filter (fun e => e.1 != due) ++ [(due, p)] }
    else if keepsSp a then { a with sp.kept := some p }
    else a)
/-- Setpoint words of a block (R379). -/
def takeBlock (s : State) (x : Axis) (b : List Byte) (time : Nat) : State :=
  let o := blockAt x
  if !(f8 b o).getLsbD 3 || (parD s Par.tvReqSync == 1 && applied s x time) then s
  else if (f8 b (o + 2)).toNat ≠ (storX s x Par.ctrlMode).toNat then kindWarn s x
  else giveCyclic s x time (dueAt s x time) (blockSp b o)
/-- A bit rises between two words. -/
def rises (old new : BitVec 16) (n : Nat) : Bool := !old.getLsbD n && new.getLsbD n
/-- A clear request from the backbone or CAN: what a chopper test it runs sees is free (log 56). -/
def clearFrom (s : State) (scopes : List (BitVec 8)) : State :=
  let f := freeWord s
  if namesChop s scopes then clearScopes f.2 scopes (f.1.getLsbD 0) else clearScopes s scopes false
/-- The stop edges of a block: a falling ENABLE is a disable, a rising QSTOP a quick stop (R379). -/
def stopEdges (s : State) (x : Axis) (old new : BitVec 16) : State :=
  let s1 := if old.getLsbD 0 && !new.getLsbD 0 then requestStop s x .ramp else s
  if rises old new 1 then requestStop s1 x .quick else s1
/-- Control edges of a block (R379): during a long operation only stops act. -/
def blockEdges (s : State) (x : Axis) (old new : BitVec 16) : State :=
  let long := s.mbx.long.isSome
  let s1 := stopEdges (if rises old new 2 && !long then clearFrom s [scopeOf x] else s) x old new
  if rises old new 0 && !long then tryEnable s1 x else s1
/-- An axis takes in a valid frame of its set with SP_SRC = 1 (R379). Of an axis that another source owns only the stops act
(08 R190; log 58). -/
def takeAxis (b : List Byte) (n time : Nat) (old : Option (BitVec 16 × BitVec 16 × BitVec 16)) (s : State) (x : Axis) : State :=
  if rxSetOf s x ≠ n then s
  else
    let new := f16 b (blockAt x)
    let before := old.map (fun w => match x with | .a => w.2.1 | .b => w.2.2)
    if spOwner s x ≠ 1 then (match before with | some w => stopEdges s x w new | none => s)
    else takeBlock (match before with | some w => blockEdges s x w new | none => s) x b time
/-- A valid frame whose instant is known (R379, R382). -/
def takeFrame (s : State) (f : TvFrame) (n time : Nat) : State :=
  let b := f.bytes
  let old := mapGet s.net.rxCtrl n
  let s1 := { s with net.txTo := some f.src, net.rxTime := mapPut s.net.rxTime n ((time :: (mapGet s.net.rxTime n).getD []).take 4),
                     net.rxCtrl := mapPut s.net.rxCtrl n (f16 b 16, f16 b 24, f16 b 48) }
  let s2 := match old with
    | some w => if rises w.1 (f16 b 16) 0 && s.mbx.long.isNone then clearFrom s1 [0] else s1
    | none => s1
  bothAxes.foldl (takeAxis b n time old) s2
/-- GPTP_STATE lets synchronised traffic through (R380). -/
def tvSynced (s : State) : Bool := s.net.gptp != .unsync
/-- TV_RECEIVE_SET (R378 to R380). With TV_REQ_SYNC = 0 a frame belongs to the cycle in which it arrives. -/
def execTvReceiveSet (f : TvFrame) (t : Nat) (s : State) : Out :=
  let s1 := at_ s t
  let n := (f8 f.bytes 2).toNat
  let sync := parD s Par.tvReqSync == 1
  when_ s (thoevoUp s && carries s f.port && tvCarried s f.src)
    (if !rxValid s1 f then discardRx s1
     else match rxSet s1 n with
       | none => discardRx s1
       | some c =>
         let cyc := max 1 c.cycleNs
         let time := if sync then field f.bytes 8 8 else gptpNow s1 / cyc * cyc
         if sync && !tvSynced s1 then s1
         else if ((mapGet s1.net.rxTime n).getD []).contains time then s1
         else if !timeValid s1 c time then discardRx s1
         else takeFrame s1 f n time)

/-! Traverse mailbox (R383). -/

/-- A type 3 frame is well formed (Table 18.3). -/
def requestValid (b : List Byte) : Bool :=
  decide (24 ≤ b.length) && f8 b 0 == 1 && f8 b 1 == 3 && f8 b 2 == 0 && decide ((f8 b 3).toNat < 2) && field b 8 8 == 0 &&
  decide (8 ≤ field b 6 2) && decide (16 + field b 6 2 ≤ b.length)
/-- TV_MAILBOX_REQUEST (R383, R384): answered BUSY during a long operation, dropped behind four that wait, else executed; its
sender receives the events. -/
def execTvMailboxRequest (f : TvFrame) (waiting : Nat) (facts : ReqFacts) (t : Nat) (s : State) : Out :=
  let s1 := at_ s t
  let m := (f.bytes.drop 16).take (field f.bytes 6 2)
  if !(carries s f.port && tvCarried s f.src && requestValid f.bytes && serves s { tr := .backbone f.src }) then skip s
  else if s.mbx.long.isSome then runMsg s1 (.backbone f.src) m facts
  else if 4 ≤ waiting then done s { s1 with net.hostDrop := s1.net.hostDrop + 1 }
  else runMsg { s1 with net.lastReq := some f.src } (.backbone f.src) m facts

/-! Transmit sets (R381, R382). -/

/-- The placed transmit set of a number. -/
def txSet (s : State) (n : Nat) : Option CyclicPlace :=
  s.cairn.active.bind (fun p => p.cyclic.find? (fun c => c.transmit && c.set == n))
/-- The block latched at the last boundary at or before the window opening minus 20 µs (R382); empty where nothing has been
latched by then. -/
def latchedBy (s : State) (l : List (Nat × List Byte)) : Nat × List Byte :=
  (l.find? (fun e => decide (e.1 + 20000 ≤ s.clk.now))).getD (0, [])
/-- Bytes of a latched axis block before LATCH_OFS: 28, zeros where nothing has been latched. -/
def latched28 (l : Nat × List Byte) : List Byte := (l.2 ++ List.replicate 28 0).take 28
/-- The transmit payload (R381): drive block, axis blocks with their LATCH_OFS, telemetry words of A and of B. -/
def txPayload (s : State) : List Byte :=
  let d := latchedBy s s.net.latchD; let a := latchedBy s s.net.latchA; let b := latchedBy s s.net.latchB
  let one := fun (l : Nat × List Byte) =>
    latched28 l ++ w32 (BitVec.ofInt 32 (if l.2.isEmpty then 0 else (l.1 : Int) - (d.1 : Int)))
  (d.2 ++ List.replicate 16 0).take 16 ++ one a ++ one b ++ a.2.drop 28 ++ b.2.drop 28
/-- TIME of a transmit frame and its FLAGS: gPTP time of the latch boundary, or boot-relative (Table 18.3). -/
def txTime (s : State) : Nat × Byte :=
  let base := (latchedBy s s.net.latchD).1
  if gptpOk s then (((base : Int) + s.net.ofs).toNat, 0) else (base - s.pwr.bootAt, 1)
/-- A transmit frame (Table 18.3). -/
def txFrame (s : State) (n : Nat) : List Byte :=
  let p := txPayload s
  [1, 2] ++ u8 n ++ [(txTime s).2] ++ u16 (mapRead 0 s.net.txSeq n).toNat ++ u16 p.length ++ u64 (txTime s).1 ++ p
/-- 802.1Q tag of every frame the drive sends: TV_PCP and TV_VID (R376). -/
def txTag (s : State) : BitVec 16 := BitVec.ofNat 16 ((parD s Par.tvPcp).toNat * 0x2000 + (parD s Par.tvVid).toNat)
/-- A Traverse frame to this destination is carried in UDP: to a UDP sender, or with IPv4 on where none is known (R376, R382). -/
def txUdp (s : State) (dst : Option NetSource) : Bool :=
  match dst with | some src => src.udp != 0 | none => parD s Par.ipAddr != 0
/-- Bytes of the tagged frame: 66 + LEN in UDP, 38 + LEN raw, the Traverse header apart from LEN (R376). -/
def txBytes (s : State) (dst : Option NetSource) (len : Nat) : Nat := (if txUdp s dst then 66 else 38) + len
/-- Next hop of an IPv4 frame: its destination where IP_MASK puts it on the local link, else IP_GW (R375). -/
def nextHop (s : State) (ip : BitVec 32) : BitVec 32 :=
  let m := parD s Par.ipMask
  if m = 0 then ip
  else if m = 0xFFFFFFFF then (if ip = parD s Par.ipAddr then ip else parD s Par.ipGw)
  else if ip &&& m = parD s Par.ipAddr &&& m then ip
  else parD s Par.ipGw
/-- Next hop of a frame to a known UDP sender. -/
def txHop (s : State) (dst : Option NetSource) : Option (BitVec 32) :=
  match dst with | some src => if src.udp = 0 then none else some (nextHop s src.ip) | none => none
/-- TV_TRANSMIT_WINDOW (R382): the latched set is sent, or dropped and counted when a forwarded frame holds the port. -/
def execTvTransmitWindow (set : Fin 8) (blocked : Bool) (s : State) : Out :=
  let n := set.val
  let quiet := match s.net.lateWarned with | some t => decide (s.clk.now < t + 1000000000) | none => false
  let late := { s with net.txLate := s.net.txLate + 1, net.lateWarned := if quiet then s.net.lateWarned else some s.clk.now }
  when_ s (thoevoUp s && s.net.on && (txSet s n).isSome && (parD s Par.tvReqSync != 1 || tvSynced s))
    (if blocked then (if quiet then late else raise0 late 0x2D05 0 noDetail)
     else { s with net.lastTx := txFrame s n, net.lastTxTo := s.net.txTo,
                   net.lastTxTag := (txTag s, txBytes s s.net.txTo (txPayload s).length), net.lastTxHop := txHop s s.net.txTo,
                   net.txSeq := mapPut s.net.txSeq n (mapRead 0 s.net.txSeq n + 1) })

end Sys2Proof.Machine
end

