-- ==== Sys2Proof/Machine/Can.lean ====
section
/-!
DEFINITION. CAN FD and CANopen with the CiA 402 axes (chapter 18, R386 to R394).
-/

namespace Sys2Proof.Machine
open Sys2Proof

/-- The CAN controller takes part in the bus (R387). -/
def canAlive (s : State) : Bool := s.can.on && s.can.err != .busOff
/-- CAN_NODE. -/
def canNodeId (s : State) : Nat := (parD s Par.canNode).toNat

/-! Units (R390). -/

/-- Bits of a position fraction below one CAN unit. -/
def canShift (s : State) : Nat := 32 - (parD s Par.canPosBits).toNat
/-- A position in units, its low 32 bits. -/
def canPos (s : State) (p : Int) : Word := BitVec.ofInt 32 (p / (2 ^ canShift s : Nat))
/-- The 64-bit position of a target: the one nearest to the present reference. -/
def canTarget (s : State) (x : Axis) (u : Word) : Int :=
  let unit : Int := (2 ^ canShift s : Nat)
  let wrap : Int := unit * 4294967296
  let p : Int := u.toNat * unit
  p + (((getAx s x).ctl.posRef - p + wrap / 2) / wrap) * wrap
/-- A value as an object of n bits shows it: rounded to nearest (log 57); outside the width it is free. -/
def canShow (n : Nat) (q : Rat) : Word :=
  let k := roundEven q
  if -(2 ^ (n - 1) : Nat) ≤ k ∧ k < (2 ^ (n - 1) : Nat) then BitVec.ofInt 32 k else Config.canOver k
/-- A speed, rad/s, of an object. -/
def canSpeed (s : State) (w : Word) : F32 := rd ((w.toInt : Rat) * canUnit s)
/-- A torque, A of q current, of an object. -/
def canTorque (s : State) (x : Axis) (w : Word) : F32 := rd (((w.setWidth 16).toInt : Rat) / 1000 * pf s x Par.canIRated)

/-! CiA 402 states (R391, Table 18.8). -/

/-- A latched entry of class STOP or above of the axis or the drive. -/
def canFault (s : State) (x : Axis) : Bool := s.flt.list.any (fun e => decide (4 ≤ codeClass e.code) && (e.scope == 0 || e.scope == scopeOf x))
/-- States of the CiA 402 machine. -/
inductive CiaState where
  | switchOnDisabled | readyToSwitchOn | switchedOn | operationEnabled | quickStopActive | faultReaction | fault
deriving DecidableEq, Repr
/-- The state of an axis. SAFE shows before the fault it raises (log 58). -/
def ciaState (s : State) (x : Axis) : CiaState :=
  let a := getAx s x
  let c := getCia s x
  let rest := a.start.ax == .disabled
  if s.pwr.safe && rest then .switchOnDisabled
  else if canFault s x then (if rest then .fault else .faultReaction)
  else if !rest then (if a.start.stop == some .quick then .quickStopActive else .operationEnabled)
  else if (enableRefusal s x).isSome then .switchOnDisabled
  else if c.switchedOn then .switchedOn
  else if c.ready then .readyToSwitchOn
  else .switchOnDisabled
/-- Bits 0 to 6 of the statusword. PRESUMED (log 58): the CiA 402 codes, bit 4 set where the power stage has its supply. -/
def ciaBits : CiaState → Nat
  | .switchOnDisabled => 0x40 | .readyToSwitchOn => 0x31 | .switchedOn => 0x33 | .operationEnabled => 0x37
  | .quickStopActive => 0x17 | .faultReaction => 0x0F | .fault => 0x08
/-- A mode of the cyclic synchronous kind. -/
def ciaCyclic (m : BitVec 8) : Bool := m == 8 || m == 9 || m == 10
/-- CTRL_MODE of a mode of operation (R390). -/
def ciaCtrl (m : BitVec 8) : Option Word :=
  if m = 1 ∨ m = 8 then some 2 else if m = 3 ∨ m = 9 then some 1 else if m = 4 ∨ m = 10 then some 0 else none
/-- Statusword 0x6041 (R391). -/
def statusword (s : State) (x : Axis) : Nat :=
  let a := getAx s x
  let c := getCia s x
  let mine := s.flt.list.filter (fun e => e.scope == 0 || e.scope == scopeOf x)
  ciaBits (ciaState s x) + bit (mine.any (fun e => codeClass e.code == 3)) 7 + 0x200 + bit c.reached 10 +
  bit (a.ctl.status &&& 0x18 != 0) 11 +
  bit (if c.mode == 1 then c.ack else ciaCyclic c.mode && a.sp.accepted && decide (a.sp.missRun = 0)) 12 +
  bit (s.flt.list.any (fun e => e.code == 0x4606 && e.scope == scopeOf x && e.active)) 13
/-- Modes of operation display 0x6061: the mode written where its CTRL_MODE is in force, else the cyclic mode of the one in
force. -/
def modeDisplay (s : State) (x : Axis) : BitVec 8 :=
  let m := (getAx s x).sp.mode
  let c := getCia s x
  if ciaCtrl c.mode == some (m.setWidth 32) then c.mode else if m = 2 then 8 else if m = 1 then 9 else 10
/-- Error code 0x603F: the CiA code of the entry of the highest class of the axis or the drive. -/
def ciaError (s : State) (x : Axis) : Nat :=
  let mine := s.flt.list.filter (fun e => e.scope == 0 || e.scope == scopeOf x)
  let top := mine.foldl (fun (best : BitVec 16) e => if codeClass best < codeClass e.code then e.code else best) 0
  if mine.isEmpty then 0 else emcyCode top

/-! The object dictionary (R388, R390, R393). -/

/-- An entry: the parameter behind it where it is one, its bytes, whether it may be written, and whether a PDO may map it. -/
structure CanObj where
  bytes : Nat
  writable : Bool
  mappable : Bool := false
  par : Option (BitVec 16) := none
deriving DecidableEq, Repr
/-- Bytes of a parameter type. -/
def typeBytes : PType → Nat | .u8 => 1 | .u16 => 2 | _ => 4
/-- Axis and index of a CiA 402 object, the index as for axis A (R390). -/
def ciaIndex (i : Nat) : Option (Axis × Nat) :=
  if 0x6000 ≤ i ∧ i < 0x6800 then some (.a, i) else if 0x6800 ≤ i ∧ i < 0x7000 then some (.b, i - 0x800) else none
/-- The CiA 402 objects with their bytes (R390). PRESUMED (log 57): the widths CiA 402 gives them, and 0x60C2 as its record. -/
def ciaObj (i sub : Nat) : Option CanObj :=
  if sub = 0 ∧ (i = 0x6040 ∨ i = 0x6007 ∨ i = 0x6071 ∨ i = 0x60B2 ∨ i = 0x6068) then some ⟨2, true, true, none⟩
  else if sub = 0 ∧ (i = 0x6041 ∨ i = 0x603F ∨ i = 0x6077) then some ⟨2, false, true, none⟩
  else if sub = 0 ∧ i = 0x6060 then some ⟨1, true, true, none⟩
  else if sub = 0 ∧ i = 0x6061 then some ⟨1, false, true, none⟩
  else if sub = 0 ∧ (i = 0x607A ∨ i = 0x60FF ∨ i = 0x60B1 ∨ i = 0x6067 ∨ i = 0x6081 ∨ i = 0x6083 ∨ i = 0x6084 ∨ i = 0x6085) then
    some ⟨4, true, true, none⟩
  else if sub = 0 ∧ (i = 0x6064 ∨ i = 0x606C ∨ i = 0x6502) then some ⟨4, false, true, none⟩
  else if i = 0x60C2 ∧ sub = 0 then some ⟨1, false, false, none⟩
  else if i = 0x60C2 ∧ (sub = 1 ∨ sub = 2) then some ⟨1, true, true, none⟩
  else none
/-- The communication objects (R388). -/
def commObj (i sub : Nat) : Option CanObj :=
  if i = 0x1000 ∧ sub = 0 then some ⟨4, false, false, none⟩
  else if i = 0x1001 ∧ sub = 0 then some ⟨1, false, false, none⟩
  else if (i = 0x1005 ∨ i = 0x1006 ∨ i = 0x1014) ∧ sub = 0 then some ⟨4, true, false, none⟩
  else if (i = 0x1015 ∨ i = 0x1017) ∧ sub = 0 then some ⟨2, true, false, none⟩
  else if (i = 0x1016 ∨ i = 0x1018) ∧ sub = 0 then some ⟨1, false, false, none⟩
  else if i = 0x1016 ∧ sub = 1 then some ⟨4, true, false, none⟩
  else if i = 0x1018 ∧ sub ≤ 4 then some ⟨4, false, false, none⟩
  else if (0x1400 ≤ i ∧ i < 0x1408) ∨ (0x1800 ≤ i ∧ i < 0x1808) then
    (if sub = 0 then some ⟨1, false, false, none⟩ else if sub = 1 then some ⟨4, true, false, none⟩
     else if sub = 2 then some ⟨1, true, false, none⟩ else none)
  else if (0x1600 ≤ i ∧ i < 0x1608) ∨ (0x1A00 ≤ i ∧ i < 0x1A08) then
    (if sub = 0 then some ⟨1, true, false, none⟩ else if sub ≤ 16 then some ⟨4, true, false, none⟩ else none)
  else none
/-- Parameter index of a manufacturer object (R393). -/
def parOfObj (i : Nat) : BitVec 16 := BitVec.ofNat 16 (i % 0x1000 + if i < 0x3000 then 0 else 0x8000)
/-- The manufacturer object of a parameter (R393). -/
def parObj (i sub : Nat) : Option CanObj :=
  let k := parOfObj i
  match parKnown k with
  | some d => if sub ≠ 0 ∨ (k.getLsbD 15 && !d.perAxis) then none else some ⟨typeBytes d.ty, d.kind != .readOnly, true, some k⟩
  | none => none
/-- An object of the dictionary. -/
def canObj (i sub : Nat) : Option CanObj :=
  match ciaIndex i with
  | some (_, k) => ciaObj k sub
  | none => if 0x2000 ≤ i ∧ i < 0x4000 then parObj i sub else commObj i sub
/-- An index has objects at all. -/
def canIndexKnown (i : Nat) : Bool := (List.range 5).any (fun k => (canObj i k).isSome)
/-- PDO n of a list. -/
def pdoAt (l : List Pdo) (n : Nat) : Pdo := (l[n]?).getD {}
/-- Value of a CiA 402 object (R390). -/
def ciaGet (s : State) (x : Axis) (i sub : Nat) : Word :=
  let a := getAx s x
  let c := getCia s x
  let acc := fun (p : Nat) => BitVec.ofInt 32 (roundEven (fval (storX s x p) / canUnit s))
  match i with
  | 0x6040 => c.control.setWidth 32
  | 0x6041 => BitVec.ofNat 32 (statusword s x)
  | 0x6060 => c.mode.setWidth 32
  | 0x6061 => (modeDisplay s x).setWidth 32
  | 0x603F => BitVec.ofNat 32 (ciaError s x)
  | 0x6007 => storX s x Par.canAbortOpt
  | 0x6502 => 0x38D
  | 0x60C2 => if sub = 0 then 2 else if sub = 1 then (c.interp &&& 0xFF).setWidth 32 else (c.interp >>> 8).setWidth 32
  | 0x6064 => canPos s (posOf s x)
  | 0x606C => canShow 32 ((speedFb s x).1 / canUnit s)
  | 0x6077 => canShow 16 (fval a.ctl.iq * 1000 / pf s x Par.canIRated)
  | 0x607A => c.target
  | 0x60FF => c.velocity
  | 0x6071 => c.torque.setWidth 32
  | 0x60B1 => c.vofs
  | 0x60B2 => c.tofs.setWidth 32
  | 0x6067 => c.window
  | 0x6068 => c.windowMs.setWidth 32
  | 0x6081 => c.profVel
  | 0x6083 => acc Par.accMax
  | 0x6084 => acc Par.decMax
  | 0x6085 => acc Par.stopDec
  | _ => 0
/-- COB-ID of the EMCY producer 0x1014. -/
def emcyObj (s : State) : Word := match s.can.emcyCob with | some c => c | none => BitVec.ofNat 32 (0x80 + canNodeId s)
/-- Value of a communication object (R388; the serial is that of row 66, 20 Table 20.1). -/
def commGet (s : State) (i sub : Nat) : Word :=
  let n := i % 8
  let comm := fun (l : List Pdo) => if sub = 0 then (2 : Word) else if sub = 1 then (pdoAt l n).cob else (pdoAt l n).kind.setWidth 32
  let maps := fun (l : List Pdo) => if sub = 0 then BitVec.ofNat 32 (pdoAt l n).n else ((pdoAt l n).maps[sub - 1]?).getD 0
  match i with
  | 0x1000 => 0x00020192
  | 0x1001 => (errReg s).setWidth 32
  | 0x1005 => s.can.syncCob
  | 0x1006 => s.can.syncPeriod
  | 0x1014 => emcyObj s
  | 0x1015 => s.can.emcyInhibit.setWidth 32
  | 0x1016 => if sub = 0 then 1 else s.can.hbConsumer
  | 0x1017 => s.can.hbProducer.setWidth 32
  | 0x1018 => if sub = 0 then 4 else if sub = 4 then (rowData s 66).setWidth 32 else Config.canIdentity sub
  | _ => if i < 0x1600 then comm s.can.rpdo else if i < 0x1800 then maps s.can.rpdo
         else if i < 0x1A00 then comm s.can.tpdo else maps s.can.tpdo
/-- Value of an object of the dictionary. -/
def canGet (s : State) (i sub : Nat) : Word :=
  match ciaIndex i with
  | some (x, k) => ciaGet s x k sub
  | none => if 0x2000 ≤ i ∧ i < 0x4000 then parValue s (parOfObj i).toNat else commGet s i sub

/-! Writes. -/

/-- SDO abort of a parameter result (Table 18.9). -/
def abortOf (r : Nat) : Word :=
  if r = 0x10 ∨ r = 0x11 then 0x06020000 else if r = 0x12 then 0x06010002 else if r = 0x13 then 0x06070010
  else if r = 0x14 then 0x06090030 else 0x08000020
/-- A write of a parameter with the role CAN_ROLE (R393). -/
def canParWrite (s : State) (k : BitVec 16) (v : Word) : Except Word State :=
  if (parD s Par.canRole).toNat < itemRole k then .error 0x06010000
  else match (parItems s 0 s.par [(k, v)]).2 with
    | some (r, _) => .error (abortOf r)
    | none => .ok (applyItem s (k, v))
/-- The parameter of an axis. -/
def axisPar (x : Axis) (i : Nat) : BitVec 16 := BitVec.ofNat 16 (parAddr x i)
/-- The setpoint an axis's objects give in a mode of operation (R390). PRESUMED (log 57): the offsets add as in CiA 402. -/
def ciaSetpoint (s : State) (x : Axis) (m : BitVec 8) : Setpoint :=
  let c := getCia s x
  let p := canTarget s x c.target
  let sx : BitVec 16 → Word := fun t => t.signExtend 32
  let tff := canTorque s x (sx c.tofs)
  if m = 8 then
    { kind := 2, frac := BitVec.ofInt 32 (p % 4294967296), turns := BitVec.ofInt 32 (p / 4294967296), vff := canSpeed s c.vofs, tff := tff }
  else if m = 9 then { kind := 1, value := rd (((c.velocity.toInt + c.vofs.toInt : Int) : Rat) * canUnit s), tff := tff }
  else if m = 10 then { kind := 0, value := rd (((c.torque.toInt + c.tofs.toInt : Int) : Rat) / 1000 * pf s x Par.canIRated) }
  else if m = 3 then { kind := 1, value := canSpeed s c.velocity }
  else { kind := 0, value := canTorque s x (sx c.torque) }
/-- The object that carries the target of a mode. -/
def ciaTargetObj (m : BitVec 8) : Nat := if m = 1 ∨ m = 8 then 0x607A else if m = 3 ∨ m = 9 then 0x60FF else 0x6071
/-- What a written target does: in pv and tq it is the setpoint at once; in the cyclic modes it waits for the SYNC, and counts
for it when an RPDO carried it (R389, Table 8.3). -/
def targetWritten (s : State) (x : Axis) (i : Nat) (rpdo : Bool) : State :=
  let m := (getCia s x).mode
  if i ≠ ciaTargetObj m then s
  else if m = 3 ∨ m = 4 then giveSetpoint s x (ciaSetpoint s x m)
  else if rpdo then onCia s x (fun c => { c with fresh := true })
  else s
/-- A new target of pp mode at a rising bit 4: it replaces the one before with bit 5 set, or with none in progress; otherwise
one is queued (R390). -/
def newTarget (s : State) (x : Axis) (at_once : Bool) : State :=
  let t := canTarget s x (getCia s x).target
  let c := getCia s x
  let idle := match c.goal with | none => true | some g => c.reached && g == (getAx s x).ctl.posRef
  if !(getAx s x).sp.accepted then s
  else if at_once || idle then onCia s x (fun c => { c with goal := some t, queued := if at_once then none else c.queued, ack := true, reached := false, inWindow := none })
  else if c.queued.isNone then onCia s x (fun c => { c with queued := some t, ack := true })
  else s
/-- The command of a controlword, with the axis's state before it (Table 18.8); the flag tells that an enable was refused. -/
def ciaCommand (s : State) (x : Axis) (old new : BitVec 16) : State × Bool :=
  let st := ciaState s x
  let rest := (getAx s x).start.ax == .disabled
  let flags := fun (r on : Bool) (t : State) => onCia t x (fun c => { c with ready := r, switchedOn := on })
  let ramp := fun (t : State) => if rest then t else requestStop t x .ramp
  if rises old new 7 && (st == .fault || st == .faultReaction || s.pwr.safe) then (flags false false (clearFrom s [0, scopeOf x]), false)
  else if st == .fault || st == .faultReaction then (s, false)
  else if !new.getLsbD 1 then (flags false false (ramp s), false)
  else if !new.getLsbD 2 then (flags false false (if rest then s else requestStop s x .quick), false)
  else if !new.getLsbD 0 then (if rest && (enableRefusal s x).isSome then s else flags true false (ramp s), false)
  else if !new.getLsbD 3 then
    (if rest then (if st == .readyToSwitchOn || st == .switchedOn then flags true true s else s) else flags true true (ramp s), false)
  else if rest && ((getCia s x).ready || (getCia s x).switchedOn) then
    (match enableRefusal s x with | some c => (enableRefused s x c, true) | none => (flags false false (startAxis s x), false))
  else (s, false)
/-- The stops of a controlword: disable voltage, quick stop, shutdown and disable operation (Table 18.8). -/
def controlStops (s : State) (x : Axis) (old new : BitVec 16) : State :=
  let falls := fun (n : Nat) => old.getLsbD n && !new.getLsbD n
  if (getAx s x).start.ax == .disabled then s
  else if new.getLsbD 1 && falls 2 then requestStop s x .quick
  else if falls 1 || falls 0 || falls 3 then requestStop s x .ramp
  else s
/-- A written controlword: it acts only with SP_SRC = 2 (R391). Of an axis that another source owns only the stops act (08 R190;
log 58). -/
def controlWritten (s : State) (x : Axis) (new : BitVec 16) : State × Bool :=
  let old := (getCia s x).control
  let s1 := onCia s x (fun c => { c with control := new, ack := c.ack && new.getLsbD 4 })
  if spOwner s x ≠ 2 then (controlStops s1 x old new, false)
  else
    let r := ciaCommand s1 x old new
    let pp := (getCia s x).mode == 1 && rises old new 4
    (if pp then newTarget r.1 x (new.getLsbD 5) else r.1, r.2)
/-- A setpoint object of an axis that CAN does not own (R190). -/
def ciaForeign (s : State) (x : Axis) (i : Nat) : Bool :=
  (i == 0x607A || i == 0x60FF || i == 0x6071 || i == 0x60B1 || i == 0x60B2) && spOwner s x != 2
/-- A write of a CiA 402 object (R390, R391). -/
def ciaSet (s : State) (x : Axis) (i sub : Nat) (v : Word) (rpdo : Bool) : Except Word State :=
  let put := fun (f : Cia402 → Cia402) => Except.ok (targetWritten (onCia s x f) x i rpdo)
  let acc := fun (p : Nat) => canParWrite s (axisPar x p) (rd ((v.toNat : Rat) * canUnit s))
  if ciaForeign s x i then .error 0x08000021
  else match i with
  | 0x6040 => match controlWritten s x (v.setWidth 16) with | (t, refused) => if refused then .error 0x08000022 else .ok t
  | 0x6060 =>
    match ciaCtrl (v.setWidth 8) with
    | none => .error 0x06090030
    | some m => match canParWrite s (axisPar x Par.ctrlMode) m with
      | .ok t => .ok (onCia t x (fun c => { c with mode := v.setWidth 8 }))
      | .error e => .error e
  | 0x6007 => canParWrite s (axisPar x Par.canAbortOpt) v
  | 0x607A => put (fun c => { c with target := v })
  | 0x60FF => put (fun c => { c with velocity := v })
  | 0x6071 => put (fun c => { c with torque := v.setWidth 16 })
  | 0x60B1 => put (fun c => { c with vofs := v })
  | 0x60B2 => put (fun c => { c with tofs := v.setWidth 16 })
  | 0x6067 => put (fun c => { c with window := v })
  | 0x6068 => put (fun c => { c with windowMs := v.setWidth 16 })
  | 0x6081 => put (fun c => { c with profVel := v })
  | 0x6083 => acc Par.accMax
  | 0x6084 => acc Par.decMax
  | 0x6085 => acc Par.stopDec
  | _ => put (fun c => { c with interp :=
      if sub = 1 then (c.interp &&& 0xFF00) ||| (v &&& 0xFF).setWidth 16 else (c.interp &&& 0xFF) ||| (v.setWidth 16 <<< 8) })
/-- Bytes a PDO may carry (R389). -/
def pdoRoom (s : State) : Nat := if parD s Par.canDbr == 0 then 8 else 64
/-- Bytes of mapping entries. -/
def mapBytes (l : List Word) : Nat := l.foldl (fun (n : Nat) e => n + (e.toNat % 256) / 8) 0
/-- A mapping entry names an object a PDO of its direction may map, with its length (R389). -/
def mapOk (rx : Bool) (e : Word) : Bool :=
  match canObj (e.toNat / 65536) (e.toNat / 256 % 256) with
  | some o => o.mappable && o.writable == rx && e.toNat % 256 == o.bytes * 8
  | none => false
/-- Change of one PDO, received or transmitted. -/
def onPdo (s : State) (rx : Bool) (n : Nat) (f : Pdo → Pdo) : State :=
  if rx then { s with can.rpdo := s.can.rpdo.set n (f (pdoAt s.can.rpdo n)) } else { s with can.tpdo := s.can.tpdo.set n (f (pdoAt s.can.tpdo n)) }
/-- A list with entry k replaced, grown with zeros. -/
def putAt (l : List Word) (k : Nat) (v : Word) : List Word := ((l ++ List.replicate 16 0).take (max l.length (k + 1))).set k v
/-- Mapping entries that would be in force fit (R389); the abort codes are those of CiA 301, PRESUMED (log 57). -/
def mapSet (s : State) (rx : Bool) (n sub : Nat) (v : Word) : Except Word State :=
  let p := pdoAt (if rx then s.can.rpdo else s.can.tpdo) n
  let maps := if sub = 0 then p.maps else putAt p.maps (sub - 1) v
  let used := if sub = 0 then v.toNat else p.n
  if used > 16 ∨ used > maps.length then .error 0x06040042
  else if sub ≠ 0 && v != 0 && !mapOk rx v || sub == 0 && !(maps.take used).all (mapOk rx) then .error 0x06040041
  else if pdoRoom s < mapBytes (maps.take used) then .error 0x06040042
  else .ok (onPdo s rx n (fun p => { p with maps := maps, n := used }))
/-- Transmission types a PDO may have (R389). -/
def pdoKindOk (k : Nat) : Bool := decide (1 ≤ k) && decide (k ≤ 240) || k == 254 || k == 255
/-- A write of a communication object (R388, R389). -/
def commSet (s : State) (i sub : Nat) (v : Word) : Except Word State :=
  let n := i % 8
  let comm := fun (rx : Bool) =>
    if sub = 1 then Except.ok (onPdo s rx n (fun p => { p with cob := v }))
    else if pdoKindOk v.toNat then .ok (onPdo s rx n (fun p => { p with kind := v.setWidth 8, count := 0 })) else .error 0x06090030
  match i with
  | 0x1005 => .ok { s with can.syncCob := v }
  | 0x1006 => .ok { s with can.syncPeriod := v }
  | 0x1014 => .ok { s with can.emcyCob := some v }
  | 0x1015 => .ok { s with can.emcyInhibit := v.setWidth 16 }
  | 0x1016 => .ok { s with can.hbConsumer := v, can.hbRunning := false }
  | 0x1017 => .ok { s with can.hbProducer := v.setWidth 16 }
  | _ => if i < 0x1600 then comm true else if i < 0x1800 then mapSet s true n sub v
         else if i < 0x1A00 then comm false else mapSet s false n sub v
/-- A write of an object that exists and has the written length. -/
def canSet (s : State) (i sub : Nat) (v : Word) (rpdo : Bool) : Except Word State :=
  match canObj i sub with
  | none => .error (if canIndexKnown i then 0x06090011 else 0x06020000)
  | some o =>
    match o.par with
    | some k => canParWrite s k v
    | none =>
      if !o.writable then .error 0x06010002
      else match ciaIndex i with
        | some (x, k) => ciaSet s x k sub v rpdo
        | none => commSet s i sub v
/-- The reply of an SDO request (R393, R394): the abort code, or what it read. -/
def sdoAnswer (s : State) (r : SdoReq) : State × Option Word × Word :=
  let i := r.index.toNat
  if s.mbx.long.isSome then (s, some 0x08000020, 0)
  else match canObj i r.sub.toNat with
    | none => (s, some (if canIndexKnown i then 0x06090011 else 0x06020000), 0)
    | some o =>
      if !r.write then (s, none, canGet s i r.sub.toNat)
      else if o.writable && r.size ≠ o.bytes then (s, some 0x06070010, 0)
      else match canSet s i r.sub.toNat (if r.size < 4 then r.data &&& BitVec.ofNat 32 (256 ^ r.size - 1) else r.data) false with
        | .ok t => (t, none, 0)
        | .error e => (s, some e, 0)
/-- CAN_SDO (R393, R394): served in Pre-operational and Operational. PRESUMED (log 57): CiA 301 serves no SDO in Stopped. -/
def execCanSdo (r : SdoReq) (s : State) : Out :=
  let a := sdoAnswer s r
  when_ s (canAlive s && thoevoUp s && s.can.nmt != .stopped) { a.1 with can.sdoReply := some (a.2.1, a.2.2) }

/-! PDOs and SYNC (R389). -/

/-- PDOs act in Operational while the controller is on the bus (R388). -/
def pdoActive (s : State) : Bool := canAlive s && thoevoUp s && s.can.nmt == .operational
/-- The parts a PDO's data divide into: index, sub-index and value, in mapping order. -/
def pdoParts : List Word → List Byte → List (Nat × Nat × Word)
  | [], _ => []
  | e :: es, data =>
    let n := (e.toNat % 256) / 8
    (e.toNat / 65536, e.toNat / 256 % 256, BitVec.ofNat 32 (leVal (data.take n))) :: pdoParts es (data.drop n)
/-- A part is a controlword. -/
def isControl (p : Nat × Nat × Word) : Bool := match ciaIndex p.1 with | some (_, k) => k == 0x6040 | none => false
/-- The mapped objects take the data: the controlwords last, so that they act on what came with them (log 59); an entry that is
refused has no effect. -/
def applyPdo (s : State) (p : Pdo) (data : List Byte) : State :=
  let parts := pdoParts (p.maps.take p.n) data
  let one := fun (t : State) (q : Nat × Nat × Word) => match canSet t q.1 q.2.1 q.2.2 true with | .ok u => u | .error _ => t
  (parts.filter isControl).foldl one ((parts.filter (fun q => !isControl q)).foldl one s)
/-- CAN_RPDO (R389): a synchronous one is kept for the next SYNC, an event-driven one acts at once. -/
def execCanRpdo (n : Fin 8) (data : List (BitVec 8)) (t : Nat) (s : State) : Out :=
  let p := pdoAt s.can.rpdo n.val
  let s1 := at_ s t
  when_ s (pdoActive s && !p.cob.getLsbD 31 && decide (mapBytes (p.maps.take p.n) ≤ data.length))
    (if p.kind.toNat ≤ 240 then onPdo s1 true n.val (fun p => { p with stored := some data }) else applyPdo s1 p data)
/-- What the SYNC finds stored acts. -/
def applyStored (s : State) (n : Nat) : State :=
  let p := pdoAt s.can.rpdo n
  match p.stored with
  | some data => applyPdo (onPdo s true n (fun p => { p with stored := none })) p data
  | none => s
/-- The cycle of an axis that ends with a SYNC: its target, or a missed cycle (R389, R193). -/
def syncAxis (now : Nat) (s : State) (x : Axis) : State :=
  let a := getAx s x
  let c := getCia s x
  if spOwner s x ≠ 2 || !ciaCyclic c.mode then s
  else if c.fresh then giveCyclic (onCia s x (fun c => { c with fresh := false })) x now (now + spOfs s x) (ciaSetpoint s x c.mode)
  else if a.sp.src == 2 && s.can.syncAt.isSome then missCycle s x
  else s
/-- Data of a transmit PDO. -/
def pdoData (s : State) (p : Pdo) : List Byte :=
  (p.maps.take p.n).flatMap (fun (e : Word) => leBytes ((e.toNat % 256) / 8) (canGet s (e.toNat / 65536) (e.toNat / 256 % 256)).toNat)
/-- A synchronous transmit PDO is sent every n-th SYNC (R389). -/
def syncTpdo (s : State) (n : Nat) : State :=
  let p := pdoAt s.can.tpdo n
  if p.cob.getLsbD 31 || decide (240 < p.kind.toNat) then s
  else if p.count + 1 < p.kind.toNat then onPdo s false n (fun p => { p with count := p.count + 1 })
  else canSend (onPdo s false n (fun p => { p with count := 0 })) (p.cob.toNat % 2048) (pdoData s p)
/-- CAN_SYNC (R389; 08 R191, R193). -/
def execCanSync (t : Nat) (s : State) : Out :=
  let s1 := at_ s t
  let act := s.can.nmt == .operational
  let s2 := if act then (List.range 8).foldl applyStored s1 else s1
  let s3 := bothAxes.foldl (syncAxis (gptpNow s1)) s2
  let s4 := if act then (List.range 8).foldl syncTpdo s3 else s3
  when_ s (canAlive s && thoevoUp s) { s4 with can.syncAt := some t }

/-! NMT, heartbeat, error states (R387, R388, R392). -/

/-- The master of an axis in a profile mode is lost: CAN_ABORT_OPT acts (R392). -/
def masterLost (s : State) (x : Axis) : State :=
  let a := getAx s x
  let m := (getCia s x).mode
  if a.start.ax = .disabled || a.sp.src != 2 || !(m == 1 || m == 3 || m == 4) then s
  else match (parX s x Par.canAbortOpt).toNat with
    | 1 => raise0 s 0x4D09 (scopeOf x) noDetail
    | 2 => requestStop s x .ramp
    | 3 => requestStop s x .quick
    | _ => s
/-- The same for both axes. -/
def mastersLost (s : State) : State := masterLost (masterLost s .a) .b
/-- The NMT state changes; leaving Operational loses the master (R392). -/
def nmtTo (s : State) (n : Nmt) : State :=
  let s1 := { s with can.nmt := n }
  if s.can.nmt == .operational && n != .operational then mastersLost s1 else s1
/-- An NMT start in HOLD is a request for READY (03 Table 3.7; log 53). -/
def nmtStart (s : State) : State :=
  let s1 := nmtTo s .operational
  if s.pwr.base == .hold && !s.pwr.noPlacement && s.boot.service == .none then toReady s1 else s1
/-- The EMCY of a reset that is ignored: the spec names no code for it, so the code is a free one of a reported class (R388, 00 R11; log 3). -/
def resetIgnored (s : State) : State :=
  let f := freeWord s
  sendEmcy f.2 (freeCode f.1) 0 noDetail
/-- CAN_NMT (R388). -/
def execCanNmt (c : NmtCommand) (node : BitVec 8) (s : State) : Out :=
  let mine := node == 0 || node.toNat == canNodeId s
  when_ s (canAlive s && thoevoUp s && mine)
    (match c with
     | .start => nmtStart s
     | .stop => nmtTo s .stopped
     | .preOperational => nmtTo s .preOperational
     | .resetNode => if anyRun s then resetIgnored s else if s.mbx.long.isSome then s else commandedReset s
     | .resetComm => { canStart (nmtTo s .preOperational) with can.err := s.can.err })
/-- State byte of a heartbeat. -/
def nmtByte : Nmt → Byte | .preOperational => 0x7F | .operational => 5 | .stopped => 4
/-- CAN_HEARTBEAT_PRODUCE (R388). -/
def execCanHeartbeatProduce (s : State) : Out :=
  when_ s (canAlive s && thoevoUp s && s.can.hbProducer != 0) (canSend s (0x700 + canNodeId s) [nmtByte s.can.nmt])
/-- CAN_HEARTBEAT_RECEIVE (R388): the consumer time of the monitored node runs anew. -/
def execCanHeartbeatReceive (node : BitVec 8) (s : State) : Out :=
  let h := s.can.hbConsumer.toNat
  when_ s (canAlive s && node != 0 && node.toNat == h / 65536 % 128 && h % 65536 != 0) { s with can.hbRunning := true }
/-- CAN_HEARTBEAT_TIMEOUT (R392). -/
def execCanHeartbeatTimeout (s : State) : Out :=
  when_ s (canAlive s && s.can.hbRunning) (mastersLost { s with can.hbRunning := false })
/-- CAN_ERROR_PASSIVE (R387). -/
def execCanErrorPassive (s : State) : Out :=
  when_ s (s.can.on && s.can.err == .active) (raise0 { s with can.err := .passive } 0x2D06 0 noDetail)
/-- CAN_ERROR_ACTIVE_RETURN (R387). -/
def execCanErrorActiveReturn (s : State) : Out :=
  when_ s (s.can.on && s.can.err == .passive) { s with can.err := .active }
/-- CAN_BUSOFF (R387, R392). -/
def execCanBusoff (s : State) : Out :=
  when_ s (s.can.on && s.can.err != .busOff)
    (mastersLost (raise0 { s with can.err := .busOff, can.busoff := s.can.busoff + 1 } 0x2D07 0 noDetail))
/-- CAN_BUSOFF_RECOVERY (R387). -/
def execCanBusoffRecovery (s : State) : Out :=
  when_ s (s.can.on && s.can.err == .busOff) { s with can.err := .active }

end Sys2Proof.Machine
end

