-- ==== Sys2Proof/Machine/Scarp.lean ====
section
/-!
DEFINITION. Scarp trips, blanking and comparator self-test (chapter 05).
-/

namespace Sys2Proof.Machine
open Sys2Proof

/-- The domains that hold the comparators and latches are powered: HOLD, READY and RUN (03 Table 3.6). -/
def scarpOn (s : State) : Bool := thoevoUp s && !s.sum.pfCommit && s.boot.service == .none

/-- A comparator trips outside its blanking (05 R103, R109): its raw level is active. -/
def cmpTrip (s : State) (n : Nat) (stays : Bool) : State :=
  let s1 := setRaw s n stays
  if n = 17 ∨ s.scarp.latch.getLsbD n then s1 else scarpFire s1 n 0

/-- A trip input acts at a tick (05 R111). -/
def atTick (s : State) (tick : Nat) : State := { at_ s (tick / 4) with scarp.tick := tick }
/-- SCARP_TRIP (R106, R108 to R110): a crossing outside every window of the comparator. -/
def execScarpTrip (cmp : Fin 24) (stays : Bool) (tick : Nat) (s : State) : Out :=
  when_ s (scarpOn s && !windowOpen s cmp.val tick) (cmpTrip (atTick s tick) cmp.val stays)

/-- SCARP_DIGITAL_TRIP (R109, R110): sources 24 to 31; `stays` says whether VGD stays below its 5.2 V. -/
def execScarpDigitalTrip (src : DigitalSource) (l : Leg) (stays : Bool) (tick : Nat) (s : State) : Out :=
  let s0 := atTick s tick
  match src with
  | .bootUv x =>
    when_ s (scarpOn s) (scarpFire (onLeg s0 x l (fun g => { g with bootLow := true, bootLowAt := s0.clk.now })) (24 + axisNo x) (legIdx x l))
  | .vgdUv => when_ s (scarpOn s && !stoHolds s) (scarpFire (setRaw s0 26 stays) 26 0)
  | .junction x =>
    let n := axisNo x * 6 + legNo l
    let s1 := { s0 with th.sensors := s0.th.sensors.modify n (fun t => { t with trip := true }) }
    when_ s (scarpOn s) (scarpFire s1 (27 + axisNo x) (BitVec.ofNat 8 n))
  | .powerFail => when_ s (scarpOn s) (powerFailSeq s0 false)
  | .software x => when_ s (scarpOn s) (scarpFire s0 (30 + axisNo x) 0)

/-- BLANK_WINDOW_CLOSE (R108): an excursion inside the window counts in BLANK_HIT; one still active at the close
trips. -/
def execBlankWindowClose (cmp : Fin 24) (crossed active : Bool) (tick : Nat) (s : State) : Out :=
  let s0 := atTick s tick
  when_ s (scarpOn s && windowCloses s cmp.val tick)
    (if active then cmpTrip s0 cmp.val true
     else if crossed then
       { setRaw s0 cmp.val false with
         scarp.blankHit := s0.scarp.blankHit.modify cmp.val (fun b => if b = 0xFF then b else b + 1) }
     else setRaw s0 cmp.val false)

/-- CMP_SELFTEST_TICK (R114, R115): the next comparator is tested. -/
def execCmpSelftestTick (activeDuring inactiveAfter : Bool) (s : State) : Out :=
  when_ s (scarpOn s && parD s Par.cmpTestPeriod != 0)
    (cmpTested (fun _ => !(activeDuring && inactiveAfter)) { s with scarp.nextTest := s.scarp.nextTest + 1 } s.scarp.nextTest.val)

/-- NL_HOLDOVER_EXPIRY (R99): the trim stays frozen. -/
def execNlHoldoverExpiry (x : Axis) (s : State) : Out :=
  when_ s ((getAx s x).pwm.nl == .holdover)
    (raise0 (onAx s x (fun a => { a with pwm.nl := .wait })) 0x2303 (scopeOf x) noDetail)

end Sys2Proof.Machine
end

