-- ==== Sys2Proof/Machine/Sto.lean ====
section
/-!
DEFINITION. Safe torque off (chapter 04 R83 to R86; 03 R57).
-/

namespace Sys2Proof.Machine
open Sys2Proof

/-- The low level on an STO input qualifies: 1 ms removes gate supply, below 500 µs it never does, between the two
either may occur (04 R84). -/
def stoQualifies (s : State) (lowUs : Nat) : Bool :=
  decide (1000 ≤ lowUs) || (decide (500 ≤ lowUs) && Config.stoPulseRemoves s.clk.free)

/-- STO_REMOVE (R83, R84; 03 R57; 12 R274): gate supply goes, brakes engage, every axis leaves RUN, SAFE sets. -/
def execStoRemove (sto1Low sto2Low : Bool) (lowUs : Nat) (s : State) : Out :=
  let s0 := { s with sto.in1Low := sto1Low, sto.in2Low := sto2Low, sto.highSeen := false,
                     clk.free := if 1000 ≤ lowUs then s.clk.free else s.clk.free + 1 }
  let s1 := bothAxes.foldl (fun t x => abandonMotor (onAx t x (fun a =>
      { (if a.start.ax = .disabled then gatesOff (brakeOff a) else disableAxis (brakeOff a)) with stage.vgdOn := false })) x) s0
  when_ s (s.sum.on && (sto1Low || sto2Low) && stoQualifies s lowUs)
    (if thoevoUp s then setSafe s1 else { s1 with pwr.safe := true })

/-- STO_RESTORE (R86; 03 R57): both inputs high for 1 ms; SAFE clears once the gate supply of every powered gate domain
is back, or on the inputs alone where none is powered. -/
def execStoRestore (highUs : Nat) (supplyBack : Bool) (s : State) : Out :=
  let s0 := { s with sto.in1Low := false, sto.in2Low := false, sto.highSeen := true, sto.discrepancy := false }
  let powered := isReady s && (hosted s .a || hosted s .b)
  let s1 := if isReady s && supplyBack then setRaw (powerGates s0) 26 false else s0
  when_ s (s.sum.on && decide (1000 ≤ highUs))
    (if powered && !supplyBack then s1
     else { endCause s1 0x6A01 0 noDetail with pwr.safe := false })

/-- STO_DISCREPANCY_TIMEOUT (R86): the filtered inputs differed for longer than STO_DISC_TIME. -/
def execStoDiscrepancyTimeout (sto1 sto2 : Bool) (s : State) : Out :=
  when_ s (thoevoUp s && sto1 != sto2)
    (raise1 { s with sto.discrepancy := true, sto.highSeen := false } 0x4207 0 noDetail)

end Sys2Proof.Machine
end

