-- ==== Sys2Proof/Machine/Supply.lean ====
section
/-!
DEFINITION. Supply, hot-swap controller, power fail, wake, RESET_N and watchdog (chapter 03; 21 R430, R431).
-/

namespace Sys2Proof.Machine
open Sys2Proof

/-- The input lies in the plug window, 36 V to 75 V (03 Table 3.1). -/
def inWindow (mv : Nat) : Bool := decide (36000 ≤ mv) && decide (mv ≤ 75000)
/-- Summit holds a code for the next boot's log (03 R45). -/
def hold (s : State) (code : BitVec 16) : State := { s with sum.held := s.sum.held ++ [⟨code, 0, 0xFF⟩] }

/-- SUMMIT_START (R39): Summit runs with the defaults of its parameters (R60). -/
def execSummitStart (inMv vmMv : Nat) (s : State) : Out :=
  when_ s (!s.sum.on && decide (12000 ≤ max inMv vmMv))
    { s with sum := { on := true, inMv := inMv, vmMv := vmMv },
             par := s.par.filter (fun p => !summitHeld p.1), inForce := s.inForce.filter (fun p => !summitHeld p.1) }

/-- SUMMIT_RESET (R39): Summit and everything it powers and holds is lost; the drive is in OFF. -/
def execSummitReset (inMv vmMv : Nat) (s : State) : Out :=
  let r := resetSys s
  when_ s (s.sum.on && decide (max inMv vmMv < 6000))
    { r with sum := { inMv := inMv, vmMv := vmMv }, pwr := { resetSrc := s.pwr.resetSrc }, mbx := {}, par := [], inForce := [] }

/-- A plug qualification may start: after a power fail not until the input has fallen below VM_PF, and in STANDBY only as the
enabled VM-return wake (R55, R56). -/
def mayPlug (s : State) : Bool :=
  let woken := s.pwr.base != .standby || s.pwr.boot.isSome
  !s.sum.pfCommit && (woken || (s.sum.pfStandby && (parD s Par.wakeEn).getLsbD 2)) && (!s.sum.pfStandby || s.sum.fellBelowPf)

/-- PLUG_WINDOW_ENTRY (R44): the debounce starts; during the delay before a retry the input is only noted (R45). -/
def execPlugWindowEntry (inMv : Nat) (s : State) : Out :=
  let waits := s.sum.hsw == .retryWait
  when_ s (s.sum.on && inWindow inMv && (waits || (mayPlug s && (s.sum.hsw == .outside || (s.sum.hsw == .strapped && !s.sum.buck)))))
    { s with sum.inMv := inMv, sum.ovRaised := false, sum.hsw := if waits then .retryWait else .debounce }

/-- PLUG_DEBOUNCE_EXPIRY (R44, R47): the gate probe of Table 3.3a, then the ramp, the wait for VM to decay, or the end
of the attempt. -/
def execPlugDebounceExpiry (probe : ProbeResult) (inMv vmMv : Nat) (s : State) : Out :=
  let present := parD s Par.hswPresent == 1
  let s0 := { s with sum.inMv := inMv, sum.vmMv := vmMv, sum.present := present }
  when_ s (s.sum.on && s.sum.hsw == .debounce && inWindow inMv && mayPlug s)
    (match probe with
     | .mosfetPair =>
       if present then
         if inMv + 1000 < vmMv then { s0 with sum.hsw := .decayWait }
         else { s0 with sum.hsw := .ramp, sum.hswG := true }
       else hold { s0 with sum.hsw := .undeclared } 0x410D
     | .strap =>
       let s1 := { s0 with sum.hsw := .strapped, sum.hswG := false, sum.present := false,
                           par := parPut s.par Par.hswPresent 0, inForce := parPut s.inForce Par.hswPresent 0 }
       if present then hold s1 0x110C else s1
     | .nothing => hold { s0 with sum.hsw := .noFet } 0x410A)

/-- PLUG_WINDOW_EXIT (R44, R45): the debounce or the attempt ends without counting; above 75 V with WARN 0x2104 once
for the excursion. -/
def execPlugWindowExit (inMv : Nat) (s : State) : Out :=
  let s1 := if s.sum.hsw == .retryWait then { s with sum.inMv := inMv }
    else { s with sum.inMv := inMv, sum.hsw := .outside, sum.hswG := false }
  let runs := s.sum.hsw == .debounce || s.sum.hsw == .ramp || s.sum.hsw == .decayWait
  when_ s (s.sum.on && !inWindow inMv && (runs || s.sum.hsw == .retryWait))
    (if 75000 < inMv ∧ !s.sum.ovRaised then hold { s1 with sum.ovRaised := true } 0x2104 else s1)

/-- POWER_GOOD (R44): MOSFETs fully on, the buck starts where it does not run, and the boot begins: source 6 out of STANDBY as
the VM-return wake (R56), 2 where a release of RESET_N waited for the supply, else 1 (Table 21.1). With RESET_N low the
boot waits for its release; a drive that already runs from the DC link is only connected. -/
def execPowerGood (inMv vmMv : Nat) (s : State) : Out :=
  let near := decide (inMv ≤ vmMv + 1000) && decide (vmMv ≤ inMv + 1000)
  let ramped := (s.sum.hsw == .ramp || s.sum.hsw == .decayWait) && near && inWindow inMv
  let strapped := s.sum.hsw == .strapped && !s.sum.buck
  let s1 := { s with sum.inMv := inMv, sum.vmMv := vmMv, sum.fails := 0, sum.buck := true,
                     sum.hsw := if strapped then .strapped else .on, sum.hswG := !strapped, sum.fellBelowPf := false,
                     sum.pfStandby := false, sum.resetBoot := false }
  when_ s (s.sum.on && (ramped || strapped))
    (if s.sum.buck || s.sum.resetLow then s1
     else if s.pwr.base == .standby then startBoot (if s.sum.wakeSrc.getLsbD 2 then s1 else noteWake s1 4) 6
     else if s.sum.resetBoot then startBoot s1 2
     else startBoot s1 1)

/-- A connection attempt fails (R45): WARN 0x2105, then a retry, or STOP 0x4106 after the last. -/
def attemptFail (s : State) : State :=
  let n := s.sum.fails + 1
  let s1 := hold { s with sum.fails := n, sum.hswG := false } 0x2105
  if (parD s Par.hswRetries).toNat < n then hold { s1 with sum.hsw := .latched } 0x4106 else { s1 with sum.hsw := .retryWait }

/-- HSW_SOA_TIMEOUT (R45). -/
def execHswSoaTimeout (s : State) : Out :=
  when_ s (s.sum.on && (s.sum.hsw == .ramp || s.sum.hsw == .decayWait)) (attemptFail s)

/-- Sense voltage against k × HSW_CB_THR, in µV. -/
def senseAt (s : State) (k : Rat) (senseUv : Nat) : Rat := (senseUv : Rat) - k * fval (parD s Par.hswCbThr) * 1000

/-- HSW_RAMP_FAST_TRIP (R45): the sense voltage reaches twice HSW_CB_THR during the ramp. -/
def execHswRampFastTrip (senseUv : Nat) (s : State) : Out :=
  when_ s (s.sum.on && s.sum.hsw == .ramp && decide (0 ≤ senseAt s 2 senseUv)) (attemptFail s)

/-- HSW_RETRY_DELAY_EXPIRY (R45): a new attempt with a new debounce, once the input is inside the window. -/
def execHswRetryDelayExpiry (s : State) : Out :=
  when_ s (s.sum.on && s.sum.hsw == .retryWait)
    { s with sum.hsw := if inWindow s.sum.inMv then .debounce else .outside }

/-- The breaker trips (R46): TRIP 0x5107, then the power-fail sequence at once. -/
def breaker (s : State) : State := powerFailSeq (if thoevoUp s then raise0 s 0x5107 0 noDetail else hold s 0x5107) false

/-- HSW_CB_TRIP (R46). -/
def execHswCbTrip (senseUv : Nat) (s : State) : Out :=
  when_ s (s.sum.on && s.sum.hsw == .on && !s.sum.pfCommit && decide (0 < senseAt s 1 senseUv)) (breaker s)

/-- HSW_CB_FAST_TRIP (R46): above twice HSW_CB_THR in either direction. -/
def execHswCbFastTrip (senseUv : Nat) (s : State) : Out :=
  when_ s (s.sum.on && s.sum.hsw == .on && !s.sum.pfCommit && decide (0 < senseAt s 2 senseUv)) (breaker s)

/-- POWER_FAIL (R48): the input falls below VM_PF. -/
def execPowerFail (inMv : Nat) (s : State) : Out :=
  let s1 := { s with sum.inMv := inMv, sum.fellBelowPf := true }
  when_ s (s.sum.on && decide ((inMv : Rat) < fval (parD s Par.vmPf) * 1000))
    (if s.sum.pfCommit || (s.pwr.base == .standby && s.sum.pfStandby && s.pwr.boot.isNone) then s1
     else if s.pwr.base == .off && s.pwr.boot.isNone && s.boot.service == .none then s1
     else powerFailSeq s1 true)

/-- RESET_N is released (21 R430, Table 21.1): the boot of source 2 begins, from a VM the buck can run from; else at power
good. -/
def resetRelease (s : State) : State :=
  let s1 := { s with sum.resetLow := false }
  if s.sum.buck || buckCan s then startBoot { s1 with sum.buck := true } 2 else { s1 with sum.resetBoot := true }

/-- POWER_FAIL_COMMIT_DONE (R48, R50; Table 3.9; 21 Table 21.6): the commit ends in STANDBY; what waited for it acts. -/
def execPowerFailCommitDone (complete : Bool) (s : State) : Out :=
  let c := if complete then { commitState s with nv.pfOpen := false }
           else writeLog { s with flt.logPending := s.flt.logPending.dropLast }
  let r := enterStandby { c with sum.commitOk := complete } true
  let r := { r with sum := { r.sum with resetPending := false, resetReleased := false, wdogWait := false, wakeLatched := 0 } }
  -- a VM return seen during the commit starts its plug qualification now
  let back := s.sum.wakeLatched.getLsbD 2 && inWindow s.sum.inMv && (r.sum.hsw == .outside || r.sum.hsw == .strapped)
  let r := if back then { r with sum.hsw := .debounce } else r
  when_ s s.sum.pfCommit
    (if s.sum.wdogWait then startBoot { r with sum.buck := true } 4
     else if s.sum.resetPending then
       let q := { r with sum.resetLow := true, pwr.base := .off, pwr.resetSrc := 2 }
       if s.sum.resetReleased then resetRelease q else q
     else if s.sum.wakeLatched &&& 3 != 0 && buckCan r then wake r (s.sum.wakeLatched &&& 3)
     else r)

/-- VM is below 12 V: the buck stops and every domain but PD_SUM loses power; a commit is not finished (R42, R48). With no
commit the drive waits for a new plug sequence (log 116). -/
def buckStop (s : State) : State :=
  if s.sum.pfCommit then
    enterStandby { writeLog { s with flt.logPending := s.flt.logPending.dropLast } with sum.commitOk := false } true
  else
    let r := resetSys s
    { r with pwr := { r.pwr with base := .off },
             sum := { s.sum with buck := false, hswG := false, out5.on := false, out3.on := false,
                                 hsw := if s.sum.hsw == .strapped then .strapped else .outside } }

/-- VM_LOW_TIMEOUT (R40): VM below 36 V for 1 ms; below 12 V the buck stops as well (R42). -/
def execVmLowTimeout (vmMv : Nat) (s : State) : Out :=
  let s1 := raise { s with sum.vmMv := vmMv } 0x2102 0 noDetail (frnd (milli vmMv)) false
  when_ s (thoevoUp s && decide (vmMv < 36000)) (if vmMv < 12000 then buckStop s1 else s1)

/-- VM_UV_RECOVERY_TIMEOUT (R41): 0x5101 becomes clearable. -/
def execVmUvRecoveryTimeout (vmMv : Nat) (s : State) : Out :=
  let s1 := setRaw (setRaw { s with sum.vmMv := vmMv } 13 false) 15 false
  when_ s (decide ((fval (parD s Par.vmUv) + fval (parD s Par.vmUvHyst)) * 1000 < (vmMv : Rat)))
    (endCause (endCause s1 0x5101 0 0) 0x5101 0 1)

/-- OUTPUT_OVERLOAD_TIMEOUT (R43): the output switches off until its enable is written or READY is entered. -/
def execOutputOverloadTimeout (out : SupplyOut) (s : State) : Out :=
  match out with
  | .v5 => when_ s s.sum.out5.on (raise0 { s with sum.out5 := ⟨false, true⟩ } 0x2108 0 noDetail)
  | .v3 => when_ s s.sum.out3.on (raise0 { s with sum.out3 := ⟨false, true⟩ } 0x2109 0 noDetail)

/-- A wake event of STANDBY; one during the power-fail commit is latched (R55, R58). -/
def wakeEvent (s : State) (w : WakeSource) : State :=
  if !(parD s Par.wakeEn &&& (wakeBit w).setWidth 32 != 0) then s
  else if s.sum.pfCommit then { s with sum.wakeLatched := s.sum.wakeLatched ||| wakeBit w }
  else if s.pwr.base == .standby && s.pwr.boot.isNone && buckCan s then wake s (wakeBit w)
  else s

/-- WAKE_PAD_EDGE (R55, Table 3.7; 02 R32): wakes STANDBY where enabled; moves HOLD to READY unless NO_PLACEMENT. -/
def execWakePadEdge (stableNs : Nat) (s : State) : Out :=
  when_ s (s.sum.on && filtPass (parD s Par.wakeFilt) stableNs)
    (if s.pwr.base == .hold && s.pwr.boot.isNone && !s.sum.pfCommit then
       if s.pwr.noPlacement || s.boot.service != .none then s else toReady s
     else wakeEvent s .wakePad)

/-- HSP_CS_N_WAKE (R55): wakes STANDBY where enabled; the frame is not served. -/
def execHspCsNWake (stableNs : Nat) (s : State) : Out :=
  when_ s (s.sum.on && filtPass (parD s Par.csFilt) stableNs) (wakeEvent s .csN)

/-- VM_RETURN_WAKE (R55, R56): the input re-qualified after its fall below VM_PF; the boot follows the reconnection. -/
def execVmReturnWake (inMv : Nat) (s : State) : Out :=
  let ok := s.sum.on && (parD s Par.wakeEn).getLsbD 2 && inWindow inMv
  let noted := if s.sum.wakeSrc.getLsbD 2 then { s with sum.inMv := inMv } else noteWake { s with sum.inMv := inMv } 4
  if ok && s.sum.pfCommit then
    when_ s s.sum.fellBelowPf { s with sum.inMv := inMv, sum.wakeLatched := s.sum.wakeLatched ||| 4 }
  else when_ s (ok && s.pwr.base == .standby && s.pwr.boot.isNone && s.sum.pfStandby && s.sum.fellBelowPf &&
      (s.sum.hsw == .ramp || s.sum.hsw == .decayWait || s.sum.hsw == .strapped)) noted

/-- RESET_N_ASSERT (21 R430; 03 R50): everything but PD_SUM is reset; a commit in progress completes first; a latched
hot-swap controller is re-armed (03 R45). -/
def execResetNAssert (stableNs : Nat) (s : State) : Out :=
  let r := resetSys (cutLong s)
  when_ s (s.sum.on && !s.sum.resetLow && filtPass (parD s Par.resetFilt) stableNs)
    (if s.sum.pfCommit then { s with sum.resetPending := true, sum.resetReleased := false }
     else { r with pwr := { r.pwr with base := .off, resetSrc := 2 },
                   sum := { s.sum with resetLow := true, fails := 0, hsw := if s.sum.hsw == .latched then .outside else s.sum.hsw,
                                       out5 := ⟨false, false⟩, out3 := ⟨false, false⟩, wdogWait := false } })

/-- RESET_N_RELEASE (21 R430; 03 R50): the boot with source 2 begins; a release while RESET_N waits for a commit acts with
it. -/
def execResetNRelease (stableNs : Nat) (s : State) : Out :=
  when_ s (s.sum.on && filtPass (parD s Par.resetFilt) stableNs && (s.sum.resetLow || (s.sum.pfCommit && s.sum.resetPending)))
    (if s.sum.resetLow then resetRelease s else { s with sum.resetReleased := true })

/-- WATCHDOG_SERVICE (21 R431): the 100 ms count restarts. -/
def execWatchdogService (s : State) : Out :=
  when_ s (s.sum.on && thoevoUp s) { s with sum.wdogServed := s.sum.wdogServed + 1 }

/-- WATCHDOG_EXPIRY (21 R431, Table 21.6): reset with source 4, at once when no axis switches and no commit runs. -/
def execWatchdogExpiry (s : State) : Out :=
  when_ s (s.sum.on && (thoevoUp s || s.sum.pfCommit)) { s with sum.wdogWait := true }

/-- WATCHDOG_RESET_DELAY_EXPIRY (21 R431): STOP_TMAX + 100 ms passed with an axis still switching. -/
def execWatchdogResetDelayExpiry (s : State) : Out :=
  when_ s (s.sum.wdogWait && !s.sum.pfCommit) (startBoot { s with sum.wdogWait := false } 4)

end Sys2Proof.Machine
end

