-- ==== Sys2Proof/Machine/Dispatch.lean ====
section
/-!
DEFINITION. The meaning of every command, arm by arm, in the order of the table of operations and events.
-/

namespace Sys2Proof.Machine
open Sys2Proof

/-- The effect of a command on everything but the queue. -/
def exec (i : Instr) (s : State) : Host.Outcome State Fault Refusal :=
  match i with
  | .summitStart inMv vmMv => Sys2Proof.Machine.execSummitStart inMv vmMv s
  | .summitReset inMv vmMv => Sys2Proof.Machine.execSummitReset inMv vmMv s
  | .plugWindowEntry inMv => Sys2Proof.Machine.execPlugWindowEntry inMv s
  | .plugDebounceExpiry probe inMv vmMv => Sys2Proof.Machine.execPlugDebounceExpiry probe inMv vmMv s
  | .plugWindowExit inMv => Sys2Proof.Machine.execPlugWindowExit inMv s
  | .powerGood inMv vmMv => Sys2Proof.Machine.execPowerGood inMv vmMv s
  | .hswSoaTimeout => Sys2Proof.Machine.execHswSoaTimeout s
  | .hswRampFastTrip senseUv => Sys2Proof.Machine.execHswRampFastTrip senseUv s
  | .hswRetryDelayExpiry => Sys2Proof.Machine.execHswRetryDelayExpiry s
  | .hswCbTrip senseUv => Sys2Proof.Machine.execHswCbTrip senseUv s
  | .hswCbFastTrip senseUv => Sys2Proof.Machine.execHswCbFastTrip senseUv s
  | .powerFail inMv => Sys2Proof.Machine.execPowerFail inMv s
  | .powerFailCommitDone complete => Sys2Proof.Machine.execPowerFailCommitDone complete s
  | .vmLowTimeout vmMv => Sys2Proof.Machine.execVmLowTimeout vmMv s
  | .vmUvRecoveryTimeout vmMv => Sys2Proof.Machine.execVmUvRecoveryTimeout vmMv s
  | .outputOverloadTimeout out => Sys2Proof.Machine.execOutputOverloadTimeout out s
  | .wakePadEdge stableNs => Sys2Proof.Machine.execWakePadEdge stableNs s
  | .hspCsNWake stableNs => Sys2Proof.Machine.execHspCsNWake stableNs s
  | .vmReturnWake inMv => Sys2Proof.Machine.execVmReturnWake inMv s
  | .resetNAssert stableNs => Sys2Proof.Machine.execResetNAssert stableNs s
  | .watchdogExpiry => Sys2Proof.Machine.execWatchdogExpiry s
  | .bootComplete b flash => Sys2Proof.Machine.execBootComplete b flash s
  | .slotBackgroundVerifyDone image => Sys2Proof.Machine.execSlotBackgroundVerifyDone image s
  | .stoRemove sto1Low sto2Low lowUs => Sys2Proof.Machine.execStoRemove sto1Low sto2Low lowUs s
  | .stoRestore highUs supplyBack => Sys2Proof.Machine.execStoRestore highUs supplyBack s
  | .stoDiscrepancyTimeout sto1 sto2 => Sys2Proof.Machine.execStoDiscrepancyTimeout sto1 sto2 s
  | .periodBoundary x sense => Sys2Proof.Machine.execPeriodBoundary x sense s
  | .chainEnd x cycles => Sys2Proof.Machine.execChainEnd x cycles s
  | .commitPoint x peak => Sys2Proof.Machine.execCommitPoint x peak s
  | .bootRefreshPulse x l => Sys2Proof.Machine.execBootRefreshPulse x l s
  | .switchNodeEdge x l rising soft instant sinceGateOff => Sys2Proof.Machine.execSwitchNodeEdge x l rising soft instant sinceGateOff s
  | .edgeMissing x l rising commanded => Sys2Proof.Machine.execEdgeMissing x l rising commanded s
  | .nlHoldoverExpiry x => Sys2Proof.Machine.execNlHoldoverExpiry x s
  | .scarpTrip cmp stays tick => Sys2Proof.Machine.execScarpTrip cmp stays tick s
  | .scarpDigitalTrip src l stays tick => Sys2Proof.Machine.execScarpDigitalTrip src l stays tick s
  | .blankWindowClose cmp crossed active tick => Sys2Proof.Machine.execBlankWindowClose cmp crossed active tick s
  | .cmpSelftestTick activeDuring inactiveAfter => Sys2Proof.Machine.execCmpSelftestTick activeDuring inactiveAfter s
  | .legAutoBypass x pulseMa => Sys2Proof.Machine.execLegAutoBypass x pulseMa s
  | .legBypassRampEnd x => Sys2Proof.Machine.execLegBypassRampEnd x s
  | .legImbBlockEnd x => Sys2Proof.Machine.execLegImbBlockEnd x s
  | .ratingUpdateTick => Sys2Proof.Machine.execRatingUpdateTick s
  | .hbPullExpiry x => Sys2Proof.Machine.execHbPullExpiry x s
  | .hbOvercurrent x currentMa us => Sys2Proof.Machine.execHbOvercurrent x currentMa us s
  | .hbOpenTimeout x currentMa => Sys2Proof.Machine.execHbOpenTimeout x currentMa s
  | .hbReleaseExpiry x => Sys2Proof.Machine.execHbReleaseExpiry x s
  | .hbTripHoldExpiry x => Sys2Proof.Machine.execHbTripHoldExpiry x s
  | .tableTrigger cv tbl => Sys2Proof.Machine.execTableTrigger cv tbl s
  | .profileSample x n codes => Sys2Proof.Machine.execProfileSample x n codes s
  | .conversionResult cv chan code degC t => Sys2Proof.Machine.execConversionResult cv chan code degC t s
  | .urgentRequest cv chan => Sys2Proof.Machine.execUrgentRequest cv chan s
  | .arbitrationDecision pair chan lowK highK lowP highP => Sys2Proof.Machine.execArbitrationDecision pair chan lowK highK lowP highP s
  | .vmXchkTimeout vmAMv vmBMv => Sys2Proof.Machine.execVmXchkTimeout vmAMv vmBMv s
  | .refOkTimeout x => Sys2Proof.Machine.execRefOkTimeout x s
  | .openWireTestStart => Sys2Proof.Machine.execOpenWireTestStart s
  | .openWireSettleExpiry mv => Sys2Proof.Machine.execOpenWireSettleExpiry mv s
  | .heartbeatWrite => Sys2Proof.Machine.execHeartbeatWrite s
  | .heartbeatTimeout e => Sys2Proof.Machine.execHeartbeatTimeout e s
  | .bankArmCheck e => Sys2Proof.Machine.execBankArmCheck e s
  | .handoverCopyDone x => Sys2Proof.Machine.execHandoverCopyDone x s
  | .rgSelftestTick => Sys2Proof.Machine.execRgSelftestTick s
  | .rgTestDone e signature => Sys2Proof.Machine.execRgTestDone e signature s
  | .spMbxTimeout x => Sys2Proof.Machine.execSpMbxTimeout x s
  | .fwExhaustedTimeout x => Sys2Proof.Machine.execFwExhaustedTimeout x s
  | .overspeedTimeout x => Sys2Proof.Machine.execOverspeedTimeout x s
  | .pwmCmdPeriod periodNs highNs => Sys2Proof.Machine.execPwmCmdPeriod periodNs highNs s
  | .pwmCmdTimeout => Sys2Proof.Machine.execPwmCmdTimeout s
  | .curveFilterValid x => Sys2Proof.Machine.execCurveFilterValid x s
  | .curveCrossing x value => Sys2Proof.Machine.execCurveCrossing x value s
  | .crestConverged x => Sys2Proof.Machine.execCrestConverged x s
  | .crestLoss x => Sys2Proof.Machine.execCrestLoss x s
  | .crestClampTimeout x flux => Sys2Proof.Machine.execCrestClampTimeout x flux s
  | .crestXchkTimeout x => Sys2Proof.Machine.execCrestXchkTimeout x s
  | .restReadEnd x => Sys2Proof.Machine.execRestReadEnd x s
  | .polarityTestEnd x => Sys2Proof.Machine.execPolarityTestEnd x s
  | .measureEnd x m => Sys2Proof.Machine.execMeasureEnd x m s
  | .blockedWaitRepeat x m => Sys2Proof.Machine.execBlockedWaitRepeat x m s
  | .fsCatchTimeout x => Sys2Proof.Machine.execFsCatchTimeout x s
  | .stTimeout x => Sys2Proof.Machine.execStTimeout x s
  | .stRetryDelayExpiry x => Sys2Proof.Machine.execStRetryDelayExpiry x s
  | .alignPhase2 x => Sys2Proof.Machine.execAlignPhase2 x s
  | .alignEnd x => Sys2Proof.Machine.execAlignEnd x s
  | .startIdleTimeout x => Sys2Proof.Machine.execStartIdleTimeout x s
  | .rampHandoff x => Sys2Proof.Machine.execRampHandoff x s
  | .mergeEnd x => Sys2Proof.Machine.execMergeEnd x s
  | .rampStall x => Sys2Proof.Machine.execRampStall x s
  | .standstillReached x => Sys2Proof.Machine.execStandstillReached x s
  | .hbEngageExpiry x => Sys2Proof.Machine.execHbEngageExpiry x s
  | .stopTmaxExpiry x => Sys2Proof.Machine.execStopTmaxExpiry x s
  | .stallTimeout x => Sys2Proof.Machine.execStallTimeout x s
  | .quadCount x a b t stableNs => Sys2Proof.Machine.execQuadCount x a b t stableNs s
  | .zEdge x rising t stableNs => Sys2Proof.Machine.execZEdge x rising t stableNs s
  | .hallEdge x h t stableNs => Sys2Proof.Machine.execHallEdge x h t stableNs s
  | .hallIllegalTimeout x => Sys2Proof.Machine.execHallIllegalTimeout x s
  | .sincosSampleEvent x sin cos quarter => Sys2Proof.Machine.execSincosSampleEvent x sin cos quarter s
  | .serialFrameRequest x datHigh => Sys2Proof.Machine.execSerialFrameRequest x datHigh s
  | .serialFrameEnd x started bits t => Sys2Proof.Machine.execSerialFrameEnd x started bits t s
  | .fbStandstillTimeout x => Sys2Proof.Machine.execFbStandstillTimeout x s
  | .compareHit x u t => Sys2Proof.Machine.execCompareHit x u t s
  | .captureEdge x inp rising t stableNs => Sys2Proof.Machine.execCaptureEdge x inp rising t stableNs s
  | .chopSeenTimeout seen => Sys2Proof.Machine.execChopSeenTimeout seen s
  | .chopRetryExpiry => Sys2Proof.Machine.execChopRetryExpiry s
  | .chopShortTimeout => Sys2Proof.Machine.execChopShortTimeout s
  | .brakeLoadTick => Sys2Proof.Machine.execBrakeLoadTick s
  | .escalationTimeout => Sys2Proof.Machine.execEscalationTimeout s
  | .e1LeaveTimeout => Sys2Proof.Machine.execE1LeaveTimeout s
  | .activeShortEnd x byTime => Sys2Proof.Machine.execActiveShortEnd x byTime s
  | .faultLogWrite => Sys2Proof.Machine.execFaultLogWrite s
  | .faultNPulseExpiry => Sys2Proof.Machine.execFaultNPulseExpiry s
  | .thGraceExpiry sensor => Sys2Proof.Machine.execThGraceExpiry sensor s
  | .thermalDerateTick => Sys2Proof.Machine.execThermalDerateTick s
  | .caseEstimateTick => Sys2Proof.Machine.execCaseEstimateTick s
  | .replaceTrigger tr out => Sys2Proof.Machine.execReplaceTrigger tr out s
  | .replaceLate => Sys2Proof.Machine.execReplaceLate s
  | .xtalLoss => Sys2Proof.Machine.execXtalLoss s
  | .pllLockLoss p => Sys2Proof.Machine.execPllLockLoss p s
  | .pllRelockTimeout => Sys2Proof.Machine.execPllRelockTimeout s
  | .eventCellOverflow cell => Sys2Proof.Machine.execEventCellOverflow cell s
  | .islandWake island => Sys2Proof.Machine.execIslandWake island s
  | .hspFrame f => Sys2Proof.Machine.execHspFrame f s
  | .hspFrameTimeout => Sys2Proof.Machine.execHspFrameTimeout s
  | .mbxCopyDone facts => Sys2Proof.Machine.execMbxCopyDone facts s
  | .ethFrameForward f => Sys2Proof.Machine.execEthFrameForward f s
  | .addressAgeExpiry mac => Sys2Proof.Machine.execAddressAgeExpiry mac s
  | .ethRstRelease => Sys2Proof.Machine.execEthRstRelease s
  | .phyPoll rmii1 rmii2 => Sys2Proof.Machine.execPhyPoll rmii1 rmii2 s
  | .t1sBeaconLoss => Sys2Proof.Machine.execT1sBeaconLoss s
  | .gptpSync offsetNs rate t => Sys2Proof.Machine.execGptpSync offsetNs rate t s
  | .gptpAnnounce slave => Sys2Proof.Machine.execGptpAnnounce slave s
  | .gptpPdelay port delayNs rateOk => Sys2Proof.Machine.execGptpPdelay port delayNs rateOk s
  | .gptpReceiptTimeout => Sys2Proof.Machine.execGptpReceiptTimeout s
  | .gateListInterval port => Sys2Proof.Machine.execGateListInterval port s
  | .tvReceiveSet f t => Sys2Proof.Machine.execTvReceiveSet f t s
  | .tvMailboxRequest f waiting facts t => Sys2Proof.Machine.execTvMailboxRequest f waiting facts t s
  | .tvTransmitWindow set blocked => Sys2Proof.Machine.execTvTransmitWindow set blocked s
  | .canSync t => Sys2Proof.Machine.execCanSync t s
  | .canRpdo n data t => Sys2Proof.Machine.execCanRpdo n data t s
  | .canSdo r => Sys2Proof.Machine.execCanSdo r s
  | .canNmt c node => Sys2Proof.Machine.execCanNmt c node s
  | .canHeartbeatProduce => Sys2Proof.Machine.execCanHeartbeatProduce s
  | .canHeartbeatTimeout => Sys2Proof.Machine.execCanHeartbeatTimeout s
  | .canErrorPassive => Sys2Proof.Machine.execCanErrorPassive s
  | .canBusoff => Sys2Proof.Machine.execCanBusoff s
  | .canBusoffRecovery => Sys2Proof.Machine.execCanBusoffRecovery s
  | .xspWindowRead addr => Sys2Proof.Machine.execXspWindowRead addr s
  | .xspWindowWrite addr byte => Sys2Proof.Machine.execXspWindowWrite addr byte s
  | .xspPageIdle => Sys2Proof.Machine.execXspPageIdle s
  | .xspPoll busy => Sys2Proof.Machine.execXspPoll busy s
  | .xspOpTimeout => Sys2Proof.Machine.execXspOpTimeout s
  | .xspIdCheck present => Sys2Proof.Machine.execXspIdCheck present s
  | .mramScrubTick corrected bad => Sys2Proof.Machine.execMramScrubTick corrected bad s
  | .sessionIdleTimeout session => Sys2Proof.Machine.execSessionIdleTimeout session s
  | .roleLockExpiry r => Sys2Proof.Machine.execRoleLockExpiry r s
  | .sessionOpen h role => Sys2Proof.Machine.execSessionOpen h role s
  | .sessionAuth h response => Sys2Proof.Machine.execSessionAuth h response s
  | .sessionClose h => Sys2Proof.Machine.execSessionClose h s
  | .sessionInfo h => Sys2Proof.Machine.execSessionInfo h s
  | .eventMask h mask => Sys2Proof.Machine.execEventMask h mask s
  | .parGet h items => Sys2Proof.Machine.execParGet h items s
  | .parSet h items => Sys2Proof.Machine.execParSet h items s
  | .parInfo h index => Sys2Proof.Machine.execParInfo h index s
  | .parCommit h bank flags => Sys2Proof.Machine.execParCommit h bank flags s
  | .parLoad h bank => Sys2Proof.Machine.execParLoad h bank s
  | .parBanks h => Sys2Proof.Machine.execParBanks h s
  | .parDefaults h => Sys2Proof.Machine.execParDefaults h s
  | .stateGet h => Sys2Proof.Machine.execStateGet h s
  | .pwrReq h target => Sys2Proof.Machine.execPwrReq h target s
  | .enable h mask => Sys2Proof.Machine.execEnable h mask s
  | .disable h mask => Sys2Proof.Machine.execDisable h mask s
  | .quickStop h mask => Sys2Proof.Machine.execQuickStop h mask s
  | .faultClear h scope chopSeen => Sys2Proof.Machine.execFaultClear h scope chopSeen s
  | .faultList h => Sys2Proof.Machine.execFaultList h s
  | .legServiceBypass h axis leg => Sys2Proof.Machine.execLegServiceBypass h axis leg s
  | .legServiceReturn h axis leg m => Sys2Proof.Machine.execLegServiceReturn h axis leg m s
  | .swTrip h mask => Sys2Proof.Machine.execSwTrip h mask s
  | .spSet h w => Sys2Proof.Machine.execSpSet h w s
  | .spGet h axis => Sys2Proof.Machine.execSpGet h axis s
  | .calConv h mask => Sys2Proof.Machine.execCalConv h mask s
  | .calConvDone m => Sys2Proof.Machine.execCalConvDone m s
  | .ident h axis => Sys2Proof.Machine.execIdent h axis s
  | .identDone => Sys2Proof.Machine.execIdentDone s
  | .angleOfs h axis => Sys2Proof.Machine.execAngleOfs h axis s
  | .angleOfsDone => Sys2Proof.Machine.execAngleOfsDone s
  | .declWrite h offset total bytes => Sys2Proof.Machine.execDeclWrite h offset total bytes s
  | .compile h flash => Sys2Proof.Machine.execCompile h flash s
  | .compileCheckOnly h flash => Sys2Proof.Machine.execCompileCheckOnly h flash s
  | .compileDone out => Sys2Proof.Machine.execCompileDone out s
  | .declRead h offset count => Sys2Proof.Machine.execDeclRead h offset count s
  | .placeInfo h kind index => Sys2Proof.Machine.execPlaceInfo h kind index s
  | .ledger h => Sys2Proof.Machine.execLedger h s
  | .segStage h axis hook offset ops => Sys2Proof.Machine.execSegStage h axis hook offset ops s
  | .segCommit h axis hook ops init => Sys2Proof.Machine.execSegCommit h axis hook ops init s
  | .segDelete h axis hook => Sys2Proof.Machine.execSegDelete h axis hook s
  | .segRead h axis hook offset n => Sys2Proof.Machine.execSegRead h axis hook offset n s
  | .logRead h from_ max => Sys2Proof.Machine.execLogRead h from_ max s
  | .logErase h => Sys2Proof.Machine.execLogErase h s
  | .auditRead h index max => Sys2Proof.Machine.execAuditRead h index max s
  | .fifoRead h axis unit max => Sys2Proof.Machine.execFifoRead h axis unit max s
  | .streamRead h stream from_ max => Sys2Proof.Machine.execStreamRead h stream from_ max s
  | .cntRead h ids => Sys2Proof.Machine.execCntRead h ids s
  | .cntClear h ids => Sys2Proof.Machine.execCntClear h ids s
  | .cmpRaw h => Sys2Proof.Machine.execCmpRaw h s
  | .cmpTest h mask fails => Sys2Proof.Machine.execCmpTest h mask fails s
  | .chopTest h seen => Sys2Proof.Machine.execChopTest h seen s
  | .legTest h axis leg m => Sys2Proof.Machine.execLegTest h axis leg m s
  | .rgTest h engine => Sys2Proof.Machine.execRgTest h engine s
  | .colFlags h clear => Sys2Proof.Machine.execColFlags h clear s
  | .convOnce h converter channel code => Sys2Proof.Machine.execConvOnce h converter channel code s
  | .testAccess h opened => Sys2Proof.Machine.execTestAccess h opened s
  | .otpRead h row n => Sys2Proof.Machine.execOtpRead h row n s
  | .otpOverride h row data => Sys2Proof.Machine.execOtpOverride h row data s
  | .otpBurn h rows => Sys2Proof.Machine.execOtpBurn h rows s
  | .otpBurnDone senses => Sys2Proof.Machine.execOtpBurnDone senses s
  | .otpLock h region => Sys2Proof.Machine.execOtpLock h region s
  | .otpRetire h region => Sys2Proof.Machine.execOtpRetire h region s
  | .otpLockDone => Sys2Proof.Machine.execOtpLockDone s
  | .fwBegin h size => Sys2Proof.Machine.execFwBegin h size s
  | .fwData h offset bytes => Sys2Proof.Machine.execFwData h offset bytes s
  | .fwInstall h flags => Sys2Proof.Machine.execFwInstall h flags s
  | .fwInstallDone image => Sys2Proof.Machine.execFwInstallDone image s
  | .fwInfo h => Sys2Proof.Machine.execFwInfo h s
  | .mramErase h region => Sys2Proof.Machine.execMramErase h region s
  | .mramEraseDone => Sys2Proof.Machine.execMramEraseDone s
  | .reboot h => Sys2Proof.Machine.execReboot h s
  | .netStatus h => Sys2Proof.Machine.execNetStatus h s
  | .mdioRead h port phy reg value => Sys2Proof.Machine.execMdioRead h port phy reg value s
  | .mdioWrite h port phy reg value => Sys2Proof.Machine.execMdioWrite h port phy reg value s
  | .portTest h port intact => Sys2Proof.Machine.execPortTest h port intact s
  | .resetNRelease stableNs => Sys2Proof.Machine.execResetNRelease stableNs s
  | .watchdogService => Sys2Proof.Machine.execWatchdogService s
  | .watchdogResetDelayExpiry => Sys2Proof.Machine.execWatchdogResetDelayExpiry s
  | .pllRelock p => Sys2Proof.Machine.execPllRelock p s
  | .canHeartbeatReceive node => Sys2Proof.Machine.execCanHeartbeatReceive node s
  | .canErrorActiveReturn => Sys2Proof.Machine.execCanErrorActiveReturn s
  | .plcaBeaconReceived => Sys2Proof.Machine.execPlcaBeaconReceived s
  | .arpIcmpRequest icmp sender target bytes => Sys2Proof.Machine.execArpIcmpRequest icmp sender target bytes s
  | .gptpTransmitInterval kind => Sys2Proof.Machine.execGptpTransmitInterval kind s
  | .streamRecordTick stream fate => Sys2Proof.Machine.execStreamRecordTick stream fate s
  | .telemetryDriveUpdate => Sys2Proof.Machine.execTelemetryDriveUpdate s
  | .alignRiseEnd x => Sys2Proof.Machine.execAlignRiseEnd x s
  | .t1sLineTestDone fault => Sys2Proof.Machine.execT1sLineTestDone fault s
  | .faultNBootPulseDelay => Sys2Proof.Machine.execFaultNBootPulseDelay s

end Sys2Proof.Machine
end

