-- ==== Sys2Proof/Safety.lean ====
section
/-!
DEFINITION. The terms the statements use: parts of the state and what a command leaves alone, a state in which nothing
waits to act by itself, the log and the active list after a raise, a message on its way, a request that passes every check.
-/

namespace Sys2Proof.Machine
open Sys2Proof

/-! Frames. -/

/-- A kind of state: a chapter's registers and buffers, with messages, log and CAN frames on their way apart. -/
inductive Part where
  | clk | sum | pwr | sto | scarp | axisA | axisB | conv | ridge | bus | flt | th | cairn | hsp | hspMsg | mbx | mbxMsg
  | net | can | canMsg | xsp | nv | nvLog | otp | boot | par | inForce
deriving DecidableEq, Repr

/-- Registers of the host port: all of it but the messages that leave and the interrupt bits they set (16 R334, R338). -/
def hspCore (h : HspSt) : HspSt := { h with intStatus := 0, outbox := none, queue := [] }
/-- The messages of the host port and its interrupt bits. -/
def hspMsgs (h : HspSt) : BitVec 16 × Option Msg × List Msg := (h.intStatus, h.outbox, h.queue)
/-- Sessions, locks, masks and the running long operation (17 R349, R357). -/
def mbxCore (m : MboxSt) : MboxSt := { m with netOut := [], held := [] }
/-- Messages sent on the backbone and events held back (17 Table 17.4a, 18 R383). -/
def mbxMsgs (m : MboxSt) : List (NetSource × Msg) × List Msg := (m.netOut, m.held)
/-- CAN registers, the frames sent and the time of the last EMCY apart. -/
def canCore (c : CanSt) : CanSt := { c with sent := [], emcyAt := none }
/-- CAN frames sent, and when the last EMCY left (18 Table 18.5). -/
def canMsgs (c : CanSt) : List (BitVec 11 × List Byte) × Option Nat := (c.sent, c.emcyAt)
/-- MRAM, the fault log apart. -/
def nvCore (n : NvSt) : NvSt := { n with log := [], logSeq := 0 }
/-- The fault log in MRAM. -/
def nvLogs (n : NvSt) : List LogEntry × Word := (n.log, n.logSeq)

/-- A part holds in `t` what it held in `s`. -/
def Same (s t : State) : Part → Prop
  | .clk => t.clk = s.clk | .sum => t.sum = s.sum | .pwr => t.pwr = s.pwr | .sto => t.sto = s.sto | .scarp => t.scarp = s.scarp
  | .axisA => t.axes.a = s.axes.a | .axisB => t.axes.b = s.axes.b | .conv => t.conv = s.conv | .ridge => t.ridge = s.ridge
  | .bus => t.bus = s.bus | .flt => t.flt = s.flt | .th => t.th = s.th | .cairn => t.cairn = s.cairn
  | .hsp => hspCore t.hsp = hspCore s.hsp | .hspMsg => hspMsgs t.hsp = hspMsgs s.hsp
  | .mbx => mbxCore t.mbx = mbxCore s.mbx | .mbxMsg => mbxMsgs t.mbx = mbxMsgs s.mbx
  | .net => t.net = s.net | .can => canCore t.can = canCore s.can | .canMsg => canMsgs t.can = canMsgs s.can | .xsp => t.xsp = s.xsp
  | .nv => nvCore t.nv = nvCore s.nv | .nvLog => nvLogs t.nv = nvLogs s.nv
  | .otp => t.otp = s.otp | .boot => t.boot = s.boot | .par => t.par = s.par | .inForce => t.inForce = s.inForce

/-- From `s` to `t` nothing changes outside the parts named; the queue of waiting commands never changes. -/
def OnlyChanges (ps : List Part) (s t : State) : Prop := t.pending = s.pending ∧ ∀ p, p ∉ ps → Same s t p

/-- The part of an axis. -/
def axPart : Axis → Part | .a => .axisA | .b => .axisB
/-- What recording a code may touch beside the class's own action: list, log, EMCY, event 0x8F01 (12 R276, R282). -/
def signals : List Part := [.flt, .nvLog, .canMsg, .hspMsg, .mbxMsg]
/-- Where messages leave. -/
def messages : List Part := [.hspMsg, .mbxMsg]

/-! States in which nothing acts by itself after a command. -/

/-- No watchdog or commanded reset waits for its instant (21 R430, R431), and stage E2 is not in force (12 R273). -/
def Calm (s : State) : Prop := s.sum.wdogWait = false ∧ s.mbx.rebootAt = none ∧ s.bus.e2 = false
/-- Thoevo serves and no power-fail commit runs. -/
def Awake (s : State) : Prop := thoevoUp s = true ∧ s.sum.pfCommit = false

/-- No gate of the axis switches and none holds the active short (03 R52). -/
def GatesOff (s : State) (x : Axis) : Prop := (getAx s x).pwm.switching = false ∧ (getAx s x).pwm.shorted = false

/-! Codes. -/

/-- A raise of this code, scope and detail stands in the log, made or counted within the last second (12 R282). -/
def Logged (t : State) (code : BitVec 16) (scope detail : BitVec 8) : Prop :=
  ∃ e ∈ t.nv.log ++ t.flt.logPending, repeatsEntry t code scope detail e = true
/-- The code is in the active list (12 R276). -/
def Listed (t : State) (code : BitVec 16) (scope detail : BitVec 8) : Prop :=
  ∃ e ∈ t.flt.list, e.code = code ∧ e.scope = scope ∧ e.detail = detail
/-- The code was raised: logged, and from class 3 on in the active list. -/
def Raised (t : State) (code : BitVec 16) (scope detail : BitVec 8) : Prop :=
  Logged t code scope detail ∧ (3 ≤ codeClass code → Listed t code scope detail)
/-- The active list has room for this many more entries (12 R276: it holds 32). -/
def Room (s : State) (n : Nat) : Prop := s.flt.list.length + n ≤ 32

/-! Compare units and captures. -/

/-- The other compare unit or capture input of an axis. -/
def otherUnit : CmpUnit → CmpUnit | .u0 => .u1 | .u1 => .u0
/-- The capture state of an input (11 R261). -/
def capOf (f : FbSt) : CmpUnit → CapSt | .u0 => f.cap0 | .u1 => f.cap1
/-- The half of CAP_OVR that counts an input's lost captures (11 R261). -/
def capLost (f : FbSt) : CmpUnit → BitVec 16 | .u0 => f.capOvr.setWidth 16 | .u1 => (f.capOvr >>> 16).setWidth 16

/-! Messages and requests. -/

/-- A message waits in the outbox or behind it, or was sent on the backbone (16 R338, 18 R383). -/
def Sent (t : State) (tr : Transport) (m : Msg) : Prop :=
  match tr with
  | .host => t.hsp.outbox = some m ∨ m ∈ t.hsp.queue
  | .backbone src => (src, m) ∈ t.mbx.netOut
/-- The reply of an executed request: RESULT 0, DETAIL 0 and its data (17 R346). -/
def Replied (t : State) (h : Hdr) (op : BitVec 16) (data : List Byte) : Prop := Sent t h.tr (mkReply op h 0 0 data)
/-- The role of the request's open and authenticated session reaches this number (17 R349; 20 R423). -/
def HasRole (s : State) (h : Hdr) (n : Nat) : Prop :=
  ∃ se, sessionOf s h = some se ∧ se.authed = true ∧ n ≤ roleNo se.role
/-- The request is served in an ordinary state: Thoevo runs outside a power-fail commit, no long operation runs, no service
state, its frame was good, and it repeats nothing (17 R347, R350). -/
def Served (s : State) (h : Hdr) (op : BitVec 16) : Prop :=
  Awake s ∧ s.boot.service = .none ∧ s.mbx.long = none ∧ h.bad = none ∧ replayOf s h op = none
/-- A request without a session, or of one that is open, is served (17 R347, R349). -/
def Asked (s : State) (h : Hdr) (op : BitVec 16) : Prop :=
  Calm s ∧ Served s h op ∧ (h.session = 0 ∨ (sessionOf s h).isSome = true)
/-- A request of a session whose role reaches this number is served, and its audit entries can be committed (20 R425). -/
def Granted (s : State) (h : Hdr) (op : BitVec 16) (n : Nat) : Prop :=
  Calm s ∧ Served s h op ∧ HasRole s h n ∧ s.nv.auditOk = true
/-- A set of stored values lists each address once, in rising order. -/
def Rising {α : Type} (m : List (Nat × α)) : Prop := m.Pairwise (fun p q => p.1 < q.1)
/-- The reply data fits the request's transport: any on the host port, one Traverse frame on the backbone (18 R383). -/
def Fits (h : Hdr) (data : List Byte) : Prop := tooLong h data = none

/-! Invariants. -/

/-- Stored values name parameters a table lets be written, each in its range (00 R8; 17 R355). -/
def Ranged (m : List (Nat × Word)) : Prop :=
  ∀ p ∈ m, ∃ d, parDef (p.1 % 0x8000) = some d ∧ d.kind = .writable ∧ valueOk d p.2 = true
/-- The working set and the banks hold values in range. -/
def ParamsOk (s : State) : Prop := Ranged s.par ∧ ∀ b, some b ∈ s.nv.banks → Ranged b.vals

/-- The memories the spec addresses are in canonical form: fuse rows that are not blank and flash bytes that are not
erased, each once, in rising order (20 R407; 19 R399). -/
def MemoryWf (s : State) : Prop := mapWf 0 s.otp.fuse = true ∧ mapWf 0xFF s.xsp.flash = true

end Sys2Proof.Machine
end

