-- ==== Sys2Proof/Certificates/Slice0/Obligations.lean ====
section
/-!
DEFINITION. The statements for the provers: what each command does where it completes, what it leaves alone, and what every
step keeps.
-/

open Sys2Proof Sys2Proof.Machine

/-- A step takes the command at the front of the queue and runs it with the queue's rest; with an empty queue time passes and
nothing is refused (the model's own convention, log 1 and 4). -/
def Obligations.StepRunsFrontCommand : Prop :=
  (∀ (c : Instr) (q : List Instr) (s : State), step { s with pending := c :: q } = exec c { s with pending := q }) ∧
  (∀ s : State, s.pending = [] → ∃ t, step s = .next t ∧ t.pending = [] ∧ s.clk.now ≤ t.clk.now ∧ t.nv.banks = s.nv.banks ∧
    t.otp.fuse = s.otp.fuse ∧ t.sto = s.sto)

/-- Every command completes in every state: the block neither faults nor refuses (17 Table 17.2 and the preconditions of the
command table give every case a next state; log 16). -/
def Obligations.EveryCommandAnswersNext : Prop :=
  ∀ (c : Instr) (s : State), ∃ t, exec c s = .next t

/-- A command changes everything but the queue: after any step exactly the rest of the queue waits (log 1). -/
def Obligations.StepLeavesRestOfQueue : Prop :=
  ∀ s t : State, step s = .next t → t.pending = s.pending.tail

/-- The memories of the spec keep their canonical form at every step (20 R407, 19 R399). -/
def Obligations.MemoriesStayCanonical : Prop :=
  ∀ s t : State, MemoryWf s → step s = .next t → MemoryWf t

/-- The canonical form holds at reset. -/
def Obligations.MemoriesCanonicalAtReset : Prop := MemoryWf State.reset

/-- No step takes a burned fuse bit back to 0 (20 R407, R408). -/
def Obligations.BurnedBitsNeverReturn : Prop :=
  ∀ s t : State, step s = .next t → ∀ row k : Nat, (fuseRow s row).getLsbD k = true → (fuseRow t row).getLsbD k = true

/-- SUMMIT_START and SUMMIT_RESET (03 R39, R60): Summit runs from 12 V with its own parameters at their defaults; below 6 V it and
everything it powers is lost and the drive is in OFF, while MRAM, fuses and flash keep what they hold. The plug sequence (03 R44,
R45, R47): entry into the window starts the debounce, the gate probe decides between ramp, wait for VM to decay, strap and the two
STOP codes Summit holds, and leaving the window ends the attempt without counting it; during the delay before a retry the input is
only noted. A qualification starts where the wake rules let it (mayPlug: 03 R55, R56). -/
def Obligations.SummitAndPlugSequence : Prop :=
  (∀ (s : State) (inMv vmMv : Nat), Calm s → s.sum.on = false → 12000 ≤ max inMv vmMv →
    ∃ t, exec (.summitStart inMv vmMv) s = .next t ∧ t.sum.on = true ∧ t.sum.inMv = inMv ∧ t.sum.vmMv = vmMv ∧
      t.sum.hsw = .outside ∧ t.sum.fails = 0 ∧ t.sum.held = [] ∧ t.sum.wakeSrc = 0 ∧
      (∀ p, p ∈ t.par ↔ p ∈ s.par ∧ ¬(0x0102 ≤ p.1 ∧ p.1 ≤ 0x0114)) ∧ OnlyChanges [.sum, .par, .inForce] s t) ∧
  (∀ (s : State) (inMv vmMv : Nat), s.sum.on = true → max inMv vmMv < 6000 →
    ∃ t, exec (.summitReset inMv vmMv) s = .next t ∧ t.sum.on = false ∧ t.pwr.base = .off ∧ t.pwr.boot = none ∧
      (∀ x, (getAx t x).pwm.switching = false ∧ (getAx t x).pwm.shorted = false ∧ (getAx t x).stage.brake = .off ∧
        (getAx t x).start.ax = .disabled) ∧
      t.flt.list = [] ∧ t.mbx.sessions = [none, none, none, none] ∧ t.mbx.long = none ∧ t.par = [] ∧
      t.nv = s.nv ∧ t.otp.fuse = s.otp.fuse ∧ t.xsp.flash = s.xsp.flash ∧ t.sto = s.sto ∧ t.clk.now = s.clk.now) ∧
  (∀ (s : State) (inMv : Nat), Calm s → s.sum.on = true → 36000 ≤ inMv → inMv ≤ 75000 → mayPlug s = true →
    (s.sum.hsw = .outside ∨ (s.sum.hsw = .strapped ∧ s.sum.buck = false)) →
    exec (.plugWindowEntry inMv) s = .next { s with sum := { s.sum with inMv := inMv, ovRaised := false, hsw := .debounce } }) ∧
  (∀ (s : State) (probe : ProbeResult) (inMv vmMv : Nat), Calm s → s.sum.on = true → s.sum.hsw = .debounce → 36000 ≤ inMv →
    inMv ≤ 75000 → mayPlug s = true →
    ∃ t, exec (.plugDebounceExpiry probe inMv vmMv) s = .next t ∧ t.sum.inMv = inMv ∧ t.sum.vmMv = vmMv ∧
      (probe = .mosfetPair → parD s Par.hswPresent = 1 → t.sum.held = s.sum.held ∧
        (if inMv + 1000 < vmMv then t.sum.hsw = .decayWait else t.sum.hsw = .ramp ∧ t.sum.hswG = true)) ∧
      (probe = .mosfetPair → parD s Par.hswPresent ≠ 1 → t.sum.hsw = .undeclared ∧ t.sum.held = s.sum.held ++ [⟨0x410D, 0, 0xFF⟩]) ∧
      (probe = .strap → t.sum.hsw = .strapped ∧ t.sum.hswG = false ∧ storedAt t Par.hswPresent = 0 ∧ parD t Par.hswPresent = 0 ∧
        (parD s Par.hswPresent = 1 → t.sum.held = s.sum.held ++ [⟨0x110C, 0, 0xFF⟩])) ∧
      (probe = .nothing → t.sum.hsw = .noFet ∧ t.sum.held = s.sum.held ++ [⟨0x410A, 0, 0xFF⟩]) ∧
      OnlyChanges (if probe = .strap then [.sum, .par, .inForce] else [.sum]) s t) ∧
  (∀ (s : State) (inMv : Nat), Calm s → s.sum.on = true → (inMv < 36000 ∨ 75000 < inMv) →
    (s.sum.hsw = .debounce ∨ s.sum.hsw = .ramp ∨ s.sum.hsw = .decayWait) →
    ∃ t, exec (.plugWindowExit inMv) s = .next t ∧ t.sum.hsw = .outside ∧ t.sum.hswG = false ∧ t.sum.inMv = inMv ∧
      t.sum.fails = s.sum.fails ∧
      t.sum.held = (if 75000 < inMv ∧ s.sum.ovRaised = false then s.sum.held ++ [⟨0x2104, 0, 0xFF⟩] else s.sum.held) ∧
      OnlyChanges [.sum] s t) ∧
  (∀ (s : State) (inMv : Nat), Calm s → s.sum.on = true → s.sum.hsw = .retryWait →
    (36000 ≤ inMv → inMv ≤ 75000 →
      exec (.plugWindowEntry inMv) s = .next { s with sum := { s.sum with inMv := inMv, ovRaised := false } }) ∧
    (inMv < 36000 → exec (.plugWindowExit inMv) s = .next { s with sum := { s.sum with inMv := inMv } }))

/-- Failed connection attempts (03 R45): each holds WARN 0x2105; the SOA timer and a sense voltage of twice HSW_CB_THR end one; while
HSW_RETRIES are left a new debounce follows the delay, then STOP 0x4106 ends the attempts. POWER_GOOD (03 R44, R56): the MOSFETs are
fully on, failed attempts are forgotten, the buck runs and the boot begins with source 1, with 2 where a release of RESET_N waited
for the supply, with 6 out of STANDBY (21 Table 21.1); a drive whose buck runs already is only connected. -/
def Obligations.ConnectionAndPowerGood : Prop :=
  (∀ s : State, Calm s → s.sum.on = true → (s.sum.hsw = .ramp ∨ s.sum.hsw = .decayWait) →
    ∃ t, exec .hswSoaTimeout s = .next t ∧ t.sum.fails = s.sum.fails + 1 ∧ t.sum.hswG = false ∧
      (s.sum.fails + 1 ≤ (parD s Par.hswRetries).toNat →
        t.sum.hsw = .retryWait ∧ t.sum.held = s.sum.held ++ [⟨0x2105, 0, 0xFF⟩]) ∧
      ((parD s Par.hswRetries).toNat < s.sum.fails + 1 →
        t.sum.hsw = .latched ∧ t.sum.held = s.sum.held ++ [⟨0x2105, 0, 0xFF⟩, ⟨0x4106, 0, 0xFF⟩]) ∧
      OnlyChanges [.sum] s t) ∧
  (∀ (s : State) (uv : Nat), Calm s → s.sum.on = true → s.sum.hsw = .ramp →
    2 * fval (parD s Par.hswCbThr) * 1000 ≤ (uv : Rat) →
    ∃ t, exec (.hswRampFastTrip uv) s = .next t ∧ t.sum.fails = s.sum.fails + 1 ∧ t.sum.hswG = false ∧
      (t.sum.hsw = .retryWait ∨ t.sum.hsw = .latched) ∧ ⟨0x2105, 0, 0xFF⟩ ∈ t.sum.held ∧ OnlyChanges [.sum] s t) ∧
  (∀ s : State, Calm s → s.sum.on = true → s.sum.hsw = .retryWait →
    exec .hswRetryDelayExpiry s = .next { s with sum := { s.sum with
      hsw := if 36000 ≤ s.sum.inMv ∧ s.sum.inMv ≤ 75000 then .debounce else .outside } }) ∧
  (∀ (s : State) (inMv vmMv : Nat), s.sum.on = true → s.sum.buck = false → s.sum.resetLow = false →
    (s.sum.hsw = .ramp ∨ s.sum.hsw = .decayWait) → inMv ≤ vmMv + 1000 → vmMv ≤ inMv + 1000 → 36000 ≤ inMv → inMv ≤ 75000 →
    s.sum.wdogWait = false → s.sum.pfCommit = false →
    ∃ t, exec (.powerGood inMv vmMv) s = .next t ∧ t.sum.hsw = .on ∧ t.sum.hswG = true ∧ t.sum.buck = true ∧ t.sum.fails = 0 ∧
      t.sum.inMv = inMv ∧ t.sum.vmMv = vmMv ∧ t.sum.pfStandby = false ∧ t.nv = s.nv ∧
      (s.pwr.base = .standby → t.pwr.boot = some 6 ∧ t.pwr.resetSrc = 6 ∧ t.pwr.base = .standby ∧
        t.sum.wakeSrc = s.sum.wakeSrc ||| 4 ∧
        t.sum.held = (if s.sum.wakeSrc.getLsbD 2 then s.sum.held else s.sum.held ++ [⟨0x110B, 0, 0xFF⟩])) ∧
      (s.pwr.base ≠ .standby → t.pwr.base = .off ∧ t.sum.held = s.sum.held ∧ t.pwr.resetSrc = (if s.sum.resetBoot then 2 else 1) ∧
        t.pwr.boot = some (if s.sum.resetBoot then 2 else 1)) ∧
      t.otp.fuse = s.otp.fuse ∧ t.xsp.flash = s.xsp.flash) ∧
  (∀ (s : State) (inMv vmMv : Nat), Calm s → s.sum.on = true → s.sum.buck = true →
    (s.sum.hsw = .ramp ∨ s.sum.hsw = .decayWait) → inMv ≤ vmMv + 1000 → vmMv ≤ inMv + 1000 → 36000 ≤ inMv → inMv ≤ 75000 →
    ∃ t, exec (.powerGood inMv vmMv) s = .next t ∧ t.sum.hsw = .on ∧ t.sum.hswG = true ∧ t.sum.fails = 0 ∧ OnlyChanges [.sum] s t)

/-- The breaker and the power-fail sequence (03 R46, R48, R58): the breaker raises TRIP 0x5107 and runs the power-fail sequence at once;
in it gates, brakes, outputs and chopper are off, source 29 is latched, 0x5103 is held for the next boot and the commit runs.
POWER_FAIL_COMMIT_DONE (03 R48, R50, R56): with nothing waiting for it the commit ends in STANDBY; a complete one holds the log, the
positions and the active faults in MRAM. What waited for it acts then: RESET_N holds the drive in reset, a wake event boots, a VM
return starts its plug qualification. -/
def Obligations.PowerFailAndCommit : Prop :=
  (∀ (c : Instr) (s : State) (uv : Nat), Calm s → Awake s → s.sum.on = true → s.sum.hsw = .on →
    ((c = .hswCbTrip uv ∧ fval (parD s Par.hswCbThr) * 1000 < (uv : Rat)) ∨
      (c = .hswCbFastTrip uv ∧ 2 * fval (parD s Par.hswCbThr) * 1000 < (uv : Rat))) →
    ∃ t, exec c s = .next t ∧ Raised t 0x5107 0 0xFF ∧ t.sum.pfCommit = true ∧ t.sum.hswG = false ∧ t.sum.hsw = .outside ∧
      t.sum.out5.on = false ∧ t.sum.out3.on = false ∧ t.bus.chop = .off ∧
      (s.boot.service = .none → t.scarp.latch.getLsbD 29 = true) ∧
      ⟨0x5103, 0, 0xFF⟩ ∈ t.sum.held ∧ t.nv.pfOpen = true ∧
      (∀ x, (getAx t x).pwm.switching = false ∧ (getAx t x).pwm.shorted = false ∧ (getAx t x).stage.brake = .off ∧
        (getAx t x).start.ax = .disabled) ∧ t.par = s.par ∧ t.inForce = s.inForce ∧ t.otp = s.otp ∧ t.sto = s.sto) ∧
  (∀ (s : State) (inMv : Nat), Calm s → Awake s → s.sum.on = true → (inMv : Rat) < fval (parD s Par.vmPf) * 1000 →
    ∃ t, exec (.powerFail inMv) s = .next t ∧ t.sum.inMv = inMv ∧ t.sum.fellBelowPf = true ∧ t.sum.pfCommit = true ∧
      t.sum.hswG = false ∧ t.sum.out5.on = false ∧ t.sum.out3.on = false ∧
      (s.boot.service = .none → t.scarp.latch.getLsbD 29 = true) ∧ t.bus.chop = .off ∧
      ⟨0x5103, 0, 0xFF⟩ ∈ t.sum.held ∧ t.nv.pfOpen = true ∧ t.flt.list = s.flt.list ∧
      (∀ x, (getAx t x).pwm.switching = false ∧ (getAx t x).pwm.shorted = false ∧ (getAx t x).stage.brake = .off ∧
        (getAx t x).start.ax = .disabled) ∧ t.par = s.par ∧ t.inForce = s.inForce ∧ t.otp = s.otp ∧ t.sto = s.sto) ∧
  (∀ (s : State) (complete : Bool), s.sum.pfCommit = true → s.sum.wdogWait = false → s.sum.resetPending = false →
    s.sum.wakeLatched = 0 →
    ∃ t, exec (.powerFailCommitDone complete) s = .next t ∧ t.pwr.base = .standby ∧ t.pwr.boot = none ∧ t.sum.pfCommit = false ∧
      t.sum.commitOk = complete ∧ t.sum.pfStandby = true ∧ t.sum.buck = false ∧ t.sum.wakeSrc = 0 ∧
      t.pwr.safe = (s.sto.in1Low || s.sto.in2Low) ∧ t.sum.held = s.sum.held ∧
      (complete = true → t.nv.pfOpen = false ∧ t.nv.posA = some s.axes.a.fb.pos ∧ t.nv.posB = some s.axes.b.fb.pos ∧
        t.nv.lastFaults = s.flt.list ∧
        t.nv.log = (s.nv.log ++ s.flt.logPending).drop ((s.nv.log ++ s.flt.logPending).length - 1024)) ∧
      t.nv.banks = s.nv.banks ∧ t.nv.place = s.nv.place ∧ t.otp.fuse = s.otp.fuse ∧ t.xsp.flash = s.xsp.flash) ∧
  (∀ (s : State) (complete : Bool), s.sum.pfCommit = true → s.sum.wdogWait = false → s.sum.resetPending = true →
    s.sum.resetReleased = false →
    ∃ t, exec (.powerFailCommitDone complete) s = .next t ∧ t.sum.resetLow = true ∧ t.pwr.base = .off ∧ t.pwr.resetSrc = 2 ∧
      t.pwr.boot = none ∧ t.sum.pfCommit = false ∧ t.sum.commitOk = complete) ∧
  (∀ (s : State) (complete : Bool), s.sum.pfCommit = true → s.sum.wdogWait = false → s.sum.resetPending = false →
    s.sum.wakeLatched &&& 3 ≠ 0 → buckCan s = true → s.sum.hsw ≠ .strapped →
    ∃ t, exec (.powerFailCommitDone complete) s = .next t ∧ t.pwr.boot = some 6 ∧ t.pwr.resetSrc = 6 ∧ t.sum.buck = true ∧
      t.sum.wakeSrc = s.sum.wakeLatched &&& 3 ∧ ⟨0x110B, 0, 0xFF⟩ ∈ t.sum.held ∧ t.sum.pfCommit = false) ∧
  (∀ (s : State) (complete : Bool), s.sum.pfCommit = true → s.sum.wdogWait = false → s.sum.resetPending = false →
    s.sum.wakeLatched = 4 → s.sum.hsw = .outside → 36000 ≤ s.sum.inMv → s.sum.inMv ≤ 75000 →
    ∃ t, exec (.powerFailCommitDone complete) s = .next t ∧ t.pwr.base = .standby ∧ t.pwr.boot = none ∧ t.sum.hsw = .debounce ∧
      t.sum.pfStandby = true)

/-- VM supervision and the supply outputs (03 R40, R41, R43): VM below 36 V for 1 ms raises WARN 0x2102, and below 12 V the buck stops
(R42; what the drive does then is the model's choice, log 116); after the undervoltage trip VM above VM_UV + VM_UV_HYST makes its
sources inactive; an output in overload switches off with its WARN. Wake events (03 R55, R56): in STANDBY an enabled pad edge or
chip select that passes its filter (02 R32) names its source, holds INFO 0x110B and boots with source 6; the VM return names its
source and waits for power good; a pad edge in HOLD moves the drive to READY; during the commit an event is latched (R58). That a
wake boots from the DC link is the model's choice (log 114). -/
def Obligations.SupplyAndWakeEvents : Prop :=
  (∀ (s : State) (vmMv : Nat), Calm s → thoevoUp s = true → vmMv < 36000 → 12000 ≤ vmMv →
    ∃ t, exec (.vmLowTimeout vmMv) s = .next t ∧ t.sum = { s.sum with vmMv := vmMv } ∧ Raised t 0x2102 0 0xFF ∧
      OnlyChanges (.sum :: signals) s t) ∧
  (∀ (s : State) (vmMv : Nat), Calm s → thoevoUp s = true → vmMv < 12000 →
    ∃ t, exec (.vmLowTimeout vmMv) s = .next t ∧ t.sum.buck = false ∧ t.sum.hswG = false ∧ t.sum.out5.on = false ∧
      t.sum.out3.on = false ∧ thoevoUp t = false ∧ (∀ x, GatesOff t x ∧ (getAx t x).start.ax = .disabled) ∧ t.otp.fuse = s.otp.fuse ∧
      t.xsp.flash = s.xsp.flash ∧ t.nv.banks = s.nv.banks) ∧
  (∀ (s : State) (vmMv : Nat), Calm s → (fval (parD s Par.vmUv) + fval (parD s Par.vmUvHyst)) * 1000 < (vmMv : Rat) →
    ∃ t, exec (.vmUvRecoveryTimeout vmMv) s = .next t ∧ t.sum = { s.sum with vmMv := vmMv } ∧
      t.scarp.raw.getLsbD 13 = false ∧ t.scarp.raw.getLsbD 15 = false ∧ t.scarp.latch = s.scarp.latch ∧
      (∀ e ∈ t.flt.list, e.code = 0x5101 → e.scope = 0 → (e.detail = 0 ∨ e.detail = 1) → e.active = false) ∧
      (∀ e ∈ s.flt.list, e.code ≠ 0x5101 → e ∈ t.flt.list) ∧ OnlyChanges [.sum, .scarp, .flt] s t) ∧
  (∀ s : State, Calm s → s.sum.out5.on = true →
    ∃ t, exec (.outputOverloadTimeout .v5) s = .next t ∧ t.sum = { s.sum with out5 := ⟨false, true⟩ } ∧
      Raised t 0x2108 0 0xFF ∧ OnlyChanges (.sum :: signals) s t) ∧
  (∀ s : State, Calm s → s.sum.out3.on = true →
    ∃ t, exec (.outputOverloadTimeout .v3) s = .next t ∧ t.sum = { s.sum with out3 := ⟨false, true⟩ } ∧
      Raised t 0x2109 0 0xFF ∧ OnlyChanges (.sum :: signals) s t) ∧
  (∀ (s : State) (c : Instr) (w : WakeSource) (stableNs : Nat),
    (c = .wakePadEdge stableNs ∧ w = .wakePad ∧ filtPass (parD s Par.wakeFilt) stableNs = true) ∨
      (c = .hspCsNWake stableNs ∧ w = .csN ∧ filtPass (parD s Par.csFilt) stableNs = true) →
    s.sum.on = true → buckCan s = true → s.pwr.base = .standby → s.pwr.boot = none → s.sum.pfCommit = false → s.sum.wdogWait = false →
    (w = .wakePad → (parD s Par.wakeEn).getLsbD 0 = true) → (w = .csN → (parD s Par.wakeEn).getLsbD 1 = true) →
    ∃ t, exec c s = .next t ∧ t.pwr.boot = some 6 ∧ t.pwr.resetSrc = 6 ∧ t.pwr.base = .standby ∧ t.sum.buck = true ∧
      t.sum.wakeSrc = s.sum.wakeSrc ||| (if w = .wakePad then 1 else 2) ∧ t.sum.held = s.sum.held ++ [⟨0x110B, 0, 0xFF⟩] ∧
      t.sum.hsw = s.sum.hsw ∧ t.nv = s.nv ∧ t.otp.fuse = s.otp.fuse) ∧
  (∀ (s : State) (c : Instr) (w : WakeSource) (stableNs : Nat),
    (c = .wakePadEdge stableNs ∧ w = .wakePad ∧ filtPass (parD s Par.wakeFilt) stableNs = true) ∨
      (c = .hspCsNWake stableNs ∧ w = .csN ∧ filtPass (parD s Par.csFilt) stableNs = true) →
    Calm s → s.sum.on = true → s.sum.pfCommit = true →
    (w = .wakePad → (parD s Par.wakeEn).getLsbD 0 = true) → (w = .csN → (parD s Par.wakeEn).getLsbD 1 = true) →
    exec c s = .next { s with sum := { s.sum with wakeLatched := s.sum.wakeLatched ||| (if w = .wakePad then 1 else 2) } }) ∧
  (∀ (s : State) (stableNs : Nat), Calm s → s.sum.on = true → s.pwr.base = .hold → s.pwr.boot = none → s.sum.pfCommit = false →
    s.pwr.noPlacement = false → s.boot.service = .none → filtPass (parD s Par.wakeFilt) stableNs = true →
    ∃ t, exec (.wakePadEdge stableNs) s = .next t ∧ t.pwr.base = .ready ∧ t.nv.banks = s.nv.banks ∧ t.otp = s.otp ∧ t.par = s.par) ∧
  (∀ (s : State) (inMv : Nat), Calm s → s.sum.on = true → (parD s Par.wakeEn).getLsbD 2 = true → 36000 ≤ inMv → inMv ≤ 75000 →
    s.sum.pfCommit = false → s.pwr.base = .standby → s.pwr.boot = none → s.sum.pfStandby = true → s.sum.fellBelowPf = true →
    (s.sum.hsw = .ramp ∨ s.sum.hsw = .decayWait ∨ s.sum.hsw = .strapped) →
    exec (.vmReturnWake inMv) s = .next (if s.sum.wakeSrc.getLsbD 2 then { s with sum := { s.sum with inMv := inMv } }
      else { s with sum := { s.sum with
        inMv := inMv, wakeSrc := s.sum.wakeSrc ||| 4, held := s.sum.held ++ [⟨0x110B, 0, 0xFF⟩] } }))

/-- RESET_N and the watchdog (21 R430, R431, Table 21.1): the pin holds everything but Summit in reset and its release boots
with source 2, from a supply the buck can run from, else at power good; during the power-fail commit it waits (03 R50); a service
restarts the count; an expiry resets with source 4, at once while no axis switches, else after the
delay. -/
def Obligations.ResetPinAndWatchdog : Prop :=
  (∀ (s : State) (stableNs : Nat), s.sum.on = true → s.sum.resetLow = false → s.sum.pfCommit = false →
    filtPass (parD s Par.resetFilt) stableNs = true →
    ∃ t, exec (.resetNAssert stableNs) s = .next t ∧ t.sum.resetLow = true ∧ t.pwr.base = .off ∧ t.pwr.boot = none ∧ t.pwr.resetSrc = 2 ∧
      (∀ x, (getAx t x).pwm.switching = false ∧ (getAx t x).pwm.shorted = false ∧ (getAx t x).start.ax = .disabled) ∧
      (s.sum.hsw = .latched → t.sum.hsw = .outside ∧ t.sum.fails = 0) ∧ t.flt.list = [] ∧
      t.mbx.sessions = [none, none, none, none] ∧ t.nv.banks = s.nv.banks ∧ t.otp.fuse = s.otp.fuse ∧ t.xsp.flash = s.xsp.flash ∧
      t.clk.now = s.clk.now) ∧
  (∀ (s : State) (stableNs : Nat), Calm s → s.sum.on = true → s.sum.resetLow = false → s.sum.pfCommit = true →
    filtPass (parD s Par.resetFilt) stableNs = true →
    exec (.resetNAssert stableNs) s = .next { s with sum := { s.sum with resetPending := true, resetReleased := false } } ∧
    (s.sum.resetPending = true →
      exec (.resetNRelease stableNs) s = .next { s with sum := { s.sum with resetReleased := true } })) ∧
  (∀ (s : State) (stableNs : Nat), s.sum.on = true → s.sum.resetLow = true → (s.sum.buck = true ∨ buckCan s = true) →
    s.sum.wdogWait = false → s.sum.pfCommit = false → filtPass (parD s Par.resetFilt) stableNs = true →
    ∃ t, exec (.resetNRelease stableNs) s = .next t ∧ t.sum.resetLow = false ∧ t.pwr.boot = some 2 ∧ t.pwr.resetSrc = 2 ∧
      t.sum.buck = true ∧ t.nv = s.nv ∧ t.otp.fuse = s.otp.fuse) ∧
  (∀ (s : State) (stableNs : Nat), Calm s → s.sum.on = true → s.sum.resetLow = true → s.sum.buck = false → buckCan s = false →
    filtPass (parD s Par.resetFilt) stableNs = true →
    exec (.resetNRelease stableNs) s = .next { s with sum := { s.sum with resetLow := false, resetBoot := true } }) ∧
  (∀ s : State, Calm s → s.sum.on = true → thoevoUp s = true →
    exec .watchdogService s = .next { s with sum := { s.sum with wdogServed := s.sum.wdogServed + 1 } }) ∧
  (∀ s : State, s.sum.on = true → thoevoUp s = true → s.sum.pfCommit = false → anyRun s = false →
    ∃ t, exec .watchdogExpiry s = .next t ∧ t.pwr.boot = some 4 ∧ t.pwr.resetSrc = 4 ∧ t.sum.wdogWait = false ∧ t.nv = s.nv ∧
      t.otp.fuse = s.otp.fuse) ∧
  (∀ s : State, s.sum.on = true → thoevoUp s = true → s.sum.pfCommit = false → anyRun s = true → s.bus.e2 = false →
    ∃ t, exec .watchdogExpiry s = .next t ∧ t.sum.wdogWait = true ∧ OnlyChanges [.sum] s t) ∧
  (∀ s : State, s.sum.wdogWait = true → s.sum.pfCommit = false →
    ∃ t, exec .watchdogResetDelayExpiry s = .next t ∧ t.pwr.boot = some 4 ∧ t.pwr.resetSrc = 4 ∧ t.sum.wdogWait = false ∧
      t.nv = s.nv ∧ t.otp.fuse = s.otp.fuse)

/-- Safe torque off (04 R83, R84, R86; 03 R57): a low of 1 ms on either input removes gate supply and leaves every axis off with
SAFE and 0x6A01, a pulse below 500 µs never does; 1 ms with both high brings the gate supply back and clears SAFE; inputs that
differ too long raise STOP 0x4207. -/
def Obligations.SafeTorqueOff : Prop :=
  (∀ (s : State) (a b : Bool) (us : Nat), Calm s → s.sum.on = true → thoevoUp s = true → (a || b) = true → 1000 ≤ us →
    ∃ t, exec (.stoRemove a b us) s = .next t ∧ t.sto = { s.sto with in1Low := a, in2Low := b, highSeen := false } ∧
      (∀ x, GatesOff t x ∧ (getAx t x).stage.vgdOn = false ∧ (getAx t x).stage.brake = .off ∧ (getAx t x).start.ax = .disabled) ∧
      t.pwr = { s.pwr with safe := true } ∧ (s.pwr.safe = false → Raised t 0x6A01 0 0xFF) ∧
      OnlyChanges ([Part.sto, Part.axisA, Part.axisB, Part.pwr, Part.hsp, Part.mbx] ++ signals) s t) ∧
  (∀ (s : State) (a b : Bool) (us : Nat), us < 500 → exec (.stoRemove a b us) s = .next s) ∧
  (∀ (s : State) (us : Nat) (back : Bool), Calm s → s.sum.on = true → 1000 ≤ us →
    (isReady s = true → (hosted s .a = true ∨ hosted s .b = true) → back = true) →
    ∃ t, exec (.stoRestore us back) s = .next t ∧
      t.sto = { s.sto with in1Low := false, in2Low := false, highSeen := true, discrepancy := false } ∧ t.pwr.safe = false ∧
      (isReady s = true → back = true → t.scarp.raw.getLsbD 26 = false ∧ ∀ x, (getAx t x).stage.vgdOn = hosted s x) ∧
      (∀ e ∈ t.flt.list, e.code = 0x6A01 → e.scope = 0 → e.detail = 0xFF → e.active = false) ∧
      OnlyChanges [.sto, .pwr, .scarp, .axisA, .axisB, .flt, .hspMsg, .mbxMsg] s t) ∧
  (∀ (s : State) (a b : Bool), Calm s → thoevoUp s = true → a ≠ b →
    ∃ t, exec (.stoDiscrepancyTimeout a b) s = .next t ∧ t.sto = { s.sto with discrepancy := true, highSeen := false } ∧
      Raised t 0x4207 0 0xFF ∧ OnlyChanges ([Part.sto, Part.axisA, Part.axisB, Part.mbx] ++ signals) s t)

/-- A comparator outside its blanking windows (05 R106, R109 to R111, Tables 5.2, 5.4): its source is latched, every axis it stops has
its gates off, is DISABLED with its trip flag, and keeps the first source; each source raises its code: 0x5310 with the comparator's
number, 0x5A01, 0x5101, 0x5A02 with the chopper held off, 0x5311 with the leg. CMP17 never latches, and a crossing inside a window
does nothing. Digital trip sources 24 to 31 (05 R109, R110, Tables 5.2, 5.4): each is latched and raises the code of its chapter,
0x520A and 0x5B05 with the leg, 0x520B, 0x5313; where its latch was not yet set, the gates of its axes go off, with the trip flag
and the axis DISABLED, and the trip counter of a software trip counts. Source 29 is the power fail. -/
def Obligations.ScarpTrips : Prop :=
  (∀ (s : State) (c : Fin 24) (stays : Bool) (tick : Nat), Calm s → Awake s → s.boot.service = .none → c.val ≠ 17 →
    s.scarp.latch.getLsbD c.val = false → windowOpen s c.val tick = false →
    ∃ t, exec (.scarpTrip c stays tick) s = .next t ∧ t.scarp.latch = s.scarp.latch ||| ((1 : Word) <<< c.val) ∧
      t.scarp.raw.getLsbD c.val = stays ∧ t.clk.now = max s.clk.now (tick / 4) ∧
      (∀ x, (axisBits x).getLsbD c.val = true → GatesOff t x ∧ (getAx t x).start.ax = .disabled ∧ (getAx t x).seq.trip = true ∧
        ((getAx s x).pwm.scarpFirst = 0xFF → (getAx t x).pwm.scarpFirst = BitVec.ofNat 8 c.val)) ∧
      (c.val < 12 → Raised t 0x5310 (if c.val < 6 then 1 else 2) (BitVec.ofNat 8 c.val)) ∧
      (c.val = 12 → Raised t 0x5A01 0 0) ∧ (c.val = 13 → Raised t 0x5101 0 0) ∧
      (c.val = 14 → Raised t 0x5A01 0 1) ∧ (c.val = 15 → Raised t 0x5101 0 1) ∧
      (c.val = 16 → t.bus.chop = .off ∧ Raised t 0x3A04 0 2 ∧ (Room s 2 → Raised t 0x5A02 0 0xFF)) ∧
      (18 ≤ c.val → Raised t 0x5311 (scopeOf (cmpAxis c.val)) (BitVec.ofNat 8 (pvLeg s c.val))) ∧
      OnlyChanges ([Part.clk, Part.scarp, Part.axisA, Part.axisB, Part.bus, Part.mbx] ++ signals) s t) ∧
  (∀ (s : State) (stays : Bool) (tick : Nat), Calm s → Awake s → s.boot.service = .none → windowOpen s 17 tick = false →
    ∃ t, exec (.scarpTrip 17 stays tick) s = .next t ∧ t.scarp.latch = s.scarp.latch ∧ t.scarp.raw.getLsbD 17 = stays ∧
      OnlyChanges [.clk, .scarp] s t) ∧
  (∀ (s : State) (c : Fin 24) (stays : Bool) (tick : Nat), windowOpen s c.val tick = true →
    exec (.scarpTrip c stays tick) s = .next s) ∧
  (∀ (s : State) (x : Axis) (l : Leg) (stays : Bool) (tick : Nat), Calm s → Awake s → s.boot.service = .none →
    ∃ t, exec (.scarpDigitalTrip (.bootUv x) l stays tick) s = .next t ∧ t.scarp.latch.getLsbD (24 + axisNo x) = true ∧
      (getLeg t x l).bootLow = true ∧ Raised t 0x520A (scopeOf x) (BitVec.ofNat 8 (axisNo x * 6 + legNo l)) ∧
      (s.scarp.latch.getLsbD (24 + axisNo x) = false →
        GatesOff t x ∧ (getAx t x).start.ax = .disabled ∧ (getAx t x).seq.trip = true) ∧
      getAx t (otherAxis x) = getAx s (otherAxis x) ∧ OnlyChanges ([Part.clk, .scarp, axPart x, .mbx] ++ signals) s t) ∧
  (∀ (s : State) (l : Leg) (stays : Bool) (tick : Nat), Calm s → Awake s → s.boot.service = .none →
    s.sto.in1Low = false → s.sto.in2Low = false →
    ∃ t, exec (.scarpDigitalTrip .vgdUv l stays tick) s = .next t ∧ t.scarp.latch.getLsbD 26 = true ∧
      t.scarp.raw.getLsbD 26 = stays ∧ Raised t 0x520B 0 0xFF ∧
      (s.scarp.latch.getLsbD 26 = false →
        ∀ x, GatesOff t x ∧ (getAx t x).start.ax = .disabled ∧ (getAx t x).seq.trip = true) ∧
      OnlyChanges ([Part.clk, Part.scarp, Part.axisA, Part.axisB, Part.mbx] ++ signals) s t) ∧
  (∀ (s : State) (x : Axis) (l : Leg) (stays : Bool) (tick : Nat), Calm s → Awake s → s.boot.service = .none →
    ∃ t, exec (.scarpDigitalTrip (.junction x) l stays tick) s = .next t ∧ t.scarp.latch.getLsbD (27 + axisNo x) = true ∧
      Raised t 0x5B05 (scopeOf x) (BitVec.ofNat 8 (axisNo x * 6 + legNo l)) ∧
      (s.scarp.latch.getLsbD (27 + axisNo x) = false →
        GatesOff t x ∧ (getAx t x).start.ax = .disabled ∧ (getAx t x).seq.trip = true) ∧
      getAx t (otherAxis x) = getAx s (otherAxis x) ∧ OnlyChanges ([Part.clk, .scarp, axPart x, .th, .mbx] ++ signals) s t) ∧
  (∀ (s : State) (x : Axis) (l : Leg) (stays : Bool) (tick : Nat), Calm s → Awake s → s.boot.service = .none →
    ∃ t, exec (.scarpDigitalTrip (.software x) l stays tick) s = .next t ∧ t.scarp.latch.getLsbD (30 + axisNo x) = true ∧
      Raised t 0x5313 (scopeOf x) 0xFF ∧
      (s.scarp.latch.getLsbD (30 + axisNo x) = false →
        GatesOff t x ∧ (getAx t x).start.ax = .disabled ∧ (getAx t x).seq.trip = true ∧
        (tripped s x = false → (getAx t x).pwm.tripCount = (getAx s x).pwm.tripCount + 1)) ∧
      getAx t (otherAxis x) = getAx s (otherAxis x) ∧ OnlyChanges ([Part.clk, .scarp, axPart x, .mbx] ++ signals) s t) ∧
  (∀ (s : State) (l : Leg) (stays : Bool) (tick : Nat), Calm s → Awake s → s.boot.service = .none →
    ∃ t, exec (.scarpDigitalTrip .powerFail l stays tick) s = .next t ∧ t.scarp.latch.getLsbD 29 = true ∧ t.sum.pfCommit = true ∧
      (∀ x, GatesOff t x ∧ (getAx t x).start.ax = .disabled))

/-- Blanking and the comparator self-test (05 R106, R108, R114, R115): at the close of a window a crossing inside it counts in
BLANK_HIT up to 255, one still active trips; a comparator that does not answer its test sets its CMP_TEST_FAIL bit and raises 0x4305
or 0x2304, one that does clears it; the test goes on to the next. -/
def Obligations.BlankingAndSelfTest : Prop :=
  (∀ (s : State) (c : Fin 24) (crossed : Bool) (tick : Nat), Calm s → Awake s → s.boot.service = .none →
    windowCloses s c.val tick = true →
    ∃ t, exec (.blankWindowClose c crossed false tick) s = .next t ∧ t.scarp.raw.getLsbD c.val = false ∧
      t.scarp.latch = s.scarp.latch ∧
      (∀ k, t.scarp.blankHit[k]? = if k = c.val ∧ crossed = true then (s.scarp.blankHit[k]?).map (fun b => if b = 0xFF then b else b + 1)
        else s.scarp.blankHit[k]?) ∧ OnlyChanges [.clk, .scarp] s t) ∧
  (∀ (s : State) (c : Fin 24) (crossed : Bool) (tick : Nat), Calm s → Awake s → s.boot.service = .none →
    windowCloses s c.val tick = true →
    exec (.blankWindowClose c crossed true tick) s = exec (.scarpTrip c true tick) s) ∧
  (∀ s : State, Calm s → Awake s → s.boot.service = .none → parD s Par.cmpTestPeriod ≠ 0 →
    ∃ t, exec (.cmpSelftestTick true true) s = .next t ∧ t.scarp.testFail.getLsbD s.scarp.nextTest.val = false ∧
      t.scarp.nextTest = s.scarp.nextTest + 1 ∧ t.scarp.latch = s.scarp.latch ∧
      OnlyChanges ([Part.scarp] ++ signals) s t) ∧
  (∀ (s : State) (during after : Bool), Calm s → Awake s → s.boot.service = .none → parD s Par.cmpTestPeriod ≠ 0 →
    (during && after) = false →
    ∃ t, exec (.cmpSelftestTick during after) s = .next t ∧ t.scarp.testFail.getLsbD s.scarp.nextTest.val = true ∧
      t.scarp.nextTest = s.scarp.nextTest + 1 ∧
      (if s.scarp.nextTest.val < 12 then
        Raised t 0x4305 (if s.scarp.nextTest.val < 6 then 1 else 2) (BitVec.ofNat 8 s.scarp.nextTest.val)
      else Raised t 0x2304 0 (BitVec.ofNat 8 s.scarp.nextTest.val)) ∧
      OnlyChanges ([Part.scarp, Part.boot, Part.axisA, Part.axisB, Part.mbx] ++ signals) s t)

/-- Edges and dead-times of a leg (04 R68, R71, R73): a leg held on gets its refresh pulse, which is counted; an edge updates its
port, relative to the leg's carrier start, and the dead-time of its kind, adapted on a soft edge and DT_MIN on a hard one; a missing
edge counts, takes its commanded instant and DT_MAX, and the sixteenth in a row marks the leg with WARN 0x2202. -/
def Obligations.LegEdges : Prop :=
  (∀ (s : State) (x : Axis) (l : Leg), Calm s → (getAx s x).pwm.switching = true → l ∉ heldLegs s x → (getLeg s x l).hi = true →
    ∃ t, exec (.bootRefreshPulse x l) s = .next t ∧
      (getAx t x).stage = { (getAx s x).stage with bootRefresh := (getAx s x).stage.bootRefresh + 1 } ∧
      (getAx t x).pwm = (getAx s x).pwm ∧
      (let v := nextValley (getAx s x).pwm l (max (4 * s.clk.now) (getAx s x).pwm.carAt)
       (getLeg t x l).trans = (v + 240, (getLeg s x l).dtRise, true) :: (v, (getLeg s x l).dtFall, false) :: (getLeg s x l).trans) ∧
      (∀ k, k ≠ l → getLeg t x k = getLeg s x k) ∧ OnlyChanges [axPart x] s t) ∧
  (∀ (s : State) (x : Axis) (l : Leg) (soft : Bool) (tick since : Nat), Calm s → (getAx s x).pwm.switching = true →
    l ∉ heldLegs s x →
    ∃ t, exec (.switchNodeEdge x l true soft tick since) s = .next t ∧
      (getLeg t x l).riseAt = tick - (carrierStart (getAx s x).pwm l tick).getD 0 ∧
      (getLeg t x l).riseSoft = soft ∧ (getLeg t x l).missRun = 0 ∧ (getLeg t x l).edges = (tick, true) :: (getLeg s x l).edges ∧
      (getLeg t x l).dtRise = (if parX s x Par.dtAdapt = 0 then ticksOf (parX s x Par.dtInit)
        else if soft then min (max (since + ticksOf (parX s x Par.dtMargin)) (ticksOf (parX s x Par.dtMin))) (ticksOf (parX s x Par.dtMax))
        else ticksOf (parX s x Par.dtMin)) ∧
      (getLeg t x l).dtFall = (getLeg s x l).dtFall ∧ (∀ k, k ≠ l → getLeg t x k = getLeg s x k) ∧ OnlyChanges [axPart x] s t) ∧
  (∀ (s : State) (x : Axis) (l : Leg) (soft : Bool) (tick since : Nat), Calm s → (getAx s x).pwm.switching = true →
    l ∉ heldLegs s x →
    ∃ t, exec (.switchNodeEdge x l false soft tick since) s = .next t ∧
      (getLeg t x l).fallAt = tick - (carrierStart (getAx s x).pwm l tick).getD 0 ∧
      (getLeg t x l).fallSoft = soft ∧ (getLeg t x l).missRun = 0 ∧ (getLeg t x l).dtRise = (getLeg s x l).dtRise ∧
      (getLeg t x l).dtFall = (if parX s x Par.dtAdapt = 0 then ticksOf (parX s x Par.dtInit)
        else if soft then min (max (since + ticksOf (parX s x Par.dtMargin)) (ticksOf (parX s x Par.dtMin))) (ticksOf (parX s x Par.dtMax))
        else ticksOf (parX s x Par.dtMin)) ∧
      (∀ k, k ≠ l → getLeg t x k = getLeg s x k) ∧ OnlyChanges [axPart x] s t) ∧
  (∀ (s : State) (x : Axis) (l : Leg) (rising : Bool) (commanded : Nat), Calm s → (getAx s x).pwm.switching = true →
    l ∉ heldLegs s x →
    ∃ t, exec (.edgeMissing x l rising commanded) s = .next t ∧ (getLeg t x l).edgeMiss = (getLeg s x l).edgeMiss + 1 ∧
      (getLeg t x l).missRun = (getLeg s x l).missRun + 1 ∧
      (if rising then (getLeg t x l).riseAt = commanded - (carrierStart (getAx s x).pwm l commanded).getD 0
       else (getLeg t x l).fallAt = commanded - (carrierStart (getAx s x).pwm l commanded).getD 0) ∧
      (parX s x Par.dtAdapt ≠ 0 →
        if rising then (getLeg t x l).dtRise = ticksOf (parX s x Par.dtMax) else (getLeg t x l).dtFall = ticksOf (parX s x Par.dtMax)) ∧
      ((getLeg s x l).missRun + 1 = 16 →
        (getLeg t x l).edgeSuspect = true ∧ Raised t 0x2202 (scopeOf x) (BitVec.ofNat 8 (axisNo x * 6 + legNo l))) ∧
      (∀ k, k ≠ l → getLeg t x k = getLeg s x k) ∧ OnlyChanges ([axPart x] ++ signals) s t)

/-- Leg bypass, imbalance and ratings (04 R64, R76, R79 to R81): a tripped leg whose test pulse exceeds 10 A stands as TRIP 0x5209,
otherwise the leg is bypassed, its trip is cleared and LIMIT 0x3205 stands; the end of a commanded ramp waits for the swap; a block
of 100 ms ends with its sums; the ratings follow R75. -/
def Obligations.LegBypassAndRatings : Prop :=
  (∀ (s : State) (x : Axis) (k ma : Nat), Calm s → isReady s = true → hosted s x = true → parX s x Par.legAutoBypass = 1 →
    (dualStar s x = true ∨ parX s x Par.phaseSatOk = 1) → (getAx s x).stage.bypassMask = 0 → k < 6 →
    (getAx s x).pwm.scarpFirst = BitVec.ofNat 8 (axisNo x * 6 + k) → s.scarp.latch.getLsbD (axisNo x * 6 + k) = true →
    10000 < ma →
    ∃ t, exec (.legAutoBypass x ma) s = .next t ∧ Raised t 0x5209 (scopeOf x) (BitVec.ofNat 8 (axisNo x * 6 + k)) ∧
      t.scarp = s.scarp ∧ getAx t x = getAx s x ∧ OnlyChanges signals s t) ∧
  (∀ (s : State) (x : Axis) (k ma : Nat), Calm s → isReady s = true → hosted s x = true → parX s x Par.legAutoBypass = 1 →
    (dualStar s x = true ∨ parX s x Par.phaseSatOk = 1) → (getAx s x).stage.bypassMask = 0 → k < 6 →
    (getAx s x).pwm.scarpFirst = BitVec.ofNat 8 (axisNo x * 6 + k) → s.scarp.latch.getLsbD (axisNo x * 6 + k) = true →
    s.scarp.raw.getLsbD (axisNo x * 6 + k) = false → (getAx s x).stage.autoBypass = false → ma ≤ 10000 →
    ∃ t, exec (.legAutoBypass x ma) s = .next t ∧ t.scarp.latch.getLsbD (axisNo x * 6 + k) = false ∧
      (getAx t x).stage.bypassMask = (1 : BitVec 6) <<< k ∧ (getAx t x).stage.bypassAt = s.clk.now ∧
      Raised t 0x3205 (scopeOf x) (BitVec.ofNat 8 (axisNo x * 6 + k)) ∧
      t.cairn.pendingTr = s.cairn.pendingTr ++ [(.legBypassed x (legOf k), s.clk.now)] ∧
      OnlyChanges ([Part.scarp, Part.cairn, Part.axisA, Part.axisB] ++ signals) s t) ∧
  (∀ (s : State) (x : Axis) (l : Leg), Calm s → (getAx s x).stage.bypass = .ramp l →
    ∃ t, exec (.legBypassRampEnd x) s = .next t ∧
      getAx t x = { getAx s x with stage := { (getAx s x).stage with bypass := .atSwap l } } ∧ OnlyChanges [axPart x] s t) ∧
  (∀ (s : State) (x : Axis), Calm s → dualStar s x = false → 0 < (getAx s x).stage.imbN →
    ∃ t, exec (.legImbBlockEnd x) s = .next t ∧ (getAx t x).stage.imbN = 0 ∧ (getAx t x).stage.imbU = 0 ∧
      (getAx t x).stage.imbV = 0 ∧ (getAx t x).stage.imbW = 0 ∧
      (flt (parX s x Par.legImbWarn) (fabs (frnd (fval (getAx s x).stage.imbU / (getAx s x).stage.imbN))) = true →
        (getAx s x).stage.imbRaised.getLsbD 0 = false →
        (getAx t x).stage.imbRaised.getLsbD 0 = true ∧ Raised t 0x2201 (scopeOf x) 0) ∧
      OnlyChanges ([axPart x] ++ signals) s t) ∧
  (∀ s : State, Calm s → thoevoUp s = true →
    ∃ t, exec .ratingUpdateTick s = .next t ∧
      (∀ x, ((getAx t x).stage.iCont, (getAx t x).stage.iPeak) = ratings s x) ∧ OnlyChanges ([Part.axisA, Part.axisB] ++ signals) s t)

/-- Conversion tables and urgent requests (06 R126, R127, R129, R144, Tables 6.6, 6.7): an event of the table's own source starts or
queues the sequence of the run's entries, a divided one counts, one that finds the table busy is dropped and counted, as is in
Foothill mode one during a sequence or an urgent conversion; an urgent request takes the slot, and a second one or one to a converter
out of service is dropped and counted. -/
def Obligations.ConversionTriggers : Prop :=
  (∀ (s : State) (cv : Fin 12) (n : Fin 4) (tb : ConvTable) (k : Nat), Calm s → Awake s →
    (getCv s cv.val).tables[n.val]? = some tb → trigDue s tb = some k → tb.entries ≠ [] → tb.div.toNat ≤ tb.divCount →
    tb.todo = [] → tb.pendingRun = false →
    (s.conv.foothill = true → (getCv s cv.val).tables.any tblRuns = false ∧ (getCv s cv.val).urgent = none) →
    ∃ t, exec (.tableTrigger cv n) s = .next t ∧
      (getCv t cv.val).tables[n.val]? = some { tb with
        divCount := 0, runs := tb.runs + 1, trigAt := some k, pendingRun := (getCv s cv.val).tables.any tblRuns,
        todo := tb.entries.filter (fun e => admits (tb.runs + 1) e && owChan s cv.val != some (entryChan e)),
        holdAt := deferHold (profHolds s cv.val) (k + tb.delay.toNat + (if s.conv.foothill then 32000 else 0)) } ∧
      (∀ j : Nat, j ≠ n.val → (getCv t cv.val).tables[j]? = (getCv s cv.val).tables[j]?) ∧
      OnlyChanges [axPart (cvAxis cv.val)] (calTurn s) t) ∧
  (∀ (s : State) (cv : Fin 12) (n : Fin 4) (tb : ConvTable) (k : Nat), Calm s → Awake s →
    (getCv s cv.val).tables[n.val]? = some tb → trigDue s tb = some k → tb.entries ≠ [] → tb.divCount < tb.div.toNat →
    ∃ t, exec (.tableTrigger cv n) s = .next t ∧
      (getCv t cv.val).tables[n.val]? = some { tb with divCount := tb.divCount + 1, trigAt := some k } ∧
      OnlyChanges [axPart (cvAxis cv.val)] (calTurn s) t) ∧
  (∀ (s : State) (cv : Fin 12) (n : Fin 4) (tb : ConvTable) (k : Nat), Calm s → Awake s →
    (getCv s cv.val).tables[n.val]? = some tb → trigDue s tb = some k → tb.entries ≠ [] → tb.div.toNat ≤ tb.divCount →
    (tb.todo ≠ [] ∨ tb.pendingRun = true ∨
      (s.conv.foothill = true ∧ ((getCv s cv.val).tables.any tblRuns = true ∨ (getCv s cv.val).urgent ≠ none))) →
    ∃ t, exec (.tableTrigger cv n) s = .next t ∧
      (getCv t cv.val).tables[n.val]? = some { tb with divCount := 0, trigAt := some k, trigOvr := sat16 tb.trigOvr } ∧
      OnlyChanges [axPart (cvAxis cv.val)] (calTurn s) t) ∧
  (∀ (s : State) (cv : Fin 12) (ch : Fin 10), Calm s → Awake s → (getCv (calTurn s) cv.val).outOfService = false →
    (getCv s cv.val).urgent = none →
    ∃ t, exec (.urgentRequest cv ch) s = .next t ∧ (getCv t cv.val).urgent = some ch ∧
      (getCv t cv.val).urgAt = deferHold (profHolds s cv.val) (4 * s.clk.now) ∧
      (getCv t cv.val).urgAbort = (if regularOn (owChan s cv.val) (profHolds s cv.val) (4 * s.clk.now) (getCv s cv.val) = true
        then sat16 (getCv s cv.val).urgAbort else (getCv s cv.val).urgAbort) ∧
      (getCv t cv.val).urgDrop = (getCv s cv.val).urgDrop ∧ (getCv t cv.val).tables = (getCv s cv.val).tables ∧
      OnlyChanges [axPart (cvAxis cv.val)] (calTurn s) t) ∧
  (∀ (s : State) (cv : Fin 12) (ch : Fin 10), Calm s → Awake s →
    ((getCv (calTurn s) cv.val).outOfService = true ∨ (getCv s cv.val).urgent ≠ none) →
    ∃ t, exec (.urgentRequest cv ch) s = .next t ∧ (getCv t cv.val).urgent = (getCv s cv.val).urgent ∧
      (getCv t cv.val).urgDrop = sat16 (getCv s cv.val).urgDrop ∧ OnlyChanges [axPart (cvAxis cv.val)] (calTurn s) t)

/-- Profile points and results (06 R117, R121 to R123, R129, Tables 6.3, 6.7): point i of a profile holds the calibrated current of
every leg and its result word, with EDGE_NEAR where its hold falls in an edge window; an urgent result frees the slot, holds the word
of Table 6.3 and lets a calibration that waited begin; the result of a running table's entry is stored in that entry's word with the
run bits; the result of VM_A is the bus voltage. -/
def Obligations.ProfilesAndResults : Prop :=
  (∀ (s : State) (x : Axis) (i : Fin 16) (codes : List (BitVec 16)), Calm s → isReady s = true → s.sum.pfCommit = false →
    hosted s x = true → (getAx s x).pwm.running = true → i.val < profN s x → codes.length = 6 →
    (∃ e, (getAx s x).pwm.exts.head? = some e ∧ (getAx s x).conv.profAt + profD s x + i.val * profS s x < e.1) →
    ((getAx s x).conv.profNow.map (·.1)).Pairwise (· < ·) →
    ∃ t, exec (.profileSample x i codes) s = .next t ∧ (getAx t x).conv.profBusy = decide (i.val + 1 < profN s x) ∧
      (∀ (l : Leg) (c : BitVec 16), codes[legNo l]? = some c →
        mapGet (getAx t x).conv.profNow (legNo l * 16 + i.val) = some (profAmp s x l c,
          BitVec.ofNat 32 (c.toNat * 65536 + (axisNo x * 6 + legNo l) * 4096 +
            (if edgeNear (getLeg s x l) ((getAx s x).conv.profAt + profD s x + i.val * profS s x) then 128 else 0) +
            (if (getLeg s x l).cv.suspect then 8 else 0) + (if (getAx s x).conv.refOk then 0 else 4)) |||
          BitVec.ofNat 32 ((getAx s x).conv.profRun % 4))) ∧
      OnlyChanges [axPart x] s t) ∧
  (∀ (s : State) (cv : Fin 12) (code : BitVec 16) (degC : F32) (tm : Nat), Calm s → Awake s →
    (getCv s cv.val).urgent = some 0 → s.conv.calNext = 0 → s.conv.calWait.getLsbD cv.val = false →
    ∃ t, exec (.conversionResult cv 0 code degC tm) s = .next t ∧ (getCv t cv.val).urgent = none ∧
      (getCv t cv.val).urgentResult = BitVec.ofNat 32 (code.toNat * 65536 + cv.val * 4096 +
        (if edgeNear (getLeg s (cvAxis cv.val) (legOf (cv.val % 6))) (getCv s cv.val).urgAt then 128 else 0) + 64 +
        (if (getCv s cv.val).suspect then 8 else 0) + (if (getAx s (cvAxis cv.val)).conv.refOk then 0 else 4)) ∧
      (getCv t cv.val).results = (getCv s cv.val).results ∧ t.clk.now = max s.clk.now tm ∧
      OnlyChanges [.clk, axPart (cvAxis cv.val)] s t) ∧
  (∀ (s : State) (cv : Fin 12) (code : BitVec 16) (degC : F32) (tm : Nat), Calm s → Awake s →
    (getCv s cv.val).urgent = some 0 → s.conv.calNext = 0 → s.conv.calWait.getLsbD cv.val = true →
    ∃ t, exec (.conversionResult cv 0 code degC tm) s = .next t ∧ (getCv t cv.val).urgent = none ∧
      (getCv t cv.val).outOfService = true ∧ t.conv.calWait.getLsbD cv.val = false ∧
      (.converterOut cv, max s.clk.now tm) ∈ t.cairn.pendingTr ∧ OnlyChanges [.clk, .conv, .cairn, axPart (cvAxis cv.val)] s t) ∧
  (∀ (s : State) (cv : Fin 12) (code : BitVec 16) (degC : F32) (tm n : Nat) (tb : ConvTable) (e : Word), Calm s → Awake s →
    (getCv s cv.val).urgent ≠ some 0 → s.conv.calNext = 0 → taking none (getCv s cv.val) 0 = some n →
    (getCv s cv.val).tables[n]? = some tb → tb.trig ≠ 9 → tb.todo.head? = some e → owChan s cv.val = none →
    mapWf 0 (getCv s cv.val).results = true →
    ∃ t, exec (.conversionResult cv 0 code degC tm) s = .next t ∧
      mapRead 0 (getCv t cv.val).results (e &&& 0xFF).toNat = BitVec.ofNat 32 (code.toNat * 65536 + cv.val * 4096 +
        (if edgeNear (getLeg s (cvAxis cv.val) (legOf (cv.val % 6))) tb.holdAt then 128 else 0) +
        (if (getCv s cv.val).suspect then 8 else 0) + (if (getAx s (cvAxis cv.val)).conv.refOk then 0 else 4)) |||
        BitVec.ofNat 32 (tb.runs % 4) ∧
      OnlyChanges [.clk, axPart (cvAxis cv.val)] s t) ∧
  (∀ (s : State) (code : BitVec 16) (degC : F32) (tm : Nat), Calm s → Awake s → s.axes.a.conv.refSel = 0 →
    ∃ t, exec (.conversionResult 0 1 code degC tm) s = .next t ∧
      t.bus.vmA = frnd ((code.toInt : Rat) * mkRat 3125 1000000) ∧ t.bus.vmB = s.bus.vmB ∧ t.par = s.par ∧ t.otp = s.otp ∧ t.sum = s.sum)

/-- Arbitration and supervision of conversions (06 R133 to R138, Table 6.8): a converter whose CHK codes deviate becomes suspect with
WARN 0x2401 and its work is re-placed, both with STOP 0x440A, neither with WARN 0x2402 at most once a second; VM_A and VM_B that
differ too far raise WARN 0x2405; a reference that does not settle raises WARN 0x2406. Open-wire tests (06 R142, R143, Table 6.10):
the declared inputs take turns, each through both levels and a rest, the entries of the input under test left out of the running
sequences, and an input open by both levels is marked, counted and raises WARN 0x2404. -/
def Obligations.PlausibilityAndOpenWire : Prop :=
  (∀ (s : State) (pair : Fin 6) (ch : Fin 9) (lk hk lp hp : BitVec 16), Calm s → Awake s → 1 ≤ ch.val →
    (getPlaus s (pair.val * 8 + (ch.val - 1))).arbitrate = true →
    (chkOff s pair.val 16384 lk = true ∨ chkOff s pair.val 49152 hk = true) →
    chkOff s (pair.val + 6) 16384 lp = false → chkOff s (pair.val + 6) 49152 hp = false →
    ∃ t, exec (.arbitrationDecision pair ch lk hk lp hp) s = .next t ∧ (getCv t pair.val).suspect = true ∧
      (getCv t (pair.val + 6)).suspect = (getCv s (pair.val + 6)).suspect ∧
      Raised t 0x2401 1 (BitVec.ofNat 8 pair.val) ∧ (.converterOut (Fin.ofNat 12 pair.val), s.clk.now) ∈ t.cairn.pendingTr ∧
      t.boot.bist.getLsbD 2 = true ∧ OnlyChanges ([Part.conv, Part.axisA, Part.axisB, Part.cairn, Part.boot] ++ signals) s t) ∧
  (∀ (s : State) (pair : Fin 6) (ch : Fin 9) (lk hk lp hp : BitVec 16), Calm s → Awake s → 1 ≤ ch.val →
    (getPlaus s (pair.val * 8 + (ch.val - 1))).arbitrate = true →
    chkOff s pair.val 16384 lk = true → chkOff s (pair.val + 6) 49152 hp = true →
    ∃ t, exec (.arbitrationDecision pair ch lk hk lp hp) s = .next t ∧ (getCv t pair.val).suspect = true ∧
      (getCv t (pair.val + 6)).suspect = true ∧ Raised t 0x440A 0 (BitVec.ofNat 8 pair.val) ∧
      OnlyChanges ([Part.conv, Part.axisA, Part.axisB, Part.cairn, Part.boot, Part.mbx] ++ signals) s t) ∧
  (∀ (s : State) (pair : Fin 6) (ch : Fin 9) (lk hk lp hp : BitVec 16), Calm s → Awake s → 1 ≤ ch.val →
    (getPlaus s (pair.val * 8 + (ch.val - 1))).arbitrate = true →
    (getPlaus s (pair.val * 8 + (ch.val - 1))).warnedAt = none →
    chkOff s pair.val 16384 lk = false → chkOff s pair.val 49152 hk = false →
    chkOff s (pair.val + 6) 16384 lp = false → chkOff s (pair.val + 6) 49152 hp = false →
    ∃ t, exec (.arbitrationDecision pair ch lk hk lp hp) s = .next t ∧
      Raised t 0x2402 0 (BitVec.ofNat 8 (pair.val * 8 + (ch.val - 1))) ∧ OnlyChanges ([Part.conv] ++ signals) s t) ∧
  (∀ (s : State) (a b : Nat), Calm s → thoevoUp s = true → fval (parD s Par.vmXchk) < absR (milli a - milli b) →
    ∃ t, exec (.vmXchkTimeout a b) s = .next t ∧ Raised t 0x2405 0 0xFF ∧ OnlyChanges signals s t) ∧
  (∀ (s : State) (x : Axis), Calm s → (getAx s x).conv.refWait = true → (getAx s x).conv.refOk = false →
    ∃ t, exec (.refOkTimeout x) s = .next t ∧ Raised t 0x2406 (scopeOf x) 0xFF ∧ OnlyChanges signals s t) ∧
  (∀ s : State, Calm s → isReady s = true → s.sum.pfCommit = false → parD s Par.owPeriod ≠ 0 → s.conv.ow = .idle → owInputs s ≠ [] →
    ∃ t i, exec .openWireTestStart s = .next t ∧ (owInputs s)[s.conv.owNext % (owInputs s).length]? = some i ∧
      t.conv = { s.conv with ow := .first (extIn i), owNext := s.conv.owNext % (owInputs s).length + 1 } ∧
      (∀ (cv : Fin 12) (ch : Nat), owChan t cv.val = some ch → ∀ tb ∈ (getCv t cv.val).tables, ∀ e ∈ tb.todo, entryChan e ≠ ch) ∧
      OnlyChanges [.conv, .axisA, .axisB] s t) ∧
  (∀ (s : State) (i : ExtIn) (mv : Int), Calm s → s.conv.ow = .first i →
    ∃ t, exec (.openWireSettleExpiry mv) s = .next t ∧ t.conv = { s.conv with ow := .second i mv } ∧
      (∀ cv : Fin 12, (getCv t cv.val).urgent = (getCv s cv.val).urgent ∧ (getCv t cv.val).tables = (getCv s cv.val).tables) ∧
      OnlyChanges [.conv, .axisA, .axisB] s t) ∧
  (∀ (s : State) (i : ExtIn) (up mv : Int), Calm s → s.conv.ow = .second i up → s.conv.ext.length = 11 →
    ∃ t, exec (.openWireSettleExpiry mv) s = .next t ∧ t.conv.ow = .rest i ∧
      (getExt t (extNo i)).opened = (if extNo i < 4 then decide (1000 ≤ up ∧ mv ≤ -1000)
        else decide (fval (parD s Par.owHi) ≤ milli up ∧ milli mv ≤ fval (parD s Par.owLo))) ∧
      ((getExt t (extNo i)).opened = true → Raised t 0x2404 (extScope (extNo i)) (extDetail (extNo i))) ∧
      OnlyChanges ([Part.conv, Part.axisA, Part.axisB] ++ signals) s t) ∧
  (∀ (s : State) (i : ExtIn) (mv : Int), Calm s → s.conv.ow = .rest i →
    exec (.openWireSettleExpiry mv) s = .next { s with conv := { s.conv with ow := .idle } })

/-- Heartbeat (01 R17, 15 R320): a write counts and reaches both sequencers through cells that have not overflowed; 1 ms without one
while an axis runs loses the supervisor of every axis of the engine: HB_LOSS, STOP 0x4A06 and the brake output off. Bank arming (07
R161, R162): an armed bank that fails a check is refused and the placement stays in force; one that passes waits for its lead axis's
boundary, or is active at once where that axis runs no timebase. -/
def Obligations.HeartbeatAndArming : Prop :=
  (∀ s : State, Calm s → thoevoUp s = true →
    ∃ t, exec .heartbeatWrite s = .next t ∧ t.clk.heartbeat = s.clk.heartbeat + 1 ∧
      (∀ e, (getEng t e).heartbeat = if s.clk.colFlags.getLsbD (engNo e) then (getEng s e).heartbeat else s.clk.heartbeat + 1) ∧
      OnlyChanges [.clk, .ridge] s t) ∧
  (∀ (s : State) (e : Engine), Calm s → anyRun s = true → hostedOn s e ≠ [] → Room s 2 →
    ∃ t, exec (.heartbeatTimeout e) s = .next t ∧ t.clk.heartbeatOk = false ∧
      (∀ x ∈ hostedOn s e, (getAx t x).seq.hbLoss = true ∧ (getAx t x).stage.brake = .off ∧ Raised t 0x4A06 (scopeOf x) 0xFF) ∧
      (∀ x, x ∉ hostedOn s e → getAx t x = getAx s x) ∧ OnlyChanges ([Part.clk, Part.axisA, Part.axisB, Part.mbx] ++ signals) s t) ∧
  (∀ (s : State) (e : Engine), Calm s → (getEng s e).armed = true → bankOk (inactiveBank s e) = false →
    ∃ t, exec (.bankArmCheck e) s = .next t ∧ (getEng t e).bankBad = true ∧ (getEng t e).armed = false ∧
      (∀ f, (getEng t f).active = (getEng s f).active ∧ (getEng t f).bank0 = (getEng s f).bank0 ∧ (getEng t f).bank1 = (getEng s f).bank1) ∧
      t.cairn.active = s.cairn.active ∧ OnlyChanges [.ridge, .cairn] s t) ∧
  (∀ (s : State) (e : Engine), Calm s → (getEng s e).armed = true → bankOk (inactiveBank s e) = true →
    (getAx s (leadAxis s e)).pwm.running = true →
    ∃ t, exec (.bankArmCheck e) s = .next t ∧ (getEng t e).swapPending = true ∧ (getEng t e).armed = false ∧
      (getEng t e).active = (getEng s e).active ∧ OnlyChanges [.ridge, .flt] s t) ∧
  (∀ (s : State) (e : Engine), Calm s → (getEng s e).armed = true → bankOk (inactiveBank s e) = true →
    (getAx s (leadAxis s e)).pwm.running = false → s.cairn.arming = none →
    ∃ t, exec (.bankArmCheck e) s = .next t ∧ (getEng t e).swapPending = false ∧ (getEng t e).armed = false ∧
      (getEng t e).active = !(getEng s e).active ∧
      (∀ x, bankHosts (inactiveBank s e) x = true → (getAx t x).seq.host = some e ∧ (getAx t x).seq.initPending = true ∧
        (getAx t x).seq.periods = 0) ∧ OnlyChanges [.ridge, .flt, .axisA, .axisB] s t)

/-- Hand-over copy and engine self-test (07 R164, R170): the copy moves the axis's half of the state file to the other engine and
starts a chain that waited; the tests alternate between the engines and are skipped where the other cannot host every axis; the
signature decides, and a failed engine is marked with WARN 0x2503 and re-placed. -/
def Obligations.HandoverAndEngineTest : Prop :=
  (∀ (s : State) (x : Axis) (e : Engine), Calm s → s.ridge.copyPending = true → s.ridge.handover = some x →
    (getAx s x).seq.host = some e →
    ∃ t, exec (.handoverCopyDone x) s = .next t ∧ t.ridge.copyPending = false ∧
      (∀ p, p ∈ (getEng t (otherEng e)).file ↔ (p ∈ (getEng s e).file ∧ p.1 / 512 = axisNo x) ∨
        (p ∈ (getEng s (otherEng e)).file ∧ p.1 / 512 ≠ axisNo x)) ∧
      (getEng t e).file = (getEng s e).file ∧
      ((getAx s x).seq.chainQueued = true → (getAx t x).seq.chainQueued = false ∧ (getAx t x).seq.chainBusy = true) ∧
      OnlyChanges [.ridge, axPart x] s t) ∧
  (∀ s : State, Calm s → isReady s = true → parD s Par.rgTestPeriod ≠ 0 → swapBusy s = false → s.ridge.rga.underTest = false →
    s.ridge.rgb.underTest = false →
    ∃ t, exec .rgSelftestTick s = .next t ∧ t.ridge.nextTest = otherEng s.ridge.nextTest ∧
      (testFits s s.ridge.nextTest = false → t.ridge.testSkipped = true ∧ OnlyChanges [.ridge] s t) ∧
      (testFits s s.ridge.nextTest = true →
        t.ridge.testSkipped = false ∧ (getEng t s.ridge.nextTest).underTest = true ∧
        (∀ x, (getAx s x).seq.host = some s.ridge.nextTest → t.ridge.handover ≠ none))) ∧
  (∀ (s : State) (e : Engine) (sig : BitVec 32), Calm s → (getEng s e).underTest = true → hostedOn s e = [] →
    sig = Config.rgSignature →
    ∃ t, exec (.rgTestDone e sig) s = .next t ∧ (getEng t e).underTest = false ∧ (getEng t e).failed = (getEng s e).failed ∧
      t.boot.bist.getLsbD 1 = false ∧ t.mbx.rgTest = none ∧ OnlyChanges ([Part.ridge, Part.boot, Part.mbx] ++ messages) s t) ∧
  (∀ (s : State) (e : Engine) (sig : BitVec 32), Calm s → (getEng s e).underTest = true → hostedOn s e = [] →
    sig ≠ Config.rgSignature →
    ∃ t, exec (.rgTestDone e sig) s = .next t ∧ (getEng t e).underTest = false ∧ (getEng t e).failed = true ∧
      t.boot.bist.getLsbD 1 = true ∧ Raised t 0x2503 0 (BitVec.ofNat 8 (engNo e)) ∧
      t.cairn.pendingTr = s.cairn.pendingTr ++ [(.engineFailed e, s.clk.now)] ∧
      OnlyChanges ([Part.ridge, Part.boot, Part.cairn, Part.mbx] ++ signals) s t)

/-- A period boundary of an axis that stands DISABLED (07 R154, R157 to R159; 01 R24; 05 R94): at the counted commit point its chain
starts in IDLE, or in FAULT while a trip, a lost supervisor or an engine fault stands, the period is counted, and in IDLE the chain's
duty set is all halves where its current segment issues one; without a current segment it sends none. -/
def Obligations.BoundaryOfADisabledAxis : Prop :=
  ∀ (s : State) (x : Axis) (e : Engine) (sense : BoundarySense), Calm s → isReady s = true → s.sum.pfCommit = false →
    (getAx s x).pwm.running = true → (getAx s x).pwm.boundaryDue = true →
    (getAx s x).seq.host = some e → (getAx s x).start.ax = .disabled →
    (getAx s x).start.gateOffNext = false → (getAx s x).start.stop = none → (getAx s x).start.seeded = false →
    (getAx s x).stage.bypass = .none →
    (getAx s x).seq.written = .idle → (getAx s x).seq.chainBusy = false → (getAx s x).seq.chainQueued = false →
    (getAx s x).seq.dead = false → (getAx s (otherAxis x)).seq.chainBusy = false → swapBusy s = false → s.cairn.arming = none →
    s.ridge.copyPending = false → sense.ecc = .none →
    ∃ t, exec (.periodBoundary x sense) s = .next t ∧ t.clk.now = max s.clk.now ((getAx s x).pwm.carAt / 4) ∧
      (getAx t x).seq.mode = (if (getAx s x).seq.trip || (getAx s x).seq.hbLoss || (getAx s x).seq.rgFault then .fault else .idle) ∧
      (getAx t x).seq.periods = (getAx s x).seq.periods + 1 ∧ (getAx t x).seq.overruns = 0 ∧
      (getAx t x).seq.chainBusy = true ∧ (getAx t x).seq.first = false ∧ (getAx t x).pwm.boundaryDue = false ∧
      ((getAx s x).seq.trip = false → (getAx s x).seq.hbLoss = false → (getAx s x).seq.rgFault = false →
        (∀ d, partOf (activeBank s e) x 0 0 = some d →
          (∀ env r, (runSeg env r (segOps (activeBank s e) d)).duty.isSome = true) →
          (getAx t x).seq.duty = some (List.replicate 6 0x3F000000)) ∧
        (partOf (activeBank s e) x 0 0 = none → (getAx t x).seq.duty = none)) ∧
      t.par = s.par ∧ t.otp = s.otp ∧ t.sum = s.sum ∧ t.sto = s.sto ∧ t.xsp = s.xsp

/-- The end of a chain (07 R157, R168; 05 R95; 01 R20, R22; 16 R340): the duty set crosses whole, each duty clamped to 0..1 and a NaN
replaced by the leg's duty; one that crosses within 18 ns of the next boundary's commit point or after it is late, one after that
commit point is counted and waits for the next; the longest chain is kept, the axis's telemetry block is replaced with the period
count in word 0, and a queued chain of the other axis on the engine starts. A commit point (01 R20, R22; 05 R91, R94 to R97): the
timebase reaches the next extreme that COMMIT_SEL selects. At a boundary a set that crossed in time, and at any commit point one
that is held, becomes the duties of all six legs at once, with the compare value of the half-periods that follow, and armed gates
begin to switch unless a trip, SAFE or missing gate supply holds them off; at a boundary a set that crossed too late counts in
DUTY_LATE and is held; between boundaries any other set waits. -/
def Obligations.DutiesReachTheGates : Prop :=
  (∀ (s : State) (x : Axis) (cycles : Nat), Calm s → (getAx s x).seq.chainBusy = true →
    ∃ t, exec (.chainEnd x cycles) s = .next t ∧ (getAx t x).seq.chainBusy = false ∧ (getAx t x).seq.nanFlag = false ∧
      (getAx t x).seq.cycMax.toNat = max (getAx s x).seq.cycMax.toNat (min cycles 65535) ∧
      (∀ ds, (getAx s x).seq.duty = some ds →
        (getAx t x).pwm.crossed = some ((ds.zip (sixList (getAx s x).legs)).map (fun p =>
          if fisNan p.1 then p.2.duty else if flt p.1 0 then 0 else if flt f1 p.1 then f1 else p.1)) ∧
        (getAx t x).pwm.crossedLate = (!(getAx s x).pwm.boundaryDue && decide (periodTicks s x < cycles * 10 + 72)) ∧
        (getAx t x).pwm.crossedHeld = (getAx s x).pwm.boundaryDue ∧
        (getAx t x).pwm.dutyLate = (if (getAx s x).pwm.boundaryDue then (getAx s x).pwm.dutyLate + 1 else (getAx s x).pwm.dutyLate) ∧
        (getAx t x).seq.duty = none) ∧
      ((getAx s x).seq.duty = none → (getAx t x).pwm = (getAx s x).pwm) ∧
      (mapWf 0 (getAx s x).seq.tele = true →
        mapRead 0 (match x with | .a => t.hsp.teleA | .b => t.hsp.teleB) 0 = BitVec.ofNat 32 (getAx s x).seq.periods) ∧
      ((getAx s (otherAxis x)).seq.chainQueued = true → (getAx s (otherAxis x)).seq.host = (getAx s x).seq.host →
        s.ridge.copyPending = false → (getAx t (otherAxis x)).seq.chainBusy = true ∧ (getAx t (otherAxis x)).seq.chainQueued = false) ∧
      OnlyChanges [.axisA, .axisB, .hsp, .ridge] s t) ∧
  (∀ (s : State) (x : Axis) (peak : Bool) (p : AxisPlace) (ds : List F32) (tk : Nat), Calm s → isReady s = true →
    (getAx s x).pwm.running = true → placedAx s x = some p → (getAx s x).pwm.exts.head? = some (tk, peak) →
    (getAx s x).pwm.carAt < tk → (getAx s x).pwm.crossed = some ds → ds.length = 6 →
    ((getAx s x).pwm.crossedHeld = true ∨
      ((reachCommit p.n (getAx s x).pwm).boundaryDue = true ∧ (getAx s x).pwm.crossedLate = false)) →
    ∃ t, exec (.commitPoint x peak) s = .next t ∧ (getAx t x).pwm.crossed = none ∧ (getAx t x).pwm.crossedHeld = false ∧
      (getAx t x).pwm.carAt = tk ∧ t.clk.now = max s.clk.now (tk / 4) ∧
      (getAx t x).pwm.boundaryDue = (reachCommit p.n (getAx s x).pwm).boundaryDue ∧
      (∀ l d, ds[legNo l]? = some d → (getLeg t x l).duty = d ∧
        (∀ e1 e0 es, (getAx t x).pwm.exts = e1 :: e0 :: es → (getLeg t x l).cmp = compareValue d (e1.1 - e0.1))) ∧
      ((getAx s x).pwm.gateArm = true → tripped s x = false → s.pwr.safe = false → (getAx s x).stage.vgdOn = true →
        (getAx t x).pwm.switching = true ∧ (getAx t x).pwm.gateArm = false) ∧
      ((tripped s x = true ∨ s.pwr.safe = true ∨ (getAx s x).stage.vgdOn = false ∨ (getAx s x).pwm.gateArm = false) →
        (getAx t x).pwm.switching = (getAx s x).pwm.switching) ∧
      OnlyChanges ([.clk, axPart x] ++ messages) s t) ∧
  (∀ (s : State) (x : Axis) (peak : Bool) (p : AxisPlace) (ds : List F32) (tk : Nat), Calm s → isReady s = true →
    (getAx s x).pwm.running = true → placedAx s x = some p → (getAx s x).pwm.exts.head? = some (tk, peak) →
    (getAx s x).pwm.carAt < tk → (getAx s x).pwm.crossed = some ds → (getAx s x).pwm.crossedHeld = false →
    (reachCommit p.n (getAx s x).pwm).boundaryDue = true → (getAx s x).pwm.crossedLate = true →
    ∃ t, exec (.commitPoint x peak) s = .next t ∧ (getAx t x).pwm.dutyLate = (getAx s x).pwm.dutyLate + 1 ∧
      (getAx t x).pwm.crossed = some ds ∧ (getAx t x).pwm.crossedLate = false ∧ (getAx t x).pwm.crossedHeld = true ∧
      (∀ l, (getLeg t x l).duty = (getLeg s x l).duty) ∧ (getAx t x).pwm.switching = (getAx s x).pwm.switching ∧
      (getAx t x).pwm.carAt = tk ∧ OnlyChanges [.clk, axPart x] s t) ∧
  (∀ (s : State) (x : Axis) (peak : Bool) (p : AxisPlace) (tk : Nat), Calm s → isReady s = true →
    (getAx s x).pwm.running = true → placedAx s x = some p → (getAx s x).pwm.exts.head? = some (tk, peak) →
    (getAx s x).pwm.carAt < tk → (getAx s x).pwm.crossedHeld = false → (reachCommit p.n (getAx s x).pwm).boundaryDue = false →
    ∃ t, exec (.commitPoint x peak) s = .next t ∧ (getAx t x).pwm.crossed = (getAx s x).pwm.crossed ∧
      (getAx t x).pwm.crossedLate = (getAx s x).pwm.crossedLate ∧ (getAx t x).pwm.dutyLate = (getAx s x).pwm.dutyLate ∧
      (∀ l, (getLeg t x l).duty = (getLeg s x l).duty) ∧ (getAx t x).pwm.switching = (getAx s x).pwm.switching ∧
      (getAx t x).pwm.carAt = tk ∧ OnlyChanges [.clk, axPart x] s t)

/-- Timeouts of control (08 R181, R189, R191): a mailbox setpoint that stays away and an overspeed are STOPs, and field weakening at
its limit for 100 ms bounds the speed with LIMIT 0x3604 until it leaves the limit for as long. -/
def Obligations.ControlTimeouts : Prop :=
  (∀ (s : State) (x : Axis), Calm s → (getAx s x).sp.accepted = true → (getAx s x).sp.src = 0 → parX s x Par.spMbxTimeout ≠ 0 →
    ∃ t, exec (.spMbxTimeout x) s = .next t ∧ Raised t 0x4605 (scopeOf x) 0xFF ∧ OnlyChanges ([axPart x, .mbx] ++ signals) s t) ∧
  (∀ (s : State) (x : Axis), Calm s → (getAx s x).ctl.status.getLsbD 2 = true → (getAx s x).ctl.fwBound = none →
    ∃ t, exec (.fwExhaustedTimeout x) s = .next t ∧ (getAx t x).ctl.fwBound = some (frnd (absR (speedFb s x).1)) ∧
      Raised t 0x3604 (scopeOf x) 0xFF ∧ OnlyChanges ([axPart x] ++ signals) s t) ∧
  (∀ (s : State) (x : Axis), Calm s → (getAx s x).ctl.status.getLsbD 2 = false → (getAx s x).ctl.fwBound ≠ none →
    ∃ t, exec (.fwExhaustedTimeout x) s = .next t ∧ (getAx t x).ctl.fwBound = none ∧ ¬ Listed t 0x3604 (scopeOf x) 0xFF ∧
      OnlyChanges ([axPart x] ++ signals) s t) ∧
  (∀ (s : State) (x : Axis), Calm s → gatesOn (getAx s x) = true → (speedFb s x).2 = true →
    fval (parX s x Par.overspeed) < absR (speedFb s x).1 →
    ∃ t, exec (.overspeedTimeout x) s = .next t ∧ Raised t 0x4607 (scopeOf x) 0xFF ∧ OnlyChanges ([axPart x, .mbx] ++ signals) s t)

/-- Convergence and supervision of Crest (09 R209 to R212, R216; 10 Tables 10.3, 10.4): convergence sets the flag and ends a catch or
a saliency start in RELEASE or RUN; a loss of it (an error beyond
CREST_LOSS_ERR or a part that fails its condition) clears it, counts and stops a running or stopping axis with 0x4701; an estimate at its clamp warns; a
cross-check beyond its angle raises 0x4703 or 0x2704 and ends again. -/
def Obligations.CrestConvergence : Prop :=
  (∀ (s : State) (x : Axis), Calm s → (getAx s x).pwm.switching = true → (getAx s x).crest.conv = false →
    ((getAx s x).crest.polarity = true ∨ openLoop (getAx s x) = true) → parX s x Par.crestMode ≠ 0 →
    fle (fabs (getAx s x).crest.err) (fdeg (parX s x Par.crestConvErr)) = true → partsMeet s x = true →
    ∃ t, exec (.crestConverged x) s = .next t ∧ (getAx t x).crest.conv = true ∧ (getAx t x).crest.polarity = true ∧
      (parX s x Par.crestMode = 1 → (getAx t x).crest.posStarted = true) ∧
      (parX s x Par.crestMode = 1 → (getAx s x).start.ax = .converge → (getAx s x).start.path ≠ .align →
        (getAx s x).start.gateOffNext = false →
        if parX s x Par.hbEn = 1 ∧ (getAx s x).stage.brake = .off then
          (getAx t x).start.ax = .release ∧ (getAx t x).stage.brake = .pull ∧ (getAx t x).stage.releaseWait = true
        else (getAx t x).start.ax = .run ∧ (getAx t x).sp.accepted = true) ∧
      (parX s x Par.crestMode ≠ 1 → (getAx t x).start = (getAx s x).start) ∧ OnlyChanges ([axPart x] ++ messages) s t) ∧
  (∀ (s : State) (x : Axis), Calm s → (getAx s x).crest.conv = true →
    (parX s x Par.crestMode ≠ 0 ∨ identing (getAx s x) = true) → lossSeen s x = true →
    ∃ t, exec (.crestLoss x) s = .next t ∧ (getAx t x).crest.conv = false ∧
      (getAx t x).crest.lostCnt = (getAx s x).crest.lostCnt + 1 ∧
      (parX s x Par.crestMode = 1 → ((getAx s x).start.ax = .run ∨ (getAx s x).start.ax = .stopping) → Raised t 0x4701 (scopeOf x) 0xFF) ∧
      OnlyChanges ([axPart x, .mbx] ++ signals) s t) ∧
  (∀ (s : State) (x : Axis) (flux : Bool), Calm s → parX s x Par.crestMode ≠ 0 →
    (if flux then atClamp (psiRange s x) (getAx s x).crest.psiEst = true ∧ (getAx s x).crest.psiClamp = false
      else atClamp (rsRange s x) (getAx s x).crest.rsEst = true ∧ (getAx s x).crest.rsClamp = false) →
    ∃ t, exec (.crestClampTimeout x flux) s = .next t ∧ Raised t (if flux then 0x2703 else 0x2702) (scopeOf x) 0xFF ∧
      (if flux then (getAx t x).crest.psiClamp = true else (getAx t x).crest.rsClamp = true) ∧
      OnlyChanges ([axPart x] ++ signals) s t) ∧
  (∀ (s : State) (x : Axis), Calm s → parX s x Par.crestMode = 2 → (getAx s x).crest.conv = true →
    (getAx s x).crest.xchkOver = true → (getAx s x).crest.xchk = false →
    ∃ t, exec (.crestXchkTimeout x) s = .next t ∧ (getAx t x).crest.xchk = true ∧
      Raised t (if parX s x Par.crestXchkAct = 1 then 0x4703 else 0x2704) (scopeOf x) 0xFF ∧
      OnlyChanges ([axPart x, .mbx] ++ signals) s t) ∧
  (∀ (s : State) (x : Axis), Calm s → parX s x Par.crestMode = 2 → (getAx s x).crest.conv = true →
    (getAx s x).crest.xchkOver = false → (getAx s x).crest.xchk = true →
    ∃ t, exec (.crestXchkTimeout x) s = .next t ∧ (getAx t x).crest.xchk = false ∧
      (∀ e ∈ t.flt.list, e.code = 0x4703 → e.scope = scopeOf x → e.detail = 0xFF → e.active = false) ∧
      OnlyChanges [axPart x, .flt] s t)

/-- The outcomes of the measurement at a start and at its repeat (10 R223 to R226, R231, Table 10.2), where the land samples of the
window decide: a flagged result fails the attempt with reason 4, a terminal voltage below 0.1 V is a rotor at rest, a plausible one at
catching speed is caught in the start direction and waits in BLOCKED_WAIT against it unless FS_REV_EN allows braking through zero. With
FS_MEAS_T = 0 a valid sensor speed at catching speed is caught and any other is a rotor at rest. -/
def Obligations.MeasurementOutcomes : Prop :=
  (∀ (s : State) (x : Axis) (l : List LandSample) (m : Measurement) (c : Instr), Calm s → m = evalLands s x l →
    fisZero (parX s x Par.fsMeasT) = false →
    ((c = .measureEnd x l ∧ (getAx s x).start.ax = .measure) ∨ (c = .blockedWaitRepeat x l ∧ (getAx s x).start.ax = .blockedWait)) →
    (m.flagged = true → (getAx s x).pwm.switching = false → (getAx s x).start.retry < (parX s x Par.stRetries).toNat →
      ∃ t, exec c s = .next t ∧ (getAx t x).start.ax = .retryWait ∧ (getAx t x).start.lastFail = 4 ∧ GatesOff t x ∧
        Raised t 0x1806 (scopeOf x) 4 ∧ OnlyChanges ([axPart x] ++ signals) s t) ∧
    (m.flagged = true → (getAx s x).pwm.switching = false → (parX s x Par.stRetries).toNat ≤ (getAx s x).start.retry →
      ∃ t, exec c s = .next t ∧ (getAx t x).start.ax = .disabled ∧ (getAx t x).start.lastFail = 4 ∧
        Raised t 0x1806 (scopeOf x) 4 ∧ Raised t 0x4802 (scopeOf x) 0xFF ∧ OnlyChanges ([axPart x, .mbx] ++ signals) s t) ∧
    (m.flagged = false → fval m.u < mkRat 1 10 →
      ∃ t, exec c s = .next t ∧ (getAx t x).start.ax = (match restMethod s x (parX s x) with
          | .saliency => .read | .align => .align | _ => .converge) ∧
        (getAx s x).pwm.switching = (getAx t x).pwm.switching ∧ ((getAx s x).pwm.switching = false → (getAx t x).pwm.gateArm = true) ∧
        OnlyChanges ([axPart x] ++ messages) s t) ∧
    (m.flagged = false → mkRat 1 10 ≤ fval m.u →
      absR (fval m.we) * pf s x Par.motPsi * mkRat 7 10 ≤ fval m.u → fval m.u ≤ absR (fval m.we) * pf s x Par.motPsi * mkRat 13 10 →
      wCatch s x ≤ absR (fval m.we / polePairs s x) →
      ((getAx s x).start.anyDir = true ∨ (getAx s x).start.dirNeg = decide (fval m.we / polePairs s x < 0)) →
      ∃ t, exec c s = .next t ∧ (getAx t x).start.ax = .converge ∧ (getAx t x).start.path = .flying ∧
        (getAx t x).start.backward = false ∧ (getAx t x).pwm.gateArm = true ∧ (getAx t x).ctl.xd = 0 ∧
        (parX s x Par.crestMode ≠ 0 → (getAx t x).crest.we = frnd (fval m.we) ∧ (getAx t x).crest.polarity = true) ∧
        OnlyChanges ([axPart x] ++ messages) s t) ∧
    (m.flagged = false → mkRat 1 10 ≤ fval m.u →
      absR (fval m.we) * pf s x Par.motPsi * mkRat 7 10 ≤ fval m.u → fval m.u ≤ absR (fval m.we) * pf s x Par.motPsi * mkRat 13 10 →
      wCatch s x ≤ absR (fval m.we / polePairs s x) → parX s x Par.fsRevEn ≠ 1 →
      (getAx s x).start.anyDir = false → (getAx s x).start.dirNeg ≠ decide (fval m.we / polePairs s x < 0) →
      ∃ t, exec c s = .next t ∧ (getAx t x).start.ax = .blockedWait ∧ OnlyChanges ([axPart x] ++ messages) s t)) ∧
  (∀ (s : State) (x : Axis) (l : List LandSample) (c : Instr), Calm s → fisZero (parX s x Par.fsMeasT) = true →
    ((c = .measureEnd x l ∧ (getAx s x).start.ax = .measure) ∨ (c = .blockedWaitRepeat x l ∧ (getAx s x).start.ax = .blockedWait)) →
    (((speedFb s x).2 = false ∨ absR (speedFb s x).1 < wCatch s x) →
      ∃ t, exec c s = .next t ∧ (getAx t x).start.ax = (match restMethod s x (parX s x) with
          | .saliency => .read | .align => .align | _ => .converge) ∧ OnlyChanges ([axPart x] ++ messages) s t) ∧
    ((speedFb s x).2 = true → wCatch s x ≤ absR (speedFb s x).1 →
      ((getAx s x).start.anyDir = true ∨ (getAx s x).start.dirNeg = decide ((speedFb s x).1 < 0)) →
      ∃ t, exec c s = .next t ∧ (getAx t x).start.ax = .converge ∧ (getAx t x).start.path = .flying ∧
        (getAx t x).pwm.gateArm = true ∧ OnlyChanges ([axPart x] ++ messages) s t))

/-- Rest read, polarity test and the ends of a wait (10 R224, R225, R227, R231; 09 R207, R208, Table 9.1): a salient rotor goes on to
POLARITY, a clear polarity to CONVERGE with the angle kept or turned by half a turn, an unclear one fails with reason 3 and INFO
0x1705; a blocked rotor that does not free itself ends with 0x4801; a retry measures again. -/
def Obligations.RestReadAndPolarity : Prop :=
  (∀ (s : State) (x : Axis), Calm s → (getAx s x).start.ax = .read → (getAx s x).start.gateOffNext = false →
    readLen (readPeriods s x (parX s x Par.crestReadT)) ≤ (getAx s x).start.readPos →
    flt (getAx s x).crest.saliency (parX s x Par.crestSalMin) = false →
    ∃ t, exec (.restReadEnd x) s = .next t ∧ (getAx t x).start.ax = .polarity ∧ (getAx t x).start.readPos = 0 ∧
      (getAx t x).crest.th = fitAxis s x ∧ (getAx t x).pwm = (getAx s x).pwm ∧ OnlyChanges ([axPart x] ++ messages) s t) ∧
  (∀ (s : State) (x : Axis), Calm s → (getAx s x).start.ax = .read → (getAx s x).start.gateOffNext = false →
    readLen (readPeriods s x (parX s x Par.crestReadT)) ≤ (getAx s x).start.readPos →
    flt (getAx s x).crest.saliency (parX s x Par.crestSalMin) = true → parX s x Par.stMethod ≠ 1 →
    ∃ t, exec (.restReadEnd x) s = .next t ∧ (getAx t x).start.ax = .align ∧ (getAx t x).start.phase2 = false ∧
      OnlyChanges ([axPart x] ++ signals) s t) ∧
  (∀ (s : State) (x : Axis) (k : Rat), Calm s → (getAx s x).start.ax = .polarity → (getAx s x).start.gateOffNext = false →
    mkRat 5 1000 ≤ ((getAx s x).start.readPos : Rat) * periodSec s x → k = polarityK (getAx s x).crest.gPlus (getAx s x).crest.gMinus →
    pf s x Par.crestPolMin / 100 ≤ k →
    ∃ t, exec (.polarityTestEnd x) s = .next t ∧ (getAx t x).start.ax = .converge ∧ (getAx t x).crest.polarity = true ∧
      (getAx t x).crest.th = (getAx s x).crest.th ∧ OnlyChanges ([axPart x] ++ messages) s t) ∧
  (∀ (s : State) (x : Axis) (k : Rat), Calm s → (getAx s x).start.ax = .polarity → (getAx s x).start.gateOffNext = false →
    mkRat 5 1000 ≤ ((getAx s x).start.readPos : Rat) * periodSec s x → k = polarityK (getAx s x).crest.gPlus (getAx s x).crest.gMinus →
    k < pf s x Par.crestPolMin / 100 → k ≤ -(pf s x Par.crestPolMin / 100) →
    ∃ t, exec (.polarityTestEnd x) s = .next t ∧ (getAx t x).start.ax = .converge ∧ (getAx t x).crest.polarity = true ∧
      (getAx t x).crest.th = wrapR (fval (getAx s x).crest.th + piR) ∧ OnlyChanges ([axPart x] ++ messages) s t) ∧
  (∀ (s : State) (x : Axis) (k : Rat), Calm s → (getAx s x).start.ax = .polarity → (getAx s x).start.gateOffNext = false →
    mkRat 5 1000 ≤ ((getAx s x).start.readPos : Rat) * periodSec s x → k = polarityK (getAx s x).crest.gPlus (getAx s x).crest.gMinus →
    (getAx s x).pwm.switching = true → k < pf s x Par.crestPolMin / 100 →
    -(pf s x Par.crestPolMin / 100) < k →
    ∃ t, exec (.polarityTestEnd x) s = .next t ∧ (getAx t x).start.gateOffNext = true ∧ (getAx t x).start.failReason = 3 ∧
      Raised t 0x1705 (scopeOf x) 0xFF ∧ Raised t 0x1806 (scopeOf x) 3 ∧ OnlyChanges ([axPart x] ++ signals) s t) ∧
  (∀ (s : State) (x : Axis), Calm s → (getAx s x).start.ax = .blockedWait →
    ∃ t, exec (.fsCatchTimeout x) s = .next t ∧ (getAx t x).start.ax = .disabled ∧ GatesOff t x ∧ Raised t 0x4801 (scopeOf x) 0xFF ∧
      OnlyChanges ([axPart x, .mbx] ++ signals) s t) ∧
  (∀ (s : State) (x : Axis), Calm s → (getAx s x).start.ax = .converge → (getAx s x).start.gateOffNext = false →
    (getAx s x).start.crossing = false → (getAx s x).pwm.switching = true →
    ∃ t, exec (.stTimeout x) s = .next t ∧ (getAx t x).start.gateOffNext = true ∧ (getAx t x).start.failReason = 1 ∧
      (getAx t x).start.retryNext = decide ((getAx s x).start.retry < (parX s x Par.stRetries).toNat) ∧
      Raised t 0x1806 (scopeOf x) 1 ∧ OnlyChanges ([axPart x] ++ signals) s t) ∧
  (∀ (s : State) (x : Axis), Calm s → (getAx s x).start.ax = .retryWait → fisZero (parX s x Par.fsMeasT) = false →
    ∃ t, exec (.stRetryDelayExpiry x) s = .next t ∧ (getAx t x).start.ax = .measure ∧
      (getAx t x).start.retry = (getAx s x).start.retry + 1 ∧ (getAx t x).start.attempts = (getAx s x).start.attempts + 1 ∧
      OnlyChanges ([axPart x] ++ messages) s t)

/-- Alignment, ramp and hand-off (10 R228 to R230, Table 10.5): the rise ends with the brake release, phase 2 steps by 90 °e, a target
starts the ramp and a zero target waits and finally gives up with INFO 0x1805, the hand-off accepts setpoints and starts the merge,
and a stalled ramp fails with reason 2. -/
def Obligations.AlignmentAndRamp : Prop :=
  (∀ (s : State) (x : Axis), Calm s → (getAx s x).start.ax = .align → (getAx s x).start.risen = false →
    ∃ t, exec (.alignRiseEnd x) s = .next t ∧ (getAx t x).start.risen = true ∧
      (if parX s x Par.hbEn = 1 ∧ (getAx s x).stage.brake = .off then
        (getAx t x).stage.brake = .pull ∧ (getAx t x).stage.releaseWait = true else (getAx t x).stage = (getAx s x).stage) ∧
      (getAx t x).pwm = (getAx s x).pwm ∧ OnlyChanges [axPart x] s t) ∧
  (∀ (s : State) (x : Axis), Calm s → (getAx s x).start.ax = .align → (getAx s x).start.phase2 = false →
    (getAx s x).start.alignDone = false →
    ∃ t, exec (.alignPhase2 x) s = .next t ∧ (getAx t x).start = { (getAx s x).start with
        phase2 := true, phi := wrapR (fval (getAx s x).start.phi + (if (getAx s x).start.dirNeg then -1 else 1) * piR / 2) } ∧
      OnlyChanges [axPart x] s t) ∧
  (∀ (s : State) (x : Axis), Calm s → (getAx s x).start.ax = .align → (getAx s x).start.alignDone = false →
    (getAx s x).stage.releaseWait = false → (getAx s x).start.gateOffNext = false →
    ∃ t, exec (.alignEnd x) s = .next t ∧ (getAx t x).start.alignDone = true ∧
      (getAx t x).start.ax = (if startTarget s x = 0 then .align else .ramp) ∧
      (startTarget s x ≠ 0 → (getAx t x).start.wRamp = 0 ∧ (getAx t x).start.t0 = s.clk.now) ∧
      OnlyChanges ([axPart x] ++ messages) s t) ∧
  (∀ (s : State) (x : Axis), Calm s → (getAx s x).start.ax = .align → (getAx s x).start.alignDone = true → startTarget s x = 0 →
    ∃ t, exec (.startIdleTimeout x) s = .next t ∧ (getAx t x).start.gateOffNext = true ∧ (getAx t x).start.retryNext = false ∧
      Raised t 0x1805 (scopeOf x) 0xFF ∧ OnlyChanges ([axPart x] ++ signals) s t) ∧
  (∀ (s : State) (x : Axis), Calm s → openLoop (getAx s x) = true → wHandoff s x ≤ fval (getAx s x).start.wRamp →
    (getAx s x).crest.conv = true → (getAx s x).start.gateOffNext = false →
    ∃ t, exec (.rampHandoff x) s = .next t ∧ (getAx t x).start.ax = .run ∧ (getAx t x).sp.accepted = true ∧
      (getAx t x).start.merge = some s.clk.now ∧ (getAx t x).start.crossing = false ∧
      (getAx t x).ctl.wRef = frnd ((if (getAx s x).start.dirNeg then -1 else 1) * wHandoff s x) ∧
      OnlyChanges ([axPart x] ++ messages) s t) ∧
  (∀ (s : State) (x : Axis), Calm s → (getAx s x).start.merge ≠ none →
    ∃ t, exec (.mergeEnd x) s = .next t ∧ (getAx t x).start = { (getAx s x).start with merge := none } ∧ OnlyChanges [axPart x] s t) ∧
  (∀ (s : State) (x : Axis), Calm s → openLoop (getAx s x) = true → wRated s x * mkRat 2 100 ≤ absR (fval (getAx s x).start.wRamp) →
    mkRat 3 10 * absR (fval (getAx s x).start.wRamp) < absR (crestWm s x - dirS (getAx s x) * fval (getAx s x).start.wRamp) →
    (getAx s x).start.gateOffNext = false → (getAx s x).start.crossing = false → (getAx s x).pwm.switching = true →
    ∃ t, exec (.rampStall x) s = .next t ∧ (getAx t x).start.gateOffNext = true ∧ (getAx t x).start.failReason = 2 ∧
      Raised t 0x1806 (scopeOf x) 2 ∧ OnlyChanges ([axPart x] ++ signals) s t)

/-- The ends of a stop and a stall (10 R234 to R237, Tables 10.8 to 10.10): standstill ends a ramp or quick stop, after HB_ENGAGE_T
where there is a holding brake; STOP_TMAX turns it into a coast with WARN 0x2807; a stall is STOP 0x4803. The holding-brake output
(04 R88, R89; 10 R236): pull then hold at HB_HOLD_DUTY of 24 V over the bus voltage, overcurrent switches it off with STOP 0x4208, a
current below HB_OPEN_THR raises WARN 0x2203 and leaves it on, the release brings the axis to RUN with setpoints accepted, 5 ms
after a trip it switches off, and the engage time ends a stop with the axis DISABLED. -/
def Obligations.StopsAndHoldingBrake : Prop :=
  (∀ (s : State) (x : Axis), Calm s → (getAx s x).start.ax = .stopping →
    ((getAx s x).start.stop = some .ramp ∨ (getAx s x).start.stop = some .quick) → (getAx s x).stage.engageWait = false →
    standsStill s x = true →
    ∃ t, exec (.standstillReached x) s = .next t ∧ (getAx t x).stage.brake = .off ∧
      (if parX s x Par.hbEn = 1 then (getAx t x).stage.engageWait = true ∧ (getAx t x).ctl.wRef = 0 ∧ (getAx t x).start = (getAx s x).start
        else (getAx t x).start.ax = .disabled ∧ GatesOff t x) ∧ OnlyChanges ([axPart x] ++ messages) s t) ∧
  (∀ (s : State) (x : Axis), Calm s → (getAx s x).start.ax = .stopping →
    ((getAx s x).start.stop = some .ramp ∨ (getAx s x).start.stop = some .quick) → (getAx s x).stage.engageWait = false →
    (getAx s x).pwm.switching = true →
    ∃ t, exec (.stopTmaxExpiry x) s = .next t ∧ (getAx t x).start.stop = some .coast ∧ (getAx t x).start.gateOffNext = true ∧
      (getAx t x).stage.brake = .off ∧ Raised t 0x2807 (scopeOf x) 0xFF ∧ OnlyChanges ([axPart x, .mbx] ++ signals) s t) ∧
  (∀ (s : State) (x : Axis), Calm s → (getAx s x).start.ax = .run → (speedFb s x).2 = true →
    absR (speedFb s x).1 < pf s x Par.stallW →
    pf s x Par.stallIFrac * iLim s x / 100 ≤ absR (fval (getAx s x).ctl.iqRef) →
    ((getAx s x).sp.mode = 1 → pf s x Par.stallW < absR (fval (getAx s x).ctl.wRef)) →
    ((getAx s x).sp.mode = 2 → (getAx s x).ctl.errGrows = true) →
    ∃ t, exec (.stallTimeout x) s = .next t ∧ Raised t 0x4803 (scopeOf x) 0xFF ∧ OnlyChanges ([axPart x, .mbx] ++ signals) s t) ∧
  (∀ (s : State) (x : Axis), Calm s → (getAx s x).stage.brake = .pull →
    ∃ t, exec (.hbPullExpiry x) s = .next t ∧
      getAx t x = { getAx s x with stage := { (getAx s x).stage with brake := .hold } } ∧
      hbDuty t x = fmin f1 (frnd (fval (parX s x Par.hbHoldDuty) / 100 * 24 / fval (hbBus s x))) ∧ OnlyChanges [axPart x] s t) ∧
  (∀ (s : State) (x : Axis) (ma us : Nat), Calm s → (getAx s x).stage.brake ≠ .off → (1800 < ma ∧ 50 ≤ us ∨ 3000 < ma) →
    ∃ t, exec (.hbOvercurrent x ma us) s = .next t ∧ (getAx t x).stage.brake = .off ∧ Raised t 0x4208 (scopeOf x) 0xFF ∧
      OnlyChanges ([axPart x, .mbx] ++ signals) s t) ∧
  (∀ (s : State) (x : Axis) (ma : Nat), Calm s → (getAx s x).stage.brake = .hold → (ma : Rat) < fval (parX s x Par.hbOpenThr) →
    ∃ t, exec (.hbOpenTimeout x ma) s = .next t ∧ Raised t 0x2203 (scopeOf x) 0xFF ∧ OnlyChanges signals s t) ∧
  (∀ (s : State) (x : Axis), Calm s → (getAx s x).stage.releaseWait = true → (getAx s x).start.ax = .release →
    ∃ t, exec (.hbReleaseExpiry x) s = .next t ∧ (getAx t x).start.ax = .run ∧ (getAx t x).sp.accepted = true ∧
      (getAx t x).stage.releaseWait = false ∧ (getAx t x).stage.brake = (getAx s x).stage.brake ∧ (getAx t x).pwm = (getAx s x).pwm ∧
      OnlyChanges ([axPart x] ++ messages) s t) ∧
  (∀ (s : State) (x : Axis), Calm s → (getAx s x).stage.tripHold = true →
    ∃ t, exec (.hbTripHoldExpiry x) s = .next t ∧ (getAx t x).stage.brake = .off ∧ (getAx t x).stage.tripHold = false ∧
      (getAx t x).start = (getAx s x).start ∧ (getAx t x).pwm = (getAx s x).pwm ∧ OnlyChanges [axPart x] s t) ∧
  (∀ (s : State) (x : Axis), Calm s → (getAx s x).stage.engageWait = true → (getAx s x).start.ax = .stopping →
    ∃ t, exec (.hbEngageExpiry x) s = .next t ∧ (getAx t x).start.ax = .disabled ∧ GatesOff t x ∧
      (getAx t x).stage.engageWait = false ∧ getAx t (otherAxis x) = getAx s (otherAxis x) ∧
      OnlyChanges ([axPart x] ++ messages) s t)

/-- The local command curve (08 R195, R196, Table 8.6): a period of PWM_CMD from 40 µs to 20 ms whose levels pass
their filter (02 R32) gives its duty, any other and a
missing one fault the input with WARN 0x2602; the first valid value arms the curve below CURVE_ON; an armed crossing of CURVE_ON
turns it on and a value below CURVE_OFF turns it off. -/
def Obligations.LocalCurve : Prop :=
  (∀ (s : State) (x : Axis) (p h : Nat), Calm s → isReady s = true → curveUsed s x = true → curvePar s x Par.curveIn = 1 →
    40000 ≤ p → p ≤ 20000000 → h ≤ p → filtPass (parD s Par.pwmCmdFilt) h = true → filtPass (parD s Par.pwmCmdFilt) (p - h) = true →
    ∃ t, exec (.pwmCmdPeriod p h) s = .next t ∧ (getAx t x).sp.curveIn = frnd (mkRat h p) ∧ (getAx t x).sp.curveSeen = true ∧
      (getAx t x).sp.curveFault = false ∧ (getAx t x).start = (getAx s x).start ∧ OnlyChanges [.axisA, .axisB] s t) ∧
  (∀ (s : State) (x : Axis) (c : Instr), Calm s → isReady s = true → curveUsed s x = true → curvePar s x Par.curveIn = 1 →
    (getAx s x).sp.curveFault = false →
    (c = .pwmCmdTimeout ∨ ∃ p h, c = .pwmCmdPeriod p h ∧ filtPass (parD s Par.pwmCmdFilt) h = true ∧
      filtPass (parD s Par.pwmCmdFilt) (p - h) = true ∧ (p < 40000 ∨ 20000000 < p)) →
    ∃ t, exec c s = .next t ∧ (getAx t x).sp.curveFault = true ∧ (getAx t x).sp.curveOn = false ∧
      Raised t 0x2602 (scopeOf x) 0xFF ∧ OnlyChanges ([Part.axisA, Part.axisB, Part.mbx] ++ signals) s t) ∧
  (∀ (s : State) (x : Axis), Calm s → (getAx s x).sp.curveSeen = true → (getAx s x).sp.curveValid = false →
    ∃ t, exec (.curveFilterValid x) s = .next t ∧ (getAx t x).sp = { (getAx s x).sp with
        curveValid := true, curveArmed := flt (getAx s x).sp.curveX (curvePar s x Par.curveOn) } ∧ OnlyChanges [axPart x] s t) ∧
  (∀ (s : State) (x : Axis) (v : F32), Calm s → isReady s = true → curveUsed s x = true → (getAx s x).sp.curveValid = true →
    (getAx s x).sp.curveFault = false → fle (curvePar s x Par.curveOn) v = true → (getAx s x).sp.curveOn = false →
    (getAx s x).sp.curveArmed = true → curvePar s x Par.curveAuto ≠ 1 →
    ∃ t, exec (.curveCrossing x v) s = .next t ∧ (getAx t x).sp = { (getAx s x).sp with curveX := v, curveOn := true, curveArmed := false } ∧
      (getAx t x).start = (getAx s x).start ∧ OnlyChanges [axPart x] s t) ∧
  (∀ (s : State) (x : Axis) (v : F32), Calm s → isReady s = true → curveUsed s x = true → (getAx s x).sp.curveValid = true →
    (getAx s x).sp.curveFault = false → fle (curvePar s x Par.curveOn) v = false → flt v (curvePar s x Par.curveOff) = true →
    (getAx s x).sp.curveOn = true →
    ∃ t, exec (.curveCrossing x v) s = .next t ∧ (getAx t x).sp.curveOn = false ∧ (getAx t x).sp.curveX = v ∧
      (curvePar s x Par.curveAuto = 1 → (getAx s x).start.ax = .run → (getAx s x).pwm.switching = true →
        (getAx t x).start.ax = .stopping ∧ (getAx t x).start.stop = some .ramp) ∧
      OnlyChanges ([axPart x, .mbx] ++ signals) s t)

/-- Quadrature and Z (11 R244, R246, Table 11.6): a neighbouring pair counts once in its direction, a jump of two counts QERR and the
fourth within 1 ms is STOP 0x4910; the first Z references the position and reports 0x1901, a later one within FB_Z_TOL changes
nothing, one outside counts with 0x2902, the third running is STOP 0x4916. Hall inputs (11 R247, R248, Table 11.3): a legal
neighbour steps the position by one of 6·p sectors where Hall is the source; an illegal state or a jump counts and, held for its
time, is STOP 0x4911; as a helper the first edge gives the offset angle and a mismatch later counts with 0x2903, the third running
is STOP 0x4912. -/
def Obligations.EncoderAndHallInputs : Prop :=
  (∀ (s : State) (x : Axis) (a b : Bool) (t ns : Nat), Calm s → fbRuns s x = true → parX s x Par.fbSrc = 1 →
    filtPass (parX s x Par.fbQepFilt) ns = true →
    ((quadPhase (a, b) + 4 - quadPhase (getAx s x).fb.ab) % 4 = 1 ∨ (quadPhase (a, b) + 4 - quadPhase (getAx s x).fb.ab) % 4 = 3) →
    ∃ s', exec (.quadCount x a b t ns) s = .next s' ∧ (getAx s' x).fb.ab = (a, b) ∧
      (getAx s' x).fb.up = decide ((quadPhase (a, b) + 4 - quadPhase (getAx s x).fb.ab) % 4 = 1) ∧
      (getAx s' x).fb.pos = stepCount (countsPerRev s x) (getAx s' x).fb.up (getAx s x).fb.pos ∧
      (getAx s' x).fb.qerr = (getAx s x).fb.qerr ∧ s'.clk = { s.clk with now := max s.clk.now t } ∧
      OnlyChanges ([axPart x, .clk] ++ signals) s s') ∧
  (∀ (s : State) (x : Axis) (a b : Bool) (t ns : Nat), Calm s → fbRuns s x = true → parX s x Par.fbSrc = 1 →
    filtPass (parX s x Par.fbQepFilt) ns = true →
    (quadPhase (a, b) + 4 - quadPhase (getAx s x).fb.ab) % 4 = 2 →
    s.flt.list.any (sameFault 0x4910 (scopeOf x) 0xFF) = false →
    ∃ s', exec (.quadCount x a b t ns) s = .next s' ∧ (getAx s' x).fb.ab = (a, b) ∧ (getAx s' x).fb.pos = (getAx s x).fb.pos ∧
      (getAx s' x).fb.qerr = (getAx s x).fb.qerr + 1 ∧
      (if 3 ≤ ((getAx s x).fb.qerrStamps.filter (fun u => decide (max s.clk.now t < u + 1000000))).length then
        (getAx s' x).fb.faulted = true ∧ Raised s' 0x4910 (scopeOf x) 0xFF ∧ OnlyChanges ([axPart x, .clk, .mbx] ++ signals) s s'
      else (getAx s' x).fb.faulted = (getAx s x).fb.faulted ∧ OnlyChanges [axPart x, .clk] s s')) ∧
  (∀ (s : State) (x : Axis) (t ns : Nat), Calm s → fbRuns s x = true → parX s x Par.fbZMode = 1 →
    filtPass (parX s x Par.fbQepFilt) ns = true →
    (parX s x Par.fbSrc = 1 ∨ parX s x Par.fbSrc = 3) → (getAx s x).fb.referenced = false →
    ∃ s', exec (.zEdge x (getAx s x).fb.up t ns) s = .next s' ∧ (getAx s' x).fb.referenced = true ∧
      (getAx s' x).fb.pos = (getAx s x).fb.pos / revFrac * revFrac ∧ Raised s' 0x1901 (scopeOf x) 0xFF ∧
      OnlyChanges ([axPart x, .clk] ++ signals) s s') ∧
  (∀ (s : State) (x : Axis) (t ns : Nat), Calm s → fbRuns s x = true → parX s x Par.fbZMode = 1 →
    filtPass (parX s x Par.fbQepFilt) ns = true →
    (parX s x Par.fbSrc = 1 ∨ parX s x Par.fbSrc = 3) → (getAx s x).fb.referenced = true →
    min (countOf (countsPerRev s x) (getAx s x).fb.pos) (countsPerRev s x - countOf (countsPerRev s x) (getAx s x).fb.pos)
      ≤ ((parX s x Par.fbZTol).toNat : Int) →
    ∃ s', exec (.zEdge x (getAx s x).fb.up t ns) s = .next s' ∧ (getAx s' x).fb = { (getAx s x).fb with zRun := 0 } ∧
      OnlyChanges [axPart x, .clk] s s') ∧
  (∀ (s : State) (x : Axis) (t ns : Nat), Calm s → fbRuns s x = true → parX s x Par.fbZMode = 1 →
    filtPass (parX s x Par.fbQepFilt) ns = true →
    (parX s x Par.fbSrc = 1 ∨ parX s x Par.fbSrc = 3) → (getAx s x).fb.referenced = true →
    ((parX s x Par.fbZTol).toNat : Int) <
      min (countOf (countsPerRev s x) (getAx s x).fb.pos) (countsPerRev s x - countOf (countsPerRev s x) (getAx s x).fb.pos) →
    ∃ s', exec (.zEdge x (getAx s x).fb.up t ns) s = .next s' ∧ (getAx s' x).fb.zErr = (getAx s x).fb.zErr + 1 ∧
      (getAx s' x).fb.zRun = (getAx s x).fb.zRun + 1 ∧ (getAx s' x).fb.pos = (getAx s x).fb.pos ∧ Raised s' 0x2902 (scopeOf x) 0xFF ∧
      (if 2 ≤ (getAx s x).fb.zRun then Raised s' 0x4916 (scopeOf x) 0xFF ∧ (getAx s' x).fb.faulted = true ∧
          OnlyChanges ([axPart x, .clk, .mbx] ++ signals) s s'
        else OnlyChanges ([axPart x, .clk] ++ signals) s s')) ∧
  (∀ (s : State) (x : Axis) (h : BitVec 3) (t ns k : Nat), Calm s → fbRuns s x = true → parX s x Par.fbSrc = 2 →
    filtPass (parX s x Par.fbHallFilt) ns = true →
    hallIdx h = some k → ((k + 6 - (hallIdx (getAx s x).fb.hall).getD 0) % 6 = 1 ∨
      (k + 6 - (hallIdx (getAx s x).fb.hall).getD 0) % 6 = 5) →
    ∃ s', exec (.hallEdge x h t ns) s = .next s' ∧ (getAx s' x).fb.hall = h ∧ (getAx s' x).fb.hallIllegal = false ∧
      (getAx s' x).fb.up = (decide ((k + 6 - (hallIdx (getAx s x).fb.hall).getD 0) % 6 = 1) != (parX s x Par.fbHallRev == 1)) ∧
      (getAx s' x).fb.pos = stepCount (6 * ((parX s x Par.motPolePairs).toNat : Int)) (getAx s' x).fb.up (getAx s x).fb.pos ∧
      OnlyChanges ([axPart x, .clk] ++ signals) s s') ∧
  (∀ (s : State) (x : Axis) (h : BitVec 3) (t ns : Nat), Calm s → fbRuns s x = true →
    (parX s x Par.fbSrc = 2 ∨ parX s x Par.fbHallUse = 1) → filtPass (parX s x Par.fbHallFilt) ns = true →
    (h = 0 ∨ h = 7 ∨ ∃ k, hallIdx h = some k ∧ (k + 6 - (hallIdx (getAx s x).fb.hall).getD 0) % 6 ≠ 0 ∧
      (k + 6 - (hallIdx (getAx s x).fb.hall).getD 0) % 6 ≠ 1 ∧ (k + 6 - (hallIdx (getAx s x).fb.hall).getD 0) % 6 ≠ 5) →
    ∃ s', exec (.hallEdge x h t ns) s = .next s' ∧
      (getAx s' x).fb = { (getAx s x).fb with hallErr := (getAx s x).fb.hallErr + 1, hallIllegal := true } ∧
      OnlyChanges [axPart x, .clk] s s') ∧
  (∀ (s : State) (x : Axis) (h : BitVec 3) (t ns k : Nat), Calm s → fbRuns s x = true → parX s x Par.fbSrc ≠ 2 →
    parX s x Par.fbHallUse = 1 → filtPass (parX s x Par.fbHallFilt) ns = true → (getAx s x).fb.hallOfs = none →
    hallIdx h = some k → ((k + 6 - (hallIdx (getAx s x).fb.hall).getD 0) % 6 = 1 ∨
      (k + 6 - (hallIdx (getAx s x).fb.hall).getD 0) % 6 = 5) →
    ∃ s', exec (.hallEdge x h t ns) s = .next s' ∧ (getAx s' x).fb.hall = h ∧ (getAx s' x).fb.hallOfs ≠ none ∧
      (getAx s' x).fb.pos = (getAx s x).fb.pos ∧ OnlyChanges ([axPart x, .clk] ++ signals) s s') ∧
  (∀ (s : State) (x : Axis) (h : BitVec 3) (t ns k k0 : Nat) (ofs : F32), Calm s → fbRuns s x = true → parX s x Par.fbSrc ≠ 2 →
    parX s x Par.fbHallUse = 1 → filtPass (parX s x Par.fbHallFilt) ns = true → (getAx s x).fb.hallOfs = some ofs →
    fbCoarse s x = false →
    hallIdx h = some k → k0 = (hallIdx (getAx s x).fb.hall).getD 0 → ((k + 6 - k0) % 6 = 1 ∨ (k + 6 - k0) % 6 = 5) →
    pf s x Par.fbHallTol < absR (degDiff (fval (elecOf s x (fbPos s x)) * 180 / piR)
      (hallCentre s x k0 + (degDiff (hallCentre s x k) (hallCentre s x k0)) / 2)) →
    ∃ s', exec (.hallEdge x h t ns) s = .next s' ∧ (getAx s' x).fb.hall = h ∧
      (getAx s' x).fb.hallErr = (getAx s x).fb.hallErr + 1 ∧ (getAx s' x).fb.hallRun = (getAx s x).fb.hallRun + 1 ∧
      Raised s' 0x2903 (scopeOf x) 0xFF ∧
      (2 ≤ (getAx s x).fb.hallRun → (getAx s' x).fb.faulted = true ∧ Raised s' 0x4912 (scopeOf x) 0xFF) ∧
      OnlyChanges ([axPart x, .clk, .mbx] ++ signals) s s') ∧
  (∀ (s : State) (x : Axis), Calm s → fbRuns s x = true → (getAx s x).fb.hallIllegal = true →
    ∃ s', exec (.hallIllegalTimeout x) s = .next s' ∧ (getAx s' x).fb = { (getAx s x).fb with faulted := true } ∧
      Raised s' 0x4911 (scopeOf x) 0xFF ∧ OnlyChanges ([axPart x, .mbx] ++ signals) s s')

/-- Sampled sources (11 R249 to R251, R253, Table 11.6): a sin/cos pair, at the instant of its period, within the amplitude limits
gives the sample of its quarter and fine count, one outside is replaced by extrapolation with 0x2904, the third running is STOP 0x4913; a serial request starts a
frame or marks the running one late; a good frame gives its position, a bad one is replaced with 0x2905 and FB_SER_ERRMAX running
are STOP 0x4914. -/
def Obligations.SampledSources : Prop :=
  (∀ (s : State) (x : Axis) (sin cos : BitVec 16) (q : Int) (due tm cs cc : Nat) (amp : F32), Calm s → fbRuns s x = true →
    parX s x Par.fbSrc = 3 → (getAx s x).fb.scDue = some due → tm = (due + nsTicks (parX s x Par.fbScDelay)) / 4 →
    cs = scCv s (match x with | .a => 2 | .b => 4) → cc = scCv s (match x with | .a => 3 | .b => 5) →
    (∀ k, (getCv s k).suspect = false) → (∀ y, (getAx s y).conv.refOk = true) →
    amp = fsqrtRat (((sin.toInt : Rat) * vRef s cs / 65536) * ((sin.toInt : Rat) * vRef s cs / 65536) +
      ((cos.toInt : Rat) * vRef s cc / 65536) * ((cos.toInt : Rat) * vRef s cc / 65536)) →
    ∃ s', exec (.sincosSampleEvent x sin cos q) s = .next s' ∧ (getAx s' x).fb.amp = amp ∧ (getAx s' x).fb.scDue = none ∧
      (if flt amp (parX s x Par.fbScAmin) = true ∨ flt (parX s x Par.fbScAmax) amp = true then
        (getAx s' x).fb.ampOut = true ∧ (getAx s' x).fb.scRun = (getAx s x).fb.scRun + 1 ∧
        (getAx s' x).fb.sample = some (extrapolate s x tm) ∧ Raised s' 0x2904 (scopeOf x) 0xFF ∧
        (2 ≤ (getAx s x).fb.scRun → (getAx s' x).fb.faulted = true ∧ Raised s' 0x4913 (scopeOf x) 0xFF)
      else (getAx s' x).fb.ampOut = false ∧ (getAx s' x).fb.scRun = 0 ∧
        (getAx s' x).fb.quarter % 4 = (quadrant sin.toInt cos.toInt : Int) ∧
        (getAx s' x).fb.sample = some (sincosPos s x (getAx s' x).fb.quarter (scFine sin.toInt cos.toInt))) ∧
      OnlyChanges ([axPart x, .clk, .mbx] ++ signals) s s') ∧
  (∀ (s : State) (x : Axis) (high : Bool) (due : Nat), Calm s → fbRuns s x = true → serialSrc s x = true →
    (getAx s x).fb.serDue = some due →
    ∃ s', exec (.serialFrameRequest x high) s = .next s' ∧
      (getAx s' x).fb = (if (getAx s x).fb.serBusy then { (getAx s x).fb with serDue := none, serLate := true }
        else { (getAx s x).fb with
          serDue := none, serBusy := true, serLate := false, serDatHigh := high, serAt := due / 4 + usNs (parX s x Par.fbSerDelay) }) ∧
      OnlyChanges [axPart x, .clk] s s') ∧
  (∀ (s : State) (x : Axis) (started : Bool) (bits : List Bool) (t : Nat) (r : SerFrame), Calm s → fbRuns s x = true →
    serialSrc s x = true → (getAx s x).fb.serBusy = true → (getAx s x).fb.serLate = false → (getAx s x).fb.serDatHigh = true →
    r = (serFields s x).foldl (serField s x started) { rest := bits } → r.ok = true → r.single ≠ none →
    (pf s x Par.fbJumpMax = 0 ∨ (getAx s x).fb.valid = false) →
    ∃ s', exec (.serialFrameEnd x started bits t) s = .next s' ∧ (getAx s' x).fb.serBusy = false ∧
      (getAx s' x).fb.sample = some (serPos r ((getAx s x).fb.sample.getD (getAx s x).fb.pos)) ∧ (getAx s' x).fb.valid = true ∧
      (getAx s' x).fb.referenced = true ∧ (getAx s' x).fb.serRun = 0 ∧ OnlyChanges ([axPart x, .clk] ++ signals) s s') ∧
  (∀ (s : State) (x : Axis) (started : Bool) (bits : List Bool) (t : Nat) (r : SerFrame), Calm s → fbRuns s x = true →
    serialSrc s x = true → (getAx s x).fb.serBusy = true →
    r = (serFields s x).foldl (serField s x started) { rest := bits } →
    ((getAx s x).fb.serLate = true ∨ (getAx s x).fb.serDatHigh = false ∨ r.ok = false ∨ r.single = none) →
    ∃ s', exec (.serialFrameEnd x started bits t) s = .next s' ∧ (getAx s' x).fb.serBusy = false ∧
      (getAx s' x).fb.serErr = (getAx s x).fb.serErr + 1 ∧ (getAx s' x).fb.serRun = (getAx s x).fb.serRun + 1 ∧
      (getAx s' x).fb.sample = some (extrapolate s x ((getAx s x).fb.serAt + usNs (parX s x Par.fbSerLat))) ∧
      Raised s' 0x2905 (scopeOf x) 0xFF ∧
      ((parX s x Par.fbSerErrmax).toNat ≤ (getAx s x).fb.serRun + 1 → (getAx s' x).fb.faulted = true ∧ Raised s' 0x4914 (scopeOf x) 0xFF) ∧
      OnlyChanges ([axPart x, .clk, .mbx] ++ signals) s s')

/-- Standstill (11 R256): it sets the flag, reports speed 0 and makes the speed invalid. Compare (R259, R260): a hit, where the motion
crosses V in the armed direction, moves V by CMP_STEP in that direction, counts, queues V with its time while the FIFO has room, lays
its pulse behind those that wait, and disarms the unit with its enable bit after CMP_N hits; with 16 pulses waiting it is counted in
the overrun with WARN 0x2907 at most once a second. Capture (R261), on either input: a selected edge that passes its filter queues
position and time, of a sampled source until the next sample; a full FIFO counts it in CAP_OVR with WARN 0x2908. -/
def Obligations.CompareAndCapture : Prop :=
  (∀ (s : State) (x : Axis), Calm s → fbRuns s x = true →
    ∃ s', exec (.fbStandstillTimeout x) s = .next s' ∧
      (getAx s' x).fb = { (getAx s x).fb with standstill := true, inDir := 0, speed := 0, speedValid := false } ∧
      OnlyChanges [axPart x] s s') ∧
  (∀ (s : State) (x : Axis) (u : CmpUnit) (t now : Nat) (c : CmpSt) (down : Bool) (live : List Nat), Calm s → fbRuns s x = true →
    c = getCmp (getAx s x).fb u → down = (parX s x (cmpPar u Par.cmpCfg0)).getLsbD 1 →
    c.armed = true → crossed s x c down = true → now = crossAt s x c (max s.clk.now t) →
    live = c.ends.filter (fun e => decide (now < e)) → live.length < 16 →
    ∃ s', exec (.compareHit x u t) s = .next s' ∧
      (getCmp (getAx s' x).fb u).v = c.v + (if down then -1 else 1) * (((parX s x (cmpPar u Par.cmpStep0)).toNat : Int) * 4096) ∧
      (getCmp (getAx s' x).fb u).hits = c.hits + 1 ∧ (getCmp (getAx s' x).fb u).ovr = c.ovr ∧
      (getCmp (getAx s' x).fb u).ends = live ++ [max (if sampledSrc s x then now + periodNs s x else now)
        ((live.getLast?).elim 0 (· + 100)) + usNs (parX s x (cmpPar u Par.cmpPulse0))] ∧
      (getCmp (getAx s' x).fb u).fifo = (if c.fifo.length < 16 then c.fifo ++ [(c.v, (fifoTime s now).1, (fifoTime s now).2)] else c.fifo) ∧
      (if parX s x (cmpPar u Par.cmpN0) ≠ 0 ∧ (parX s x (cmpPar u Par.cmpN0)).toNat ≤ (c.hits + 1).toNat then
        (getCmp (getAx s' x).fb u).armed = false ∧ (parX s' x (cmpPar u Par.cmpCfg0)).getLsbD 0 = false ∧
        OnlyChanges [axPart x, .clk, .par, .inForce] s s'
      else (getCmp (getAx s' x).fb u).armed = true ∧ OnlyChanges [axPart x, .clk] s s')) ∧
  (∀ (s : State) (x : Axis) (u : CmpUnit) (t now : Nat) (c : CmpSt) (live : List Nat), Calm s → fbRuns s x = true →
    c = getCmp (getAx s x).fb u → c.armed = true → crossed s x c ((parX s x (cmpPar u Par.cmpCfg0)).getLsbD 1) = true →
    now = crossAt s x c (max s.clk.now t) → live = c.ends.filter (fun e => decide (now < e)) → 16 ≤ live.length →
    ∃ s', exec (.compareHit x u t) s = .next s' ∧ (getCmp (getAx s' x).fb u).ovr = c.ovr + 1 ∧
      (getCmp (getAx s' x).fb u).ends = live ∧ (getCmp (getAx s' x).fb u).hits = c.hits + 1 ∧
      (if c.warnedAt.all (fun w => decide (w + 1000000000 ≤ now)) = true then
        (getCmp (getAx s' x).fb u).warnedAt = some now ∧ Raised s' 0x2907 (scopeOf x) 0xFF ∧
        OnlyChanges ([axPart x, .clk, .par, .inForce] ++ signals) s s'
      else (getCmp (getAx s' x).fb u).warnedAt = c.warnedAt ∧ OnlyChanges [axPart x, .clk, .par, .inForce] s s')) ∧
  (∀ (s : State) (x : Axis) (u : CmpUnit) (rising : Bool) (t ns : Nat) (c : CapSt) (tf : Nat × Bool), Calm s → fbRuns s x = true →
    c = capOf (getAx s x).fb u → filtPass (parX s x Par.capFilt) ns = true →
    (parX s x (match u with | .u0 => Par.capCfg0 | .u1 => Par.capCfg1)).getLsbD (if rising then 0 else 1) = true →
    (∀ l, c.last = some l → l + 100 ≤ max s.clk.now t) → tf = fifoTime s ((t : Int) - filtNs s x Par.capFilt) →
    ∃ s', exec (.captureEdge x u rising t ns) s = .next s' ∧ (capOf (getAx s' x).fb u).last = some (max s.clk.now t) ∧
      capOf (getAx s' x).fb (otherUnit u) = capOf (getAx s x).fb (otherUnit u) ∧
      (if c.fifo.length + c.wait.length < 16 then
        (sampledSrc s x = false → (capOf (getAx s' x).fb u).fifo = c.fifo ++ [(srcPos s x, tf.1, tf.2)] ∧
          (capOf (getAx s' x).fb u).wait = c.wait) ∧
        (sampledSrc s x = true → (capOf (getAx s' x).fb u).fifo = c.fifo ∧
          (capOf (getAx s' x).fb u).wait = c.wait ++ [(max s.clk.now t - (filtNs s x Par.capFilt).toNat, tf.1, tf.2)]) ∧
        (getAx s' x).fb.capOvr = (getAx s x).fb.capOvr ∧ OnlyChanges [axPart x, .clk] s s'
      else (capOf (getAx s' x).fb u).fifo = c.fifo ∧ (capOf (getAx s' x).fb u).wait = c.wait ∧
        capLost (getAx s' x).fb u = sat16 (capLost (getAx s x).fb u) ∧
        capLost (getAx s' x).fb (otherUnit u) = capLost (getAx s x).fb (otherUnit u) ∧ Raised s' 0x2908 (scopeOf x) 0xFF ∧
        OnlyChanges ([axPart x, .clk] ++ signals) s s'))

/-- The brake chopper's supervision (12 R266, R270, Table 12.2): seen current clears the misses, a miss turns it off for a retry, the
third is LIMIT 0x3A04 with stage E1; the retry turns it on again only while VM_HI demands it; current with the chopper off is TRIP
0x5A03 with both software trips, and the supply's power-fail sequence where its power path has a FET. Braking load (12 R269): a
millisecond's tick sets the load by its formula from the time the chopper was on, warns from 0.8 on, is LIMIT 0x3A03 from 1.0 on
until it falls to 0.9, and begins the next millisecond. -/
def Obligations.ChopperAndBrakingLoad : Prop :=
  (∀ (s : State) (seen : Bool), Calm s → s.bus.chop = .on →
    ∃ t, exec (.chopSeenTimeout seen) s = .next t ∧
      (if seen then t.bus = { s.bus with misses := 0 } ∧ OnlyChanges [.bus] s t
       else if s.bus.misses < 2 then t.bus = { (setChop .retryOff s).bus with misses := s.bus.misses + 1 } ∧ OnlyChanges [.bus] s t
       else t.bus = { (setChop .off s).bus with chopCause := some 1, misses := 0, e1 := true } ∧ Raised t 0x3A04 0 1 ∧
         OnlyChanges ([Part.bus] ++ signals) s t)) ∧
  (∀ (s : State), Calm s → s.bus.chop = .retryOff → chopReady s = true →
    ∃ t, exec .chopRetryExpiry s = .next t ∧
      t.bus = (if fval (vmHi s) ≤ fval (parD s Par.ov1) - fval (parD s Par.chopHyst) then (setChop .off s).bus
        else { (setChop .on s).bus with chopAt := s.clk.now, onCount := s.bus.onCount + 1 }) ∧ t.bus.chop ≠ .retryOff ∧ OnlyChanges [.bus] s t) ∧
  (∀ (s : State), Calm s → Awake s → parD s Par.chopEn = 1 → s.bus.chop = .off → s.scarp.latch = 0 → Room s 3 →
    s.boot.service = .none →
    ∃ t, exec .chopShortTimeout s = .next t ∧ (∀ x, GatesOff t x) ∧
      (s.sum.present = false → t.bus.shortSeen = true ∧ t.bus.e1 = true ∧ t.scarp.raw.getLsbD 17 = true ∧
        t.scarp.latch.getLsbD 30 = true ∧ t.scarp.latch.getLsbD 31 = true ∧ Raised t 0x5A03 0 0xFF ∧
        Raised t 0x5313 1 0xFF ∧ Raised t 0x5313 2 0xFF ∧
        OnlyChanges ([Part.bus, Part.scarp, Part.axisA, Part.axisB, Part.mbx] ++ signals) s t) ∧
      (s.sum.present = true → t.sum.pfCommit = true ∧ t.scarp.latch.getLsbD 29 = true ∧ t.bus.chop = .off)) ∧
  (∀ (s : State), Calm s → thoevoUp s = true →
    ∃ t, exec .brakeLoadTick s = .next t ∧ t.bus.load = brakeLoad s ∧ t.clk.now = max s.clk.now (s.bus.tickAt + 1000000) ∧
      t.bus.tickAt = t.clk.now ∧ t.bus.onNs = 0 ∧
      t.bus.loadWarn = decide (mkRat 8 10 ≤ fval (brakeLoad s)) ∧ t.bus.chop = s.bus.chop ∧ t.bus.e1 = s.bus.e1 ∧
      (s.bus.loadWarn = false → mkRat 8 10 ≤ fval (brakeLoad s) → Raised t 0x2A01 0 0xFF) ∧
      (s.bus.loadLimit = false → 1 ≤ fval (brakeLoad s) → t.bus.loadLimit = true ∧ Raised t 0x3A03 0 0xFF) ∧
      (s.bus.loadLimit = false → fval (brakeLoad s) < 1 → t.bus.loadLimit = false) ∧
      (s.bus.loadLimit = true → mkRat 9 10 < fval (brakeLoad s) → t.bus.loadLimit = true) ∧
      (s.bus.loadLimit = true → fval (brakeLoad s) ≤ mkRat 9 10 → t.bus.loadLimit = false ∧
        ∀ e ∈ t.flt.list, sameFault 0x3A03 0 0xFF e = false) ∧ OnlyChanges ([Part.clk, Part.bus] ++ signals) s t)

/-- Escalation of an overvoltage (12 R273, R274, R279, Table 12.3): E2 shorts an axis that permits it with 0x4A04 detail 1, and turns
one that does not off with detail 2; E1 ends 10 ms after the bus fell while the chopper works; an active short ends at the next
boundary. Fault log and FAULT_N (12 R281, R282): waiting entries join the ring, which keeps the latest 1,024; a pulse ends by its
time; the pulse a boot held back starts 1 ms after it while FAULT_N is released. -/
def Obligations.EscalationAndFaultSignals : Prop :=
  (∀ (s : State) (x : Axis), Calm s → s.mbx.long = none → s.bus.e1 = true → fle (parD s Par.ov2) (vmHi s) = true →
    (getAx s x).pwm.switching = true → (getAx s x).start.ax = .run → gatesOn (getAx s (otherAxis x)) = false →
    ∃ t, exec .escalationTimeout s = .next t ∧ t.bus = { s.bus with e2 := true } ∧ (getAx t x).start.ax = .stopping ∧
      (getAx t x).pwm.switching = true ∧
      (if shortAllowed s x then (getAx t x).start.stop = some .activeShort ∧ Raised t 0x4A04 (scopeOf x) 1
       else (getAx t x).start.stop = some .coast ∧ (getAx t x).start.gateOffNext = true ∧ (getAx t x).stage.brake = .off ∧
         Raised t 0x4A04 (scopeOf x) 2) ∧ OnlyChanges ([.bus, axPart x] ++ signals) s t) ∧
  (∀ (s : State), Calm s → busLow s = true →
    ∃ t, exec .e1LeaveTimeout s = .next t ∧ t.bus.low10ms = true ∧
      (if s.bus.e1 = true ∧ chopFaulty s = false then t.bus.e1 = false ∧ (∀ e ∈ t.flt.list, sameFault 0x3A05 0 0xFF e = false) ∧
          OnlyChanges ([Part.bus] ++ signals) s t
        else t.bus = { s.bus with low10ms := true } ∧ OnlyChanges [.bus] s t)) ∧
  (∀ (s : State) (x : Axis), Calm s → (getAx s x).start.ax = .activeShort → (getAx s x).pwm.shorted = true →
    ∃ t, exec (.activeShortEnd x false) s = .next t ∧ (getAx t x).start = { (getAx s x).start with gateOffNext := true } ∧
      (getAx t x).pwm = (getAx s x).pwm ∧ OnlyChanges [axPart x] s t) ∧
  (∀ (s : State) (x : Axis), Calm s → (getAx s x).start.ax = .activeShort → (getAx s x).pwm.shorted = true →
    2 * fval (getAx s x).stage.iCont * fval (getAx s x).stage.iCont < fval (parX s x Par.ascIDecl) * fval (parX s x Par.ascIDecl) →
    exec (.activeShortEnd x true) s = exec (.activeShortEnd x false) s) ∧
  (∀ (s : State), Calm s → thoevoUp s = true → s.flt.logPending ≠ [] →
    ∃ t, exec .faultLogWrite s = .next t ∧ t.flt = { s.flt with logPending := [] } ∧ t.nv.log.length ≤ 1024 ∧
      (∃ gone, s.nv.log ++ s.flt.logPending = gone ++ t.nv.log ∧ (s.nv.log.length + s.flt.logPending.length ≤ 1024 → gone = [])) ∧
      OnlyChanges [.flt, .nvLog] s t) ∧
  (∀ (s : State), Calm s → s.flt.pulse = true →
    ∃ t, exec .faultNPulseExpiry s = .next t ∧ t.flt = { s.flt with pulse := false } ∧ OnlyChanges [.flt] s t) ∧
  (∀ (s : State), Calm s → s.flt.bootPulse = true → s.pwr.boot = none → faultNLevel s = false → parD s Par.faultNPulse ≠ 0 →
    ∃ t, exec .faultNBootPulseDelay s = .next t ∧ t.flt = { s.flt with bootPulse := false, pulse := true } ∧
      OnlyChanges [.flt] s t)

/-- Derating and the case estimate (13 R288, R289, R291): the end of the grace enforces a sensor's derating with 0x3B03; a tick reads
Crest's winding estimate and recomputes both limits; the estimate uses the millisecond's losses and starts the sums anew. -/
def Obligations.DeratingAndCase : Prop :=
  (∀ (s : State) (n : Fin 21), Calm s → thoevoUp s = true → (getSen s n.val).grace = true →
    ∃ t, exec (.thGraceExpiry n) s = .next t ∧ (getSen t n.val).enforced = true ∧ (getSen t n.val).grace = false ∧
      t.th.ithA = axisIth t .a ∧ t.th.ithB = axisIth t .b ∧ t.bus = { s.bus with chopThrottle := (getSen t 12).enforced } ∧
      Raised t 0x3B03 (senScope n.val) (BitVec.ofNat 8 n.val) ∧ OnlyChanges ([Part.th, Part.bus] ++ signals) s t) ∧
  (∀ (s : State), Calm s → thoevoUp s = true →
    ∃ t, exec .thermalDerateTick s = .next t ∧ t.th.ithA = axisIth t .a ∧ t.th.ithB = axisIth t .b ∧
      (s.th.sensors.length = 21 → (parX s .a Par.twSrc).getLsbD 2 = true → (parX s .b Par.twSrc).getLsbD 2 = false →
        parX s .a Par.crestMode ≠ 0 → s.axes.a.crest.conv = true →
        (getSen t 19).t = s.axes.a.crest.tWind ∧ (getSen t 19).valid = true) ∧
      (parX s .a Par.twSrc = 0 → parX s .b Par.twSrc = 0 → s.th.lostA = false → s.th.lostB = false →
        t.th.sensors = s.th.sensors ∧ OnlyChanges [.th, .bus] s t)) ∧
  (∀ (s : State) (p : Rat), Calm s → thoevoUp s = true →
    p = (bothAxes.flatMap (fun x => allLegs.map (fun l => (x, l)))).foldl (fun w q => w + legLoss s q.1 q.2) 0 + gatePower s + mkRat 15 100 →
    ∃ t, exec .caseEstimateTick s = .next t ∧ t.th.pEst = rd p ∧
      (∀ h hs, ((List.range 12).filter (fun n => (getSen s n).seen)).map (fun n => fval (getSen s n).t) = h :: hs →
        t.th.tCase = rd (hs.foldl max h - mkRat 6 10 * p)) ∧
      (∀ x l, (getLeg t x l).sqSum = 0 ∧ (getLeg t x l).absSum = 0 ∧ (getLeg t x l).sumN = 0) ∧
      OnlyChanges [.th, .axisA, .axisB] s t)

/-- Re-placement at runtime (14 R308, R309): the pending trigger that is next arms the images of the placement it leads to on both
engines in READY or RUN, and in HOLD changes the stored placement that the next READY brings in, where its budget fits and it
changes what the trigger names; an engine test's trigger hands the next axis over; one not active within 1 ms is reported with
0x2C05. Stream records and the drive block (14 R302, R311, Table 14.5; 16 R340, Table 16.9): a tick takes one record of the stream's
parameters, or drops and counts it with 0x2C04 at most once a second, and at the die limit skips every second one; the drive block
of the telemetry window is rebuilt. -/
def Obligations.ReplacementAndStreams : Prop :=
  (∀ (s : State) (tr : Trigger) (out : CairnOut) (p : Placement) (t0 : Nat), Calm s → thoevoUp s = true → s.mbx.long = none →
    (∀ e, tr ≠ .engineTest e) → s.cairn.active = some p → trigNext s.cairn.pendingTr = some (tr, t0) → s.cairn.arming = none →
    swapBusy s = false → s.conv.calNext = 0 → outOk s (fun x => placedPar p (parAddr x Par.usrEn)) out = true →
    placeFits (replacement s p tr out) = true → onlyNamed s p (replacement s p tr out) tr out = true →
    ∃ t, exec (.replaceTrigger tr out) s = .next t ∧ t.cairn.arming = some (true, replacement s p tr out) ∧
      t.cairn.pendingTr = (tr, t0) :: s.cairn.pendingTr.erase (tr, t0) ∧
      t.cairn.suspended = (s.cairn.suspended || decide (tr = .flashLost)) ∧ t.cairn.active = s.cairn.active ∧
      (if s.pwr.base = .ready then
        t.ridge.rga.armed = true ∧ t.ridge.rgb.armed = true ∧ inactiveBank t .rga = (replacement s p tr out).out.imgA ∧
        inactiveBank t .rgb = (replacement s p tr out).out.imgB ∧ activeBank t .rga = activeBank s .rga ∧
        activeBank t .rgb = activeBank s .rgb ∧ OnlyChanges [.cairn, .ridge] s t
      else t.nv.place = some (replacement s p tr out) ∧ OnlyChanges [.cairn, .nv, .conv, .axisA, .axisB] s t)) ∧
  (∀ (s : State) (e : Engine) (out : CairnOut) (x : Axis), Calm s → (getEng s e).underTest = true → swapBusy s = false →
    s.conv.calNext = 0 → (getEng s (otherEng e)).underTest = false → (hostedOn s e).head? = some x →
    ∃ t, exec (.replaceTrigger (.engineTest e) out) s = .next t ∧ t.ridge.handover = some x ∧ (getEng t e).armed = true ∧
      (getEng t (otherEng e)).armed = true ∧ OnlyChanges [.ridge] s t) ∧
  (∀ (s : State) (tr : Trigger) (t0 : Nat) (rest : List (Trigger × Nat)), Calm s → s.cairn.pendingTr = (tr, t0) :: rest →
    t0 + 1000000 ≤ s.clk.now → s.cairn.arming = none →
    ∃ t, exec .replaceLate s = .next t ∧ Raised t 0x2C05 0 0xFF ∧ OnlyChanges signals s t) ∧
  (∀ (s : State) (n : Fin 16) (q : StreamPlace) (st : StreamSt), Calm s → thoevoUp s = true → placedStream s n.val = some q →
    s.cairn.streams[n.val]? = some st → s.th.halved = false → q.dest ≠ .flash →
    ∃ t, exec (.streamRecordTick n .written) s = .next t ∧
      t.cairn.streams[n.val]? = some (addRecord q ((stamp s).toNat, q.params.map (fun i => parValue s i.toNat)) { st with ticks := st.ticks + 1 }) ∧
      t.cairn.streamDrop = s.cairn.streamDrop ∧ OnlyChanges [.cairn] s t) ∧
  (∀ (s : State) (n : Fin 16) (q : StreamPlace) (st : StreamSt) (fate : RecordFate), Calm s → thoevoUp s = true →
    placedStream s n.val = some q → s.cairn.streams[n.val]? = some st → s.th.halved = false → fate ≠ .written →
    ∃ t, exec (.streamRecordTick n fate) s = .next t ∧ t.cairn.streamDrop = s.cairn.streamDrop + 1 ∧
      (∃ st', t.cairn.streams[n.val]? = some st' ∧ st'.recs = st.recs ∧ st'.lost = st.lost + 1) ∧
      (st.warnedAt = none → Raised t 0x2C04 0 (BitVec.ofNat 8 n.val)) ∧ OnlyChanges ([Part.cairn] ++ signals) s t) ∧
  (∀ (s : State) (n : Fin 16) (q : StreamPlace) (st : StreamSt) (fate : RecordFate), Calm s → thoevoUp s = true →
    placedStream s n.val = some q → s.cairn.streams[n.val]? = some st → s.th.halved = true → st.ticks % 2 = 1 →
    ∃ t, exec (.streamRecordTick n fate) s = .next t ∧ t.cairn.streams[n.val]? = some { st with ticks := st.ticks + 1 } ∧
      t.cairn.streamDrop = s.cairn.streamDrop ∧ OnlyChanges [.cairn] s t) ∧
  (∀ (s : State), Calm s → thoevoUp s = true →
    ∃ t, exec .telemetryDriveUpdate s = .next t ∧ t.hsp = { s.hsp with teleDrive := driveBlock s } ∧ OnlyChanges [.hsp] s t)

/-- Clocks, crossings and the network lock's holdover (15 R316, R320, R323; 05 R99; 18 R373; 12 Table 12.6): a lost crystal changes
the reference, stops backbone and CAN with WARN 0x2001 and ends synchronisation, which sends a lock that acquires or holds into
HOLDOVER, while the gates stay as they are; a lost PLL lock is TRIP 0x5002 and trips both axes with 0x5313; a lock that comes back
makes it inactive, and clearable once every lock has held for 10 ms; one that does not come back restarts the drive with source 3; a
cell overflow sets its sticky flag with WARN 0x2003; an island wakes; at the end of its holdover the network lock goes to WAIT with
WARN 0x2303 and keeps its frozen trim. -/
def Obligations.ClocksAndCrossings : Prop :=
  (∀ (s : State), Calm s → thoevoUp s = true → s.clk.extRef = true →
    ∃ t, exec .xtalLoss s = .next t ∧ t.clk = { s.clk with extRef := false, xtal := false } ∧ t.net.on = false ∧ t.can.on = false ∧
      (∃ e ∈ t.nv.log ++ t.flt.logPending, repeatsEntry s 0x2001 0 0xFF e = true) ∧ gptpOk t = false ∧
      (gptpOk s = true → t.net.gptp = .holdover ∧ Raised t 0x2D03 0 0xFF ∧
        ∀ x, ((getAx s x).pwm.nl = .acquire ∨ (getAx s x).pwm.nl = .locked) →
          (getAx t x).pwm.nl = .holdover ∧ Raised t 0x2302 (scopeOf x) 0xFF) ∧
      (∀ x, gatesOn (getAx t x) = gatesOn (getAx s x)) ∧ OnlyChanges ([Part.clk, Part.net, Part.can, Part.axisA, Part.axisB] ++ signals) s t) ∧
  (∀ (s : State) (p : Pll), Calm s → thoevoUp s = true → s.clk.unlocked.getLsbD (pllNo p) = false →
    s.scarp.latch.getLsbD 30 = false → s.scarp.latch.getLsbD 31 = false → Room s 3 →
    ∃ t, exec (.pllLockLoss p) s = .next t ∧ t.clk = { s.clk with unlocked := s.clk.unlocked ||| ((1 : BitVec 5) <<< pllNo p) } ∧
      (∀ x, GatesOff t x ∧ (getAx t x).start.ax = .disabled) ∧
      t.scarp.latch.getLsbD 30 = true ∧ t.scarp.latch.getLsbD 31 = true ∧
      Raised t 0x5002 0 (BitVec.ofNat 8 (pllNo p)) ∧ Raised t 0x5313 1 0xFF ∧ Raised t 0x5313 2 0xFF ∧
      OnlyChanges ([Part.clk, Part.scarp, Part.axisA, Part.axisB, Part.mbx] ++ signals) s t) ∧
  (∀ (s : State) (p : Pll), Calm s → s.clk.unlocked.getLsbD (pllNo p) = true →
    ∃ t, exec (.pllRelock p) s = .next t ∧ t.clk = { s.clk with
        unlocked := s.clk.unlocked &&& ~~~((1 : BitVec 5) <<< pllNo p), lockAt := s.clk.now } ∧
      (∀ e ∈ t.flt.list, sameFault 0x5002 0 (BitVec.ofNat 8 (pllNo p)) e = true → e.active = false) ∧
      (∀ (now : Nat) (seen : Bool) (e : FaultEntry), e.code = 0x5002 →
        causeHolds { t with clk := { t.clk with now := now } } seen e = (t.clk.unlocked != 0 || decide (now < s.clk.now + 10000000))) ∧
      OnlyChanges [.clk, .flt] s t) ∧
  (∀ (s : State), Calm s → s.clk.unlocked ≠ 0 → s.sum.pfCommit = false →
    ∃ t, exec .pllRelockTimeout s = .next t ∧ t.pwr.boot = some 3 ∧ t.pwr.resetSrc = 3 ∧ (∀ x, GatesOff t x) ∧ t.flt.list = [] ∧
      t.mbx.long = none ∧ t.nv = s.nv ∧ t.otp.fuse = s.otp.fuse ∧ t.xsp.flash = s.xsp.flash ∧ t.sum = s.sum ∧ t.sto = s.sto) ∧
  (∀ (s : State) (c : ColCell), Calm s → thoevoUp s = true →
    ∃ t, exec (.eventCellOverflow c) s = .next t ∧ t.clk = { s.clk with colFlags := s.clk.colFlags ||| (1 <<< cellNo c) } ∧
      Raised t 0x2003 0 (BitVec.ofNat 8 (cellNo c)) ∧ OnlyChanges ([Part.clk] ++ signals) s t) ∧
  (∀ (s : State) (i : Island), Calm s → s.sum.on = true → islandOff s i = true → s.clk.woken.getLsbD (islandNo i) = false →
    ∃ t, exec (.islandWake i) s = .next t ∧ t.clk = { s.clk with woken := s.clk.woken ||| (1 <<< islandNo i) } ∧ OnlyChanges [.clk] s t) ∧
  (∀ (s : State) (x : Axis), Calm s → (getAx s x).pwm.nl = .holdover →
    ∃ t, exec (.nlHoldoverExpiry x) s = .next t ∧ getAx t x = { getAx s x with pwm := { (getAx s x).pwm with nl := .wait } } ∧
      (getAx t x).pwm.trim = (getAx s x).pwm.trim ∧ Raised t 0x2303 (scopeOf x) 0xFF ∧ OnlyChanges ([axPart x] ++ signals) s t)

/-- Frames of the host port (16 R328 to R331, R336, R341 to R343, Table 16.11): a busy port answers with its status byte and zeros; a
bad command, a merged or a cut head counts a frame error, a length out of range sets LENGTH_ERR; an accepted read drives the answer
prepared before it and prepares the next from registers, outbox or telemetry; the timeout discards the frame. -/
def Obligations.HostFrames : Prop :=
  (∀ (s : State) (f : HspFrame), Calm s → portOn s = true → portBusy s = true →
    ∃ t, exec (.hspFrame f) s = .next t ∧ t.hsp.answer = none ∧ t.hsp.intStatus = s.hsp.intStatus ∧
      t.hsp.driven.head? = some (statusByte s (offered s f).isSome) ∧ OnlyChanges [.hsp] s t) ∧
  (∀ (s : State) (f : HspFrame), Calm s → portOn s = true → portBusy s = false →
    (f.how = .merged ∨ badCommand s f = true ∨ f.how = .cutHead) →
    ∃ t, exec (.hspFrame f) s = .next t ∧ t.hsp.frameErr = true ∧ t.hsp.frameErrCnt = sat16 s.hsp.frameErrCnt ∧
      t.hsp.answer = none ∧ OnlyChanges [.hsp] s t) ∧
  (∀ (s : State) (f : HspFrame), Calm s → portOn s = true → portBusy s = false → f.how = .complete → badCommand s f = false →
    badLen s f = true →
    ∃ t, exec (.hspFrame f) s = .next t ∧ t.hsp.lengthErr = true ∧ t.hsp.frameErrCnt = s.hsp.frameErrCnt ∧ t.hsp.answer = none ∧
      OnlyChanges [.hsp] s t) ∧
  (∀ (s : State) (f : HspFrame), Calm s → portOn s = true → portBusy s = false → frameFate s f = .accepted → isRead f.cmd = true →
    s.hsp.answer = none → f.len ≠ 0 →
    ∃ t a, exec (.hspFrame f) s = .next t ∧ t.hsp.answer = some a ∧ t.hsp.frameErr = false ∧ t.hsp.lengthErr = false ∧
      t.hsp.driven = statusByte s false :: List.replicate f.clocked 0 ∧
      (target f.cmd = 0 → t.hsp.addrOver = decide (256 < frameAddr s f + f.len.toNat) ∧ a.bytes.length = f.len.toNat ∧
        ∀ k, k < f.len.toNat → frameAddr s f + k < 256 → frameAddr s f + k ≠ 0x10 → a.bytes[k]? = some (regByte s (frameAddr s f + k))) ∧
      (target f.cmd = 2 → a.bytes = ((outboxBytes s).drop (frameAddr s f) ++ List.replicate f.len.toNat 0).take f.len.toNat) ∧
      (target f.cmd = 3 → f.len.toNat ≠ 65535 → a.bytes = (List.range f.len.toNat).map (fun k => teleByte s (frameAddr s f + k))) ∧
      OnlyChanges [.hsp] s t) ∧
  (∀ (s : State) (f : HspFrame) (a : HspAnswer), Calm s → portOn s = true → portBusy s = false → frameFate s f = .accepted →
    isRead f.cmd = true → s.hsp.answer = some a → f.fetched = true → a.regs = none →
    ∃ t, exec (.hspFrame f) s = .next t ∧ t.hsp.driven = statusByte s true :: answerBytes s a f.clocked ∧ OnlyChanges [.hsp] s t) ∧
  (∀ (s : State), Calm s → portOn s = true →
    ∃ t, exec .hspFrameTimeout s = .next t ∧
      t.hsp = (if portBusy s then { s.hsp with answer := none }
        else { s.hsp with frameErr := true, frameErrCnt := sat16 s.hsp.frameErrCnt, answer := none }) ∧ OnlyChanges [.hsp] s t)

/-- Writes of the host port (16 R334, R335, R338, R339, Tables 16.4, 16.7, 16.8): INT_STATUS clears by writing ones, INT_MASK takes a
value without reserved bits, RELEASE brings the next message out, SUBMIT hands the inbox over, the inbox takes bytes while it is
free; an accepted write in HOLD asks for READY. -/
def Obligations.HostWrites : Prop :=
  ∀ (s : State) (f : HspFrame), Calm s → portOn s = true → portBusy s = false → frameFate s f = .accepted → isRead f.cmd = false →
    (s.pwr.base ≠ .hold →
      (∀ b, target f.cmd = 0 → frameAddr s f = 0x12 → f.data = [b] →
        ∃ t, exec (.hspFrame f) s = .next t ∧ t.hsp.intStatus = s.hsp.intStatus &&& ~~~(b.setWidth 16) ∧
          t.hsp.intMask = s.hsp.intMask ∧ OnlyChanges [.hsp, .hspMsg] s t) ∧
      (∀ b c, target f.cmd = 0 → frameAddr s f = 0x14 → f.data = [b, c] →
        ∃ t, exec (.hspFrame f) s = .next t ∧
          t.hsp.intMask = (if 2 ≤ c.toNat then s.hsp.intMask else c ++ b) ∧ OnlyChanges [.hsp] s t) ∧
      (∀ m ms, target f.cmd = 0 → frameAddr s f = 0x16 → f.data = [2] → s.hsp.outbox = some m → s.hsp.queue = ms →
        ∃ t, exec (.hspFrame f) s = .next t ∧ t.hsp.outbox = ms.head? ∧ t.hsp.queue = ms.tail ∧
          (ms ≠ [] → t.hsp.intStatus.getLsbD 0 = true) ∧ OnlyChanges [.hsp, .hspMsg] s t) ∧
      (target f.cmd = 0 → frameAddr s f = 0x16 → f.data = [1] → inFree s = true →
        leVal (mapReadN 0 s.hsp.inbox 4 2) ≤ 4088 →
        ∃ t, exec (.hspFrame f) s = .next t ∧ t.hsp.submitted = true ∧ t.hsp.mbxErr = s.hsp.mbxErr ∧ OnlyChanges [.hsp] s t) ∧
      (target f.cmd = 1 → inFree s = true →
        ∃ t, exec (.hspFrame f) s = .next t ∧ t.hsp.inbox = mapWriteAll 0 s.hsp.inbox (frameAddr s f) f.data ∧
          t.hsp.mbxErr = s.hsp.mbxErr ∧ OnlyChanges [.hsp] s t) ∧
      (target f.cmd = 1 → inFree s = false →
        ∃ t, exec (.hspFrame f) s = .next t ∧ t.hsp.inbox = s.hsp.inbox ∧ t.hsp.mbxErr = 2 ∧
          t.hsp.intStatus.getLsbD 2 = true ∧ OnlyChanges [.hsp, .hspMsg] s t)) ∧
    (s.pwr.base = .hold → Awake s → s.pwr.noPlacement = false → target f.cmd = 1 →
      ∃ t, exec (.hspFrame f) s = .next t ∧ t.pwr.base = .ready ∧ t.clk.now = s.clk.now)

/-- Messages that arrive as bytes (16 R339; 17 R345 to R347; 18 R383): once copied the inbox is free; a wrong CRC is answered with
RESULT 2, a SESSION_INFO of no session with what it asks; a type 3 frame behind four that wait is dropped and counted, another makes
its sender the receiver of events. -/
def Obligations.MessagesArrive : Prop :=
  (∀ (s : State) (q : ReqFacts) (m : List Byte), Calm s → Awake s → s.boot.service = .none → s.mbx.long = none →
    s.hsp.submitted = true → m = mapReadN 0 s.hsp.inbox 0 (8 + leVal (mapReadN 0 s.hsp.inbox 4 2)) →
    (crc16 (m.take 6 ++ (m.drop 8).take (msgLen m)) ≠ f16 m 6 →
      ∃ t, exec (.mbxCopyDone q) s = .next t ∧ t.hsp.submitted = false ∧
        Sent t .host ⟨f16 m 0 ||| 0x8000, f8 m 2, f8 m 3, [2, 0, 0, 0]⟩ ∧ OnlyChanges ([Part.hsp] ++ messages) s t) ∧
    (crc16 (m.take 6 ++ (m.drop 8).take (msgLen m)) = f16 m 6 → f16 m 0 = 0x0104 → msgLen m = 0 → f8 m 3 = 0 →
      ∃ t, exec (.mbxCopyDone q) s = .next t ∧ t.hsp.submitted = false ∧
        Sent t .host ⟨0x8104, f8 m 2, 0, [0, 0, 0, 0, 0] ++ u8 (s.mbx.sessions.filter (·.isSome)).length ++ [0, 0, 0, 0, 0, 0]⟩ ∧
        OnlyChanges ([Part.hsp] ++ messages) s t)) ∧
  (∀ (s : State) (f : TvFrame) (w : Nat) (q : ReqFacts) (u : Nat) (m : List Byte), Calm s → Awake s → s.boot.service = .none →
    s.mbx.long = none → carries s f.port = true → tvCarried s f.src = true → requestValid f.bytes = true →
    m = (f.bytes.drop 16).take (field f.bytes 6 2) →
    (4 ≤ w → ∃ t, exec (.tvMailboxRequest f w q u) s = .next t ∧ t.net = { s.net with hostDrop := s.net.hostDrop + 1 } ∧
      OnlyChanges [.net, .clk] s t) ∧
    (w < 4 → crc16 (m.take 6 ++ (m.drop 8).take (msgLen m)) ≠ f16 m 6 →
      ∃ t, exec (.tvMailboxRequest f w q u) s = .next t ∧ t.net.lastReq = some f.src ∧
        Sent t (.backbone f.src) ⟨f16 m 0 ||| 0x8000, f8 m 2, f8 m 3, [2, 0, 0, 0]⟩ ∧ OnlyChanges ([Part.net, Part.clk] ++ messages) s t) ∧
    (w < 4 → crc16 (m.take 6 ++ (m.drop 8).take (msgLen m)) = f16 m 6 → f16 m 0 = 0x0104 → msgLen m = 0 → f8 m 3 = 0 →
      ∃ t, exec (.tvMailboxRequest f w q u) s = .next t ∧ t.net.lastReq = some f.src ∧
        Sent t (.backbone f.src) ⟨0x8104, f8 m 2, 0, [0, 0, 0, 0, 0] ++ u8 (s.mbx.sessions.filter (·.isSome)).length ++ [0, 0, 0, 0, 0, 0]⟩ ∧
        OnlyChanges ([Part.net, Part.clk] ++ messages) s t))

/-- The switch (18 R364, R365, R369): a good frame reaches the egress ports its destination selects and no other, its source is learned,
an address that aged is forgotten. PHYs, T1S and the address protocols (18 R365 to R367, R375; 21 R437): the reset line is released,
a poll takes a link up or down with 0x1D01 and forgets what a port that fell had learned, a lost beacon falls back with 0x2D0B and a
received one ends that, ARP and echo are answered, the line test sets or clears its bit. -/
def Obligations.SwitchAndPorts : Prop :=
  (∀ (s : State) (f : EthFrame), Calm s → s.net.on = true → (∀ p, f.from? = some p → carries s p = true) → f.fcsOk = true →
    f.fullPorts = [] →
    ∃ t, exec (.ethFrameForward f) s = .next t ∧
      (∀ p, p ∈ egress s f → (getPort t p).lastOut = some (f.bytes, trafficClass f)) ∧
      (∀ p, p ∉ egress s f → getPort t p = getPort s p) ∧
      (∀ p, f.from? = some p → isGroup f.src = false → learned t f.src = some p) ∧
      (f.from? = none → t.net.table = s.net.table) ∧ t.net.portErr = s.net.portErr ∧ OnlyChanges [.net] s t) ∧
  (∀ (s : State) (f : EthFrame), f.from? ≠ none → f.dst = s.boot.mac → linkLocal f.dst = false → egress s f = []) ∧
  (∀ (s : State) (m : BitVec 48), Calm s → s.net.on = true → learned s m ≠ none →
    ∃ t, exec (.addressAgeExpiry m) s = .next t ∧ learned t m = none ∧ (∀ n, n ≠ m → learned t n = learned s n) ∧ OnlyChanges [.net] s t) ∧
  (∀ (s : State), Calm s → s.net.on = true → s.net.rstReleased = false →
    ∃ t, exec .ethRstRelease s = .next t ∧ t.net = { s.net with rstReleased := true } ∧ OnlyChanges [.net] s t) ∧
  (∀ (s : State) (h g : PhyStatus), Calm s → s.net.on = true → s.net.rstReleased = true → s.net.slave ≠ some .rmii1 →
    portEnabled s .rmii1 = true → portEnabled s .rmii2 = false → s.net.rmii1.up ≠ (h.link && h.rate100 && h.full) →
    ∃ t, exec (.phyPoll h g) s = .next t ∧ t.net.rmii1.up = (h.link && h.rate100 && h.full) ∧ t.net.rmii2 = s.net.rmii2 ∧
      Raised t 0x1D01 0 0 ∧ t.net.table = (if t.net.rmii1.up then s.net.table else s.net.table.filter (fun e => e.2 != .rmii1)) ∧
      OnlyChanges ([Part.net] ++ signals) s t) ∧
  (∀ (s : State), Calm s → follower s = true → s.net.csmaFallback = false →
    ∃ t, exec .t1sBeaconLoss s = .next t ∧ t.net = { s.net with csmaFallback := true, beacon := false } ∧ Raised t 0x2D0B 0 0xFF ∧
      OnlyChanges ([Part.net] ++ signals) s t) ∧
  (∀ (s : State), Calm s → follower s = true →
    ∃ t, exec .plcaBeaconReceived s = .next t ∧ t.net = { s.net with csmaFallback := false, beacon := true } ∧ OnlyChanges [.net] s t) ∧
  (∀ (s : State) (icmp : Bool) (a : BitVec 32) (n : Nat), Calm s → s.net.on = true → thoevoUp s = true → parD s Par.ipAddr ≠ 0 →
    (icmp = true → n ≤ 1472) →
    ∃ t, exec (.arpIcmpRequest icmp a (parD s Par.ipAddr) n) s = .next t ∧ t.net.answered = s.net.answered + 1 ∧
      (icmp = false → t.net.arp.head? = some a ∧ t.net.arp.length ≤ 16) ∧ (icmp = true → t.net.arp = s.net.arp) ∧ OnlyChanges [.net] s t) ∧
  (∀ (s : State) (fault : Bool), Calm s → s.boot.lineTest = true →
    ∃ t, exec (.t1sLineTestDone fault) s = .next t ∧ t.boot.lineTest = false ∧ t.boot.bist.getLsbD 6 = fault ∧
      (fault = true → Raised t 0x2006 0 6) ∧ OnlyChanges ([Part.boot] ++ signals) s t)

/-- Time synchronisation (18 R372 to R374, Table 18.5): stamps are corrected by the PHY latencies, rounded to whole ns (the model's choice,
log 138); an offset above 1 µs steps the clock by it and restarts the gate lists, the third Sync running within the threshold makes the
drive a slave with 0x1D02, BMCA's choice of port is kept, a drive that is the best clock
becomes grandmaster, a second good Pdelay makes a port as-capable, a receipt timeout ends in holdover with 0x2D03. -/
def Obligations.TimeSynchronisation : Prop :=
  (∀ (s : State) (raw o : Int) (p : Port) (r : F32) (t : Nat), Calm s → s.net.on = true → s.net.slave = some p → s.net.gptp ≠ .master →
    o = raw - roundEven (rxLat s p) → 1000 < o.natAbs →
    ∃ s', exec (.gptpSync raw r t) s = .next s' ∧ s'.net.ofs = s.net.ofs - o ∧ s'.net.rate = r ∧ s'.net.lastOffset = o ∧
      (∀ p, (getPort s' p).restart = !(getPort s p).gates.isEmpty) ∧ s'.clk = { s.clk with now := max s.clk.now t } ∧
      OnlyChanges ([Part.clk, Part.net, Part.axisA, Part.axisB] ++ signals) s s') ∧
  (∀ (s : State) (raw o : Int) (p : Port) (r : F32) (t : Nat), Calm s → s.net.on = true → s.net.slave = some p →
    o = raw - roundEven (rxLat s p) →
    (s.net.gptp = .unsync ∨ s.net.gptp = .holdover) → (o.natAbs : Rat) ≤ fval (parD s Par.gptpSyncThr) → 2 ≤ s.net.syncRun →
    ∃ s', exec (.gptpSync raw r t) s = .next s' ∧ s'.net.gptp = .slave ∧ s'.net.syncRun = s.net.syncRun + 1 ∧ Raised s' 0x1D02 0 0xFF ∧
      (∀ x, (getAx s' x).pwm.nl = if (getAx s x).pwm.nl = .wait ∨ (getAx s x).pwm.nl = .holdover then .acquire else (getAx s x).pwm.nl) ∧
      OnlyChanges ([Part.clk, Part.net, Part.axisA, Part.axisB] ++ signals) s s') ∧
  (∀ (s : State) (p : Port), Calm s → s.net.on = true → p ≠ .t1s →
    ∃ t, exec (.gptpAnnounce (some p)) s = .next t ∧ t.net.slave = some p ∧ t.net.announced = true ∧
      t.net.gptp = (if s.net.gptp = .master then .slave else s.net.gptp) ∧ OnlyChanges [.net] s t) ∧
  (∀ (s : State), Calm s → s.net.on = true → (parD s Par.gptpPrio1).toNat < 255 →
    ∃ t, exec (.gptpAnnounce none) s = .next t ∧ t.net.slave = none ∧ t.net.gptp = .master ∧
      (gptpOk s = false → Raised t 0x1D02 0 0xFF) ∧ OnlyChanges ([Part.net, Part.axisA, Part.axisB] ++ signals) s t) ∧
  (∀ (s : State) (p : Port) (raw d : Int) (ok : Bool), Calm s → p ≠ .t1s → carries s p = true →
    d = raw - roundEven ((rxLat s p + txLat s p) / 2) →
    ∃ t, exec (.gptpPdelay p raw ok) s = .next t ∧ getPort t p = { getPort s p with
        pathDelay := d, pdelayRun := if ok = true ∧ d ≤ 800 then (getPort s p).pdelayRun + 1 else 0,
        asCapable := ok && decide (d ≤ 800) && decide (1 ≤ (getPort s p).pdelayRun) } ∧ OnlyChanges [.net] s t) ∧
  (∀ (s : State), Calm s → thoevoUp s = true → s.net.gptp = .slave →
    ∃ t, exec .gptpReceiptTimeout s = .next t ∧ t.net.gptp = .holdover ∧ t.net.slave = none ∧ t.net.syncRun = 0 ∧
      Raised t 0x2D03 0 0xFF ∧ OnlyChanges ([Part.net, Part.axisA, Part.axisB] ++ signals) s t) ∧
  (∀ (s : State) (k : GptpKind), Calm s → s.net.on = true → (k = .pdelay ∨ s.net.gptp = .master) →
    ∃ t, exec (.gptpTransmitInterval k) s = .next t ∧ t.net.sent = (match k with
        | .sync => (s.net.sent.1 + 1, s.net.sent.2.1, s.net.sent.2.2)
        | .announce => (s.net.sent.1, s.net.sent.2.1 + 1, s.net.sent.2.2)
        | .pdelay => (s.net.sent.1, s.net.sent.2.1, s.net.sent.2.2 + 1)) ∧ OnlyChanges [.net] s t)

/-- Gate lists and Traverse sets (18 R370, R376 to R382): the next entry of a list applies, a full cycle starts the placed list; an
invalid type 1 frame is counted and the tenth in a second reports 0x2D04, a valid one becomes the axis's setpoint for its instant,
or for its arrival where the axis has no network lock (01 R24); a transmit window sends the latched set with its tag, or counts it late
with 0x2D05. -/
def Obligations.TraverseSets : Prop :=
  (∀ (s : State) (p : Port), Calm s → portEnabled s p = true → (getPort s p).restart = false → (getPort s p).gates ≠ [] →
    ∃ t, exec (.gateListInterval p) s = .next t ∧ getPort t p =
        (if (getPort s p).gate + 1 < (getPort s p).gates.length then { getPort s p with gate := (getPort s p).gate + 1 }
         else { getPort s p with gates := placedGates s p, gate := 0 }) ∧ OnlyChanges [.net] s t) ∧
  (∀ (s : State) (f : TvFrame) (t : Nat), Calm s → thoevoUp s = true → carries s f.port = true → tvCarried s f.src = true →
    rxValid (at_ s t) f = false → s.net.rxErrStamps.length < 9 →
    ∃ s', exec (.tvReceiveSet f t) s = .next s' ∧ s'.net.rxErr = s.net.rxErr + 1 ∧ s'.net.rxCtrl = s.net.rxCtrl ∧
      s'.net.rxTime = s.net.rxTime ∧ OnlyChanges [.net, .clk] s s') ∧
  (∀ (s : State) (f : TvFrame) (t : Nat) (c : CyclicPlace) (x : Axis) (n time due : Nat), Calm s → thoevoUp s = true → s.mbx.long = none →
    carries s f.port = true → tvCarried s f.src = true → rxValid (at_ s t) f = true → n = (f8 f.bytes 2).toNat → rxSet s n = some c →
    parD s Par.tvReqSync = 1 → tvSynced s = true → time = field f.bytes 8 8 → mapGet s.net.rxTime n = none → mapGet s.net.rxCtrl n = none →
    timeValid (at_ s t) c time = true → spOwner s x = 1 → rxSetOf s x = n → spOwner s (otherAxis x) ≠ 1 →
    (f8 f.bytes (blockAt x)).getLsbD 3 = true → applied (at_ s t) x time = false →
    (f8 f.bytes (blockAt x + 2)).toNat = (storX s x Par.ctrlMode).toNat → (getAx s x).sp.accepted = true →
    due = (if lockOn s x then time else gptpNow (at_ s t)) + spOfs s x →
    ∃ s', exec (.tvReceiveSet f t) s = .next s' ∧
      (getAx s' x).sp.cyclic = (getAx s x).sp.cyclic.filter (fun e => e.1 != due) ++ [(due, blockSp f.bytes (blockAt x))] ∧
      s'.net.txTo = some f.src ∧ mapGet s'.net.rxTime n = some [time] ∧
      mapGet s'.net.rxCtrl n = some (f16 f.bytes 16, f16 f.bytes 24, f16 f.bytes 48) ∧ s'.net.rxErr = s.net.rxErr ∧
      OnlyChanges [.net, .clk, axPart x] s s') ∧
  (∀ (s : State) (n : Fin 8), Calm s → thoevoUp s = true → s.net.on = true → txSet s n.val ≠ none →
    (parD s Par.tvReqSync ≠ 1 ∨ tvSynced s = true) →
    (∃ t, exec (.tvTransmitWindow n false) s = .next t ∧ t.net.lastTx = txFrame s n.val ∧ t.net.lastTxTo = s.net.txTo ∧
      t.net.lastTxTag.1 = BitVec.ofNat 16 ((parD s Par.tvPcp).toNat * 0x2000 + (parD s Par.tvVid).toNat) ∧
      mapRead 0 t.net.txSeq n.val = mapRead 0 s.net.txSeq n.val + 1 ∧ t.net.txLate = s.net.txLate ∧ OnlyChanges [.net] s t) ∧
    (s.net.lateWarned = none →
      ∃ t, exec (.tvTransmitWindow n true) s = .next t ∧ t.net.txLate = s.net.txLate + 1 ∧ t.net.lastTx = s.net.lastTx ∧
        t.net.txSeq = s.net.txSeq ∧ Raised t 0x2D05 0 0xFF ∧ OnlyChanges ([Part.net] ++ signals) s t))

/-- SDO and PDOs (18 R389, R393, R394, Table 18.9): a read answers the object's value, a long operation or an unknown object or a wrong
length is aborted with its code and changes nothing, a written object holds its value; a synchronous RPDO waits for the SYNC; a SYNC
is stamped, gives an axis its target for its instant, and sends a TPDO that is due. -/
def Obligations.CanObjectsAndPdos : Prop :=
  (∀ (s : State) (r : SdoReq), Calm s → canAlive s = true → thoevoUp s = true → s.can.nmt ≠ .stopped →
    (s.mbx.long ≠ none → ∃ t, exec (.canSdo r) s = .next t ∧ t.can = { s.can with sdoReply := some (some 0x08000020, 0) } ∧ OnlyChanges [.can] s t) ∧
    (s.mbx.long = none →
      (∀ o, canObj r.index.toNat r.sub.toNat = some o → r.write = false →
        ∃ t, exec (.canSdo r) s = .next t ∧ t.can = { s.can with sdoReply := some (none, canGet s r.index.toNat r.sub.toNat) } ∧ OnlyChanges [.can] s t) ∧
      (canObj r.index.toNat r.sub.toNat = none →
        ∃ t, exec (.canSdo r) s = .next t ∧
          t.can = { s.can with sdoReply := some (some (if canIndexKnown r.index.toNat then 0x06090011 else 0x06020000), 0) } ∧ OnlyChanges [.can] s t) ∧
      (∀ o, canObj r.index.toNat r.sub.toNat = some o → r.write = true → o.writable = true → r.size ≠ o.bytes →
        ∃ t, exec (.canSdo r) s = .next t ∧ t.can = { s.can with sdoReply := some (some 0x06070010, 0) } ∧ OnlyChanges [.can] s t) ∧
      (r.write = true → r.index = 0x1017 → r.sub = 0 → r.size = 2 →
        ∃ t, exec (.canSdo r) s = .next t ∧ t.can = { s.can with hbProducer := r.data.setWidth 16, sdoReply := some (none, 0) } ∧ OnlyChanges [.can] s t) ∧
      (∀ x, r.write = true → r.index = (match x with | .a => 0x60FF | .b => 0x68FF) → r.sub = 0 → r.size = 4 → spOwner s x = 2 →
        ((getCia s x).mode = 8 ∨ (getCia s x).mode = 10 ∨ (getCia s x).mode = 1) →
        ∃ t, exec (.canSdo r) s = .next t ∧ (getCia t x) = { getCia s x with velocity := r.data } ∧ t.can.sdoReply = some (none, 0) ∧
          OnlyChanges [.can] s t) ∧
      (∀ x, r.write = true → r.index = (match x with | .a => 0x60FF | .b => 0x68FF) → r.sub = 0 → r.size = 4 → spOwner s x ≠ 2 →
        ∃ t, exec (.canSdo r) s = .next t ∧ t.can = { s.can with sdoReply := some (some 0x08000021, 0) } ∧ OnlyChanges [.can] s t))) ∧
  (∀ (s : State) (n : Fin 8) (data : List Byte) (t : Nat), Calm s → pdoActive s = true → s.can.rpdo.length = 8 →
    (pdoAt s.can.rpdo n.val).cob.getLsbD 31 = false → (pdoAt s.can.rpdo n.val).kind.toNat ≤ 240 →
    mapBytes ((pdoAt s.can.rpdo n.val).maps.take (pdoAt s.can.rpdo n.val).n) ≤ data.length →
    ∃ s', exec (.canRpdo n data t) s = .next s' ∧
      s'.can = { s.can with rpdo := s.can.rpdo.set n.val { pdoAt s.can.rpdo n.val with stored := some data } } ∧ OnlyChanges [.can, .clk] s s') ∧
  (∀ (s : State) (x : Axis) (t : Nat), Calm s → canAlive s = true → thoevoUp s = true → s.can.nmt ≠ .operational → spOwner s x = 2 →
    spOwner s (otherAxis x) ≠ 2 → ciaCyclic (getCia s x).mode = true → (getCia s x).fresh = true → (getAx s x).sp.accepted = true →
    ∃ s', exec (.canSync t) s = .next s' ∧ s'.can.syncAt = some t ∧ (getCia s' x).fresh = false ∧
      (∃ p, (getAx s' x).sp.cyclic = (getAx s x).sp.cyclic.filter (fun e => e.1 != gptpNow (at_ s t) + spOfs s x) ++ [(gptpNow (at_ s t) + spOfs s x, p)] ∧
        p = ciaSetpoint (at_ s t) x (getCia s x).mode) ∧ OnlyChanges [.can, .clk, axPart x] s s') ∧
  (∀ (s : State) (t : Nat), Calm s → canAlive s = true → thoevoUp s = true → s.can.nmt = .operational → (∀ x, spOwner s x ≠ 2) →
    (∀ n, (pdoAt s.can.rpdo n).stored = none) → (∀ n, n ≠ 0 → (pdoAt s.can.tpdo n).cob.getLsbD 31 = true) →
    (pdoAt s.can.tpdo 0).cob.getLsbD 31 = false → (pdoAt s.can.tpdo 0).kind.toNat ≤ 240 →
    (pdoAt s.can.tpdo 0).kind.toNat ≤ (pdoAt s.can.tpdo 0).count + 1 →
    ∃ s', exec (.canSync t) s = .next s' ∧ s'.can.syncAt = some t ∧
      s'.can.sent = s.can.sent ++ [(BitVec.ofNat 11 ((pdoAt s.can.tpdo 0).cob.toNat % 2048), pdoData (at_ s t) (pdoAt s.can.tpdo 0))] ∧
      OnlyChanges [.can, .canMsg, .clk] s s')

/-- NMT and heartbeats (18 R388, R392; 03 Table 3.7): the states follow the command, a start in HOLD asks for READY, a node reset
restarts the drive with source 5, a communication reset sends the boot-up message; a produced heartbeat carries the state, a
received one starts the consumer time, and its end acts as CAN_ABORT_OPT says. CAN error states (18 R387): error passive and bus off
are kept with 0x2D06 and 0x2D07, bus off is counted; the returns end them. -/
def Obligations.CanManagementAndErrors : Prop :=
  (∀ (s : State) (n : BitVec 8) (c : NmtCommand), Calm s → canAlive s = true → thoevoUp s = true → (n = 0 ∨ n.toNat = canNodeId s) →
    (c = .stop ∨ c = .preOperational ∨ (c = .start ∧ s.pwr.base = .ready)) → (∀ x, (getAx s x).sp.src ≠ 2) →
    ∃ t, exec (.canNmt c n) s = .next t ∧
      t.can = { s.can with nmt := (match c with | .stop => .stopped | .preOperational => .preOperational | _ => .operational) } ∧
      OnlyChanges [.can] s t) ∧
  (∀ (s : State), Calm s → Awake s → canAlive s = true → s.boot.service = .none → s.pwr.base = .hold → s.pwr.noPlacement = false →
    s.cairn.arming = none →
    ∃ t, exec (.canNmt .start 0) s = .next t ∧ t.pwr.base = .ready ∧ t.can.nmt = .operational) ∧
  (∀ (s : State), Calm s → canAlive s = true → thoevoUp s = true → anyRun s = false → s.mbx.long = none →
    ∃ t, exec (.canNmt .resetNode 0) s = .next t ∧ t.pwr.boot = some 5 ∧ t.pwr.resetSrc = 5 ∧ t.nv.posA = some s.axes.a.fb.pos ∧
      t.nv.posB = some s.axes.b.fb.pos ∧ t.otp.fuse = s.otp.fuse ∧ t.sum = s.sum) ∧
  (∀ (s : State), Calm s → canAlive s = true → thoevoUp s = true → s.can.nmt ≠ .operational →
    ∃ t, exec (.canNmt .resetComm 0) s = .next t ∧ t.can.nmt = .preOperational ∧ t.can.err = s.can.err ∧
      t.can.sent = s.can.sent ++ [(BitVec.ofNat 11 (0x700 + canNodeId s), [0])] ∧ OnlyChanges [.can, .canMsg] s t) ∧
  (∀ (s : State), Calm s → canAlive s = true → thoevoUp s = true → s.can.hbProducer ≠ 0 →
    ∃ t, exec .canHeartbeatProduce s = .next t ∧
      t.can.sent = s.can.sent ++ [(BitVec.ofNat 11 (0x700 + canNodeId s), [nmtByte s.can.nmt])] ∧ OnlyChanges [.canMsg] s t) ∧
  (∀ (s : State) (n : BitVec 8), Calm s → canAlive s = true → n ≠ 0 → n.toNat = s.can.hbConsumer.toNat / 65536 % 128 →
    s.can.hbConsumer.toNat % 65536 ≠ 0 →
    ∃ t, exec (.canHeartbeatReceive n) s = .next t ∧ t.can = { s.can with hbRunning := true } ∧ OnlyChanges [.can] s t) ∧
  (∀ (s : State) (x : Axis), Calm s → canAlive s = true → s.can.hbRunning = true → (getAx s x).start.ax = .run →
    (getAx s (otherAxis x)).start.ax = .disabled → (getAx s x).sp.src = 2 →
    ((getCia s x).mode = 1 ∨ (getCia s x).mode = 3 ∨ (getCia s x).mode = 4) →
    ∃ t, exec .canHeartbeatTimeout s = .next t ∧ t.can.hbRunning = false ∧
      (parX s x Par.canAbortOpt = 1 → Raised t 0x4D09 (scopeOf x) 0xFF) ∧
      (parX s x Par.canAbortOpt = 0 → OnlyChanges [.can] s t) ∧
      (parX s x Par.canAbortOpt = 3 → s.mbx.long = none → (getAx s x).pwm.switching = true →
        (getAx t x).start.ax = .stopping ∧ (getAx t x).start.stop = some .quick)) ∧
  (∀ (s : State), Calm s → s.can.on = true → s.can.err = .active →
    ∃ t, exec .canErrorPassive s = .next t ∧ t.can.err = .passive ∧ Raised t 0x2D06 0 0xFF ∧ OnlyChanges ([Part.can] ++ signals) s t) ∧
  (∀ (s : State), Calm s → s.can.on = true → s.can.err = .passive →
    ∃ t, exec .canErrorActiveReturn s = .next t ∧ t.can = { s.can with err := .active } ∧ OnlyChanges [.can] s t) ∧
  (∀ (s : State), Calm s → s.can.on = true → s.can.err ≠ .busOff → (∀ x, (getAx s x).sp.src ≠ 2) →
    ∃ t, exec .canBusoff s = .next t ∧ t.can.err = .busOff ∧ t.can.busoff = s.can.busoff + 1 ∧ t.can.nmt = s.can.nmt ∧
      Raised t 0x2D07 0 0xFF ∧ OnlyChanges ([Part.can] ++ signals) s t) ∧
  (∀ (s : State), Calm s → s.can.on = true → s.can.err = .busOff →
    ∃ t, exec .canBusoffRecovery s = .next t ∧ t.can = { s.can with err := .active } ∧ OnlyChanges [.can] s t)

/-- The external memory port (19 R399 to R401): a window read answers the byte the flash holds; bytes collect for a page, which an
idle page issues as a program; a program that ends has cleared bits only; a timeout or a missing device is counted with 0x2F04, and
the third failure running loses the flash with 0x2F03. -/
def Obligations.ExternalFlash : Prop :=
  (∀ (s : State) (a : Nat), Calm s → flashLive s = true → a < s.xsp.capacity → s.xsp.busy = .idle →
    ∃ t, exec (.xspWindowRead a) s = .next t ∧ t.xsp.readByte = mapRead 0xFF s.xsp.flash a ∧ t.xsp.flash = s.xsp.flash ∧
      t.xsp.lines.head? = some (a / 32) ∧ t.xsp.lines.length ≤ 4 ∧ OnlyChanges [.xsp] s t) ∧
  (∀ (s : State) (a : Nat) (b : Byte), Calm s → flashLive s = true → a < s.xsp.capacity → s.xsp.busy = .idle →
    (∀ p ∈ s.xsp.collect, p.1 / s.xsp.page = a / s.xsp.page) →
    ∃ t, exec (.xspWindowWrite a b) s = .next t ∧ mapGet t.xsp.collect a = some b ∧ t.xsp.flash = s.xsp.flash ∧ t.xsp.busy = .idle ∧
      OnlyChanges [.xsp] s t) ∧
  (∀ (s : State) (p : Nat × Byte) (ps : List (Nat × Byte)), Calm s → flashLive s = true → s.xsp.busy = .idle → s.xsp.collect = p :: ps →
    ∃ t, exec .xspPageIdle s = .next t ∧ t.xsp = { s.xsp with busy := .program (p.1 / s.xsp.page) (p :: ps), collect := [] } ∧ OnlyChanges [.xsp] s t) ∧
  (∀ (s : State) (pg a : Nat) (b : Byte), Calm s → flashLive s = true → s.xsp.busy = .program pg [(a, b)] → mapWf 0xFF s.xsp.flash = true →
    ∃ t, exec (.xspPoll false) s = .next t ∧ t.xsp.busy = .idle ∧ mapRead 0xFF t.xsp.flash a = mapRead 0xFF s.xsp.flash a &&& b ∧
      (∀ c, c ≠ a → mapRead 0xFF t.xsp.flash c = mapRead 0xFF s.xsp.flash c) ∧ OnlyChanges [.xsp] s t) ∧
  (∀ (s : State) (a n : Nat), Calm s → flashLive s = true → s.xsp.busy = .erase a n → mapWf 0xFF s.xsp.flash = true →
    ∃ t, exec (.xspPoll false) s = .next t ∧ t.xsp.busy = .idle ∧
      (∀ c, mapRead 0xFF t.xsp.flash c = if a ≤ c ∧ c < a + n then 0xFF else mapRead 0xFF s.xsp.flash c) ∧ OnlyChanges [.xsp] s t) ∧
  (∀ (s : State), Calm s → flashLive s = true → s.xsp.warnedAt = none → s.xsp.failRun < 2 → s.xsp.busy ≠ .idle →
    ∃ t, exec .xspOpTimeout s = .next t ∧ t.xsp.busy = .idle ∧ t.xsp.err = s.xsp.err + 1 ∧ t.xsp.failRun = s.xsp.failRun + 1 ∧
      t.xsp.lost = false ∧ Raised t 0x2F04 0 0xFF ∧ OnlyChanges ([Part.xsp, Part.clk] ++ signals) s t) ∧
  (∀ (s : State), Calm s → flashLive s = true →
    (∃ t, exec (.xspIdCheck true) s = .next t ∧ t.xsp = { s.xsp with failRun := 0 } ∧ OnlyChanges [.xsp] s t) ∧
    (s.xsp.failRun = 2 → ∃ t, exec (.xspIdCheck false) s = .next t ∧ t.xsp.lost = true ∧ t.xsp.err = s.xsp.err + 1 ∧
      Raised t 0x2F03 0 0xFF ∧ t.xsp.flash = s.xsp.flash ∧ OnlyChanges ([Part.xsp, Part.cairn] ++ signals) s t))

/-- The end of a boot and what follows it (21 R432 to R435; 20 R426 to R428; 03 R54): a failed core ends in the maker-service state
with 0x400A, no verified image in recovery with 0x4008, no stored placement in HOLD with NO_PLACEMENT, INFO 0x1004 and the boot bit
of INT_STATUS; the slot not booted is verified in the background; a scrub counts corrected words, warns above 16 and loses bad units. -/
def Obligations.BootAndBackground : Prop :=
  (∀ (s : State) (b : BootFacts) (f : FlashFind) (src : BitVec 8), Calm s → s.pwr.boot = some src → b.coreOk = false → Room s 6 →
    ∃ t, exec (.bootComplete b f) s = .next t ∧ t.boot.service = .maker ∧ t.pwr.base = .off ∧ t.pwr.boot = none ∧
      Raised t 0x400A 0 0xFF ∧ t.nv.bootCount = s.nv.bootCount + 1 ∧ (s.nv.cut = none → t.otp.fuse = s.otp.fuse) ∧ t.sum = s.sum ∧ t.sto = s.sto) ∧
  (∀ (s : State) (b : BootFacts) (f : FlashFind) (src : BitVec 8) (u : State), Calm s → s.pwr.boot = some src → b.coreOk = true →
    u = senseFuses (cutBurn { s with clk := { s.clk with extRef := b.xtal, xtal := b.xtal }, nv := { s.nv with bootCount := s.nv.bootCount + 1 } }) b.rows →
    u.otp.failed.getLsbD 2 = false → u.otp.failed.getLsbD 3 = false → (chooseSlot (bootMram u src b) b).2 = false →
    ∃ t, exec (.bootComplete b f) s = .next t ∧ t.boot.service = .recovery ∧ t.pwr.base = .off ∧ t.pwr.boot = none ∧
      Raised t 0x4008 0 0xFF ∧ (s.nv.cut = none → t.otp.fuse = s.otp.fuse) ∧ t.nv.bootCount = s.nv.bootCount + 1) ∧
  (∀ (s : State) (b : BootFacts) (f : FlashFind) (src : BitVec 8) (u : State), Calm s → s.pwr.boot = some src → b.coreOk = true →
    u = senseFuses (cutBurn { s with clk := { s.clk with extRef := b.xtal, xtal := b.xtal }, nv := { s.nv with bootCount := s.nv.bootCount + 1 } }) b.rows →
    u.otp.failed.getLsbD 2 = false → u.otp.failed.getLsbD 3 = false → (chooseSlot (bootMram u src b) b).2 = true → s.nv.place = none →
    ∃ t, exec (.bootComplete b f) s = .next t ∧ t.pwr.boot = none ∧ t.pwr.base = .hold ∧ t.pwr.noPlacement = true ∧
      t.hsp.intStatus.getLsbD 5 = true ∧ Logged t 0x1004 0 src ∧ t.boot.time = b.bootMs ∧ (∀ x, GatesOff t x) ∧
      t.nv.bootCount = s.nv.bootCount + 1 ∧ (s.nv.cut = none → t.otp.fuse = s.otp.fuse) ∧ t.sto = s.sto) ∧
  (∀ (s : State) (i : Option ImageFacts), Calm s → thoevoUp s = true → s.boot.verifyDue = true →
    ∃ t, exec (.slotBackgroundVerifyDone i) s = .next t ∧ t.boot.verifyDue = false ∧ fwSlot t s.boot.slotB = fwSlot s s.boot.slotB ∧
      (i = none → fwSlot t (!s.boot.slotB) = {}) ∧
      (∀ j, i = some j → imageBad s j = none → (fwSlot t (!s.boot.slotB)).state = .valid ∧ (fwSlot t (!s.boot.slotB)).version = j.version) ∧
      (∀ j d, i = some j → imageBad s j = some d → (fwSlot t (!s.boot.slotB)).state = .failed ∧ t.boot.flags.getLsbD 0 = true ∧
        ((fwSlot s (!s.boot.slotB)).state ≠ .failed → Raised t 0x2005 0 (BitVec.ofNat 8 (16 * slotNo (!s.boot.slotB) + d)))) ∧
      OnlyChanges ([Part.boot, Part.nv] ++ signals) s t) ∧
  (∀ (s : State) (n : Nat), Calm s → Awake s → parD s Par.mramScrubPeriod ≠ 0 →
    ∃ t, exec (.mramScrubTick n []) s = .next t ∧ t.nv.corr = s.nv.corr + BitVec.ofNat 32 n ∧ t.boot.bist.getLsbD 8 = decide (16 < n) ∧
      (16 < n → Raised t 0x2E06 0 0xFF) ∧ OnlyChanges ([Part.nv, Part.boot] ++ signals) s t) ∧
  (∀ (s : State) (k n : Nat), Calm s → Awake s → parD s Par.mramScrubPeriod ≠ 0 → k < s.nv.banks.length →
    ∃ t, exec (.mramScrubTick n [(2, k)]) s = .next t ∧ t.nv.banks = s.nv.banks.set k none ∧ t.nv.lost = s.nv.lost + 1 ∧
      t.boot.bist.getLsbD 8 = true ∧ Raised t 0x2E07 0 2 ∧ OnlyChanges ([Part.nv, Part.boot] ++ signals) s t)

/-- Sessions, their challenge and locks (17 R349, R360, R362): an opened session holds the role and a fresh challenge; the right
response authenticates it, a wrong one closes it and the third running locks the role for 10 s with 0x2E05; closing and 300 s without
a request end it; a lock ends by its time; the role and the number of sessions are told; the event mask is the transport's own. -/
def Obligations.SessionsAndLocks : Prop :=
  (∀ (s : State) (h : Hdr) (r : Role) (k : Nat), Asked s h 0x0101 → ((installerOpt s).getLsbD 1 = false ∨ r = .operator ∨ h.tr = .host) →
    (getLock s r).lock = none → freePlace 0 s.mbx.sessions = some k →
    ∃ t, exec (.sessionOpen h (BitVec.ofNat 8 (roleNo r))) s = .next t ∧
      t.mbx.sessions[k]? = some (some { transport := h.tr, role := r, challenge := Config.challenge s.clk.free, openedAt := s.clk.now, lastAt := s.clk.now }) ∧
      Replied t h 0x0101 (u8 (k + 1) ++ [0, 0, 0] ++ leBytes 16 (Config.challenge s.clk.free).toNat) ∧
      t.clk = { s.clk with free := s.clk.free + 1 } ∧ OnlyChanges ([Part.mbx, Part.clk] ++ messages) s t) ∧
  (∀ (s : State) (h : Hdr) (v : BitVec 256) (se : Session), Calm s → Served s h 0x0102 → sessionOf s h = some se → se.answered = false →
    s.clk.now ≤ se.openedAt + 10000000000 →
    (expected s h se = some (leBytes 32 v.toNat) → (getLock s se.role).lock = none →
      ∃ t u, exec (.sessionAuth h v) s = .next t ∧ sessionOf t h = some u ∧ u.authed = true ∧ u.role = se.role ∧
        (getLock t se.role).wrong = 0 ∧ Replied t h 0x0102 (u8 (roleNo se.role) ++ [0, 0, 0] ++ u32 300) ∧
        OnlyChanges ([Part.mbx] ++ messages) s t) ∧
    (expected s h se ≠ some (leBytes 32 v.toNat) → (getLock s se.role).lock = none →
      ∃ t, exec (.sessionAuth h v) s = .next t ∧ sessionOf t h = none ∧ (getLock t se.role).wrong = (getLock s se.role).wrong + 1 ∧
        (if 2 ≤ (getLock s se.role).wrong then (getLock t se.role).lock = some 10 ∧ Raised t 0x2E05 0 (BitVec.ofNat 8 (roleNo se.role)) ∧
            OnlyChanges ([Part.mbx] ++ signals) s t
          else (getLock t se.role).lock = none ∧ OnlyChanges ([Part.mbx] ++ messages) s t))) ∧
  (∀ (s : State) (h : Hdr), Calm s → Served s h 0x0103 → (sessionOf s h).isSome = true →
    ∃ t, exec (.sessionClose h) s = .next t ∧ sessionOf t h = none ∧ Replied t h 0x0103 [] ∧ OnlyChanges ([Part.mbx] ++ messages) s t) ∧
  (∀ (s : State) (h : Hdr), Asked s h 0x0104 →
    ∃ t, exec (.sessionInfo h) s = .next t ∧
      Replied t h 0x0104 (u8 (actsAs s h) ++ u8 (s.mbx.sessions.filter (·.isSome)).length ++ [0, 0] ++ u32 (if h.session = 0 then 0 else 300)) ∧
      OnlyChanges ([Part.mbx] ++ messages) s t) ∧
  (∀ (s : State) (h : Hdr) (m : BitVec 8), Granted s h 0x0105 1 → m.toNat < 8 →
    ∃ t, exec (.eventMask h m) s = .next t ∧ t.mbx.maskHost = (if h.tr = .host then m else s.mbx.maskHost) ∧
      t.mbx.maskNet = (if h.tr = .host then s.mbx.maskNet else m) ∧ Replied t h 0x0105 [m, 0, 0, 0] ∧ OnlyChanges ([Part.mbx] ++ messages) s t) ∧
  (∀ (s : State) (k : Fin 5) (se : Session), Calm s → k.val ≠ 0 → s.mbx.sessions[k.val - 1]? = some (some se) →
    se.lastAt + 300000000000 ≤ s.clk.now →
    ∃ t, exec (.sessionIdleTimeout k) s = .next t ∧ t.mbx = { s.mbx with sessions := s.mbx.sessions.set (k.val - 1) none } ∧ OnlyChanges [.mbx] s t) ∧
  (∀ (s : State) (r : Role) (n : Nat), Calm s → s.sum.on = true → (getLock s r).lock = some n →
    (getLock s r).since + n * 1000000000 ≤ s.clk.now →
    ∃ t, exec (.roleLockExpiry r) s = .next t ∧ getLock t r = { getLock s r with lock := none } ∧
      (∀ q, q ≠ r → getLock t q = getLock s q) ∧ OnlyChanges [.mbx] s t)

/-- A repeated request (17 R350): one whose opcode, TAG and CRC equal those of the last request executed in its session is not
executed again; its stored reply goes out with DETAIL bit 0 set; an executed request is the last one of its session. -/
def Obligations.RepeatedRequests : Prop :=
  (∀ (s : State) (h : Hdr) (op : BitVec 16) (n : Need) (bad : Option Nat) (run : Nat → Ans) (se : Session) (m : Msg), Calm s → Awake s →
    s.boot.service = .none → s.mbx.long = none → sessionOf s h = some se → se.last = some (op, h.tag, h.crc, m) →
    ∃ t, request s h op n bad run = .next t ∧ Sent t h.tr { m with payload := m.payload.take 2 ++ [((m.payload[2]?).getD 0) ||| 1] ++ m.payload.drop 3 } ∧
      OnlyChanges ([Part.mbx] ++ messages) s t) ∧
  (∀ (s : State) (h : Hdr) (se : Session) (m : Msg) (mask : BitVec 8), Calm s → Awake s → s.boot.service = .none → s.mbx.long = none →
    sessionOf s h = some se → se.last = some (0x0303, h.tag, h.crc, m) →
    ∃ t, exec (.enable h mask) s = .next t ∧ Sent t h.tr { m with payload := m.payload.take 2 ++ [((m.payload[2]?).getD 0) ||| 1] ++ m.payload.drop 3 } ∧
      OnlyChanges ([Part.mbx] ++ messages) s t) ∧
  (∀ (s : State) (h : Hdr) (se : Session), Granted s h 0x0206 1 → sessionOf s h = some se →
    ∃ t u m, exec (.parBanks h) s = .next t ∧ sessionOf t h = some u ∧ u.last = some (0x0206, h.tag, h.crc, m) ∧ Sent t h.tr m)

/-- Parameter requests (17 R353 to R356, R360; 00 R8): PAR_GET and PAR_INFO tell values and definitions, PAR_SET takes all items or
none, PAR_COMMIT fills a bank with the next sequence number, PAR_LOAD and PAR_DEFAULTS replace the whole working set while no axis is
in RUN, PAR_BANKS lists the banks. -/
def Obligations.ParameterRequests : Prop :=
  (∀ (s : State) (h : Hdr) (is : List (BitVec 16)) (data : List Byte), Asked s h 0x0201 → 0 < is.length → is.length ≤ 510 →
    data = is.flatMap (fun i => match parKnown i with
      | none => u16 i.toNat ++ u16 0x10 ++ u32 0
      | some d => if i.getLsbD 15 = true ∧ d.perAxis = false then u16 i.toNat ++ u16 0x11 ++ u32 0
        else u16 i.toNat ++ u16 0 ++ w32 (parValue s i.toNat)) → Fits h data →
    ∃ t, exec (.parGet h is) s = .next t ∧ Replied t h 0x0201 data ∧ OnlyChanges ([Part.mbx] ++ messages) s t) ∧
  (∀ (s : State) (h : Hdr) (items : List (BitVec 16 × BitVec 32)) (m : List (Nat × Word)),
    Granted s h 0x0202 (items.foldl (fun (n : Nat) it => max n (itemRole it.1)) 1) → 0 < items.length → items.length ≤ 510 →
    parItems s 0 s.par items = (m, none) →
    ∃ t, exec (.parSet h items) s = .next t ∧ t.par = m ∧ Replied t h 0x0202 [] ∧
      OnlyChanges ([Part.axisA, Part.axisB, Part.ridge, Part.bus, Part.cairn, Part.net, Part.can, Part.nv, Part.xsp, Part.sum, Part.par, Part.inForce, Part.mbx] ++ signals) s t ∧
      ((∀ it ∈ items, ∀ d, parKnown it.1 = some d → d.kind = .writable ∧ d.eff ≠ .immediate) →
        OnlyChanges ([Part.par, Part.nv, Part.mbx] ++ messages) s t)) ∧
  (∀ (s : State) (h : Hdr) (i : BitVec 16) (v : Word) (d : PDef), Granted s h 0x0202 (max 1 (itemRole i)) → parKnown i = some d →
    d.kind = .writable → itemResult s s.par i v = 0 → Rising s.par → Rising s.inForce →
    ∃ t, exec (.parSet h [(i, v)]) s = .next t ∧ storedAt t i.toNat = v ∧ Replied t h 0x0202 [] ∧
      (d.eff = .immediate → inForceAt t i.toNat = v) ∧ (d.eff ≠ .immediate → t.inForce = s.inForce)) ∧
  (∀ (s : State) (h : Hdr) (items : List (BitVec 16 × BitVec 32)) (m : List (Nat × Word)) (code k : Nat),
    Granted s h 0x0202 (items.foldl (fun (n : Nat) it => max n (itemRole it.1)) 1) → 0 < items.length → items.length ≤ 510 →
    parItems s 0 s.par items = (m, some (code, k)) →
    ∃ t, exec (.parSet h items) s = .next t ∧ Sent t h.tr (mkReply 0x0202 h code k []) ∧ OnlyChanges messages s t) ∧
  (∀ (s : State) (h : Hdr) (i : BitVec 16) (d : PDef), Asked s h 0x0203 → parKnown i = some d → (i.getLsbD 15 = true → d.perAxis = true) →
    ∃ t, exec (.parInfo h i) s = .next t ∧ OnlyChanges ([Part.mbx] ++ messages) s t ∧
      Replied t h 0x0203 (u8 (typeNo d.ty) ++ u8 (if d.eff = .none then 0 else itemRole i) ++ u8 (effectNo d.eff) ++
        u8 (bit d.perAxis 0 + bit (d.kind == .readOnly) 1 + bit (d.kind == .counter) 2) ++
        w32 (rangeEnds d).1 ++ w32 (rangeEnds d).2 ++ w32 d.dflt)) ∧
  (∀ (s : State) (h : Hdr) (b f : BitVec 8), Granted s h 0x0204 2 → b.toNat < 4 → f.toNat < 2 → s.nv.banks.length = 4 →
    ∃ t, exec (.parCommit h b f) s = .next t ∧ t.nv.banks = s.nv.banks.set b.toNat (some ⟨topSeq s + 1, stamp s, s.par⟩) ∧
      t.nv.bootBank = (if f = 1 then b.toNat else s.nv.bootBank) ∧ t.nv.auditSeq = s.nv.auditSeq + 1 ∧
      Replied t h 0x0204 (w32 (topSeq s + 1)) ∧ OnlyChanges ([Part.nv, Part.mbx] ++ messages) s t) ∧
  (∀ (s : State) (h : Hdr) (n : BitVec 8) (b : ParBank), Granted s h 0x0205 2 → anyRun s = false → parBank s n.toNat = some b →
    Rising s.par →
    ∃ t, exec (.parLoad h n) s = .next t ∧ (∀ a, storedAt t a = (mapGet b.vals a).getD (parDefault a)) ∧ Replied t h 0x0205 [] ∧
      OnlyChanges ([Part.axisA, Part.axisB, Part.bus, Part.cairn, Part.net, Part.nv, Part.sum, Part.par, Part.inForce, Part.mbx] ++ signals) s t) ∧
  (∀ (s : State) (h : Hdr), Granted s h 0x0206 1 →
    ∃ t, exec (.parBanks h) s = .next t ∧ OnlyChanges ([Part.mbx] ++ messages) s t ∧
      Replied t h 0x0206 ((List.range 4).flatMap (fun k => match parBank s k with
        | some b => [1, if s.nv.bootBank = k then 1 else 0, 0, 0] ++ w32 b.seq ++ u64 b.time.toNat
        | none => [0, if s.nv.bootBank = k then 1 else 0, 0, 0] ++ u32 0 ++ u64 0))) ∧
  (∀ (s : State) (h : Hdr), Granted s h 0x0207 2 → anyRun s = false → Rising s.par →
    ∃ t, exec (.parDefaults h) s = .next t ∧ (∀ a, storedAt t a = parDefault a) ∧ Replied t h 0x0207 [] ∧
      OnlyChanges ([Part.axisA, Part.axisB, Part.bus, Part.cairn, Part.net, Part.nv, Part.sum, Part.par, Part.inForce, Part.mbx] ++ signals) s t)

/-- Every parameter write is range-checked (00 R8): over the mailbox and over CAN a value outside its range is refused and no stored
value changes, an accepted one is stored as it was sent; and whatever the drive does, every stored value of the working set and of
the banks stays in the range of its parameter. -/
def Obligations.ParameterValuesStayInRange : Prop :=
  (∀ (s : State) (h : Hdr) (items : List (BitVec 16 × Word)) (i : BitVec 16) (v : Word) (d : PDef), Calm s → (i, v) ∈ items →
    parKnown i = some d → d.kind = .writable → valueOk d v = false →
    ∃ t, exec (.parSet h items) s = .next t ∧ OnlyChanges ([Part.mbx] ++ messages) s t) ∧
  (∀ (s : State) (i : BitVec 16) (v : Word) (d : PDef), parKnown i = some d → d.kind = .writable → valueOk d v = false →
    ∃ e, canParWrite s i v = .error e) ∧
  (∀ (s : State) (h : Hdr) (i : BitVec 16) (v : Word) (d : PDef), Granted s h 0x0202 (max 1 (itemRole i)) → parKnown i = some d →
    d.kind = .writable → itemResult s s.par i v = 0 → Rising s.par →
    ∃ t, exec (.parSet h [(i, v)]) s = .next t ∧ storedAt t i.toNat = v ∧ (∀ a, a ≠ i.toNat → storedAt t a = storedAt s a)) ∧
  (∀ (s : State) (i : BitVec 16) (v : Word) (d : PDef), parKnown i = some d → d.kind = .writable → itemResult s s.par i v = 0 →
    itemRole i ≤ (parD s Par.canRole).toNat → Rising s.par →
    ∃ t, canParWrite s i v = .ok t ∧ storedAt t i.toNat = v ∧ (∀ a, a ≠ i.toNat → storedAt t a = storedAt s a)) ∧
  (∀ (s t : State), ParamsOk s → step s = .next t → ParamsOk t)

/-- Power, enable and stop requests (03 R53, Table 3.7; 10 R222, R223, R235; 17 R360): STATE_GET tells the states; PWR_REQ makes the
moves of Table 3.7 while no axis is in RUN and refuses others with STATE_ERR 0x10; ENABLE starts MEASURE on an axis no cause of R222
refuses, and names the cause otherwise (with 0x4503 where an engine of it failed its test); DISABLE and QUICK_STOP begin a ramp or quick stop. -/
def Obligations.PowerAndMotionRequests : Prop :=
  (∀ (s : State) (h : Hdr), Asked s h 0x0301 →
    ∃ t, exec (.stateGet h) s = .next t ∧ OnlyChanges ([Part.mbx] ++ messages) s t ∧
      Replied t h 0x0301 ([pwrState s, axCode s.axes.a.start.ax, axCode s.axes.b.start.ax] ++ u8 s.flt.list.length ++
        u16 (faultTop s).toNat ++ [0, 0])) ∧
  (∀ (s : State) (h : Hdr), Granted s h 0x0302 1 → anyRun s = false → s.pwr.base = .ready →
    ∃ t, exec (.pwrReq h 2) s = .next t ∧ t.pwr.base = .hold ∧ t.conv.foothill = true ∧
      (∀ x, GatesOff t x ∧ (getAx t x).stage.vgdOn = false ∧ (getAx t x).pwm.running = false ∧ (getAx t x).start.ax = .disabled ∧
        (getAx t x).fb.pos = (getAx s x).fb.pos ∧ (getAx t x).fb.restored = true) ∧ Replied t h 0x0302 [] ∧
      OnlyChanges ([Part.pwr, Part.clk, Part.conv, Part.ridge, Part.axisA, Part.axisB, Part.net, Part.sum, Part.xsp, Part.mbx] ++ signals) s t) ∧
  (∀ (s : State) (h : Hdr), Granted s h 0x0302 1 → anyRun s = false → s.pwr.base = .hold → s.pwr.noPlacement = false →
    s.cairn.arming = none →
    ∃ t, exec (.pwrReq h 3) s = .next t ∧ t.pwr.base = .ready ∧ t.conv.foothill = false ∧
      (∀ x, (getAx t x).pwm.running = ((getAx s x).seq.host.isSome && (placedAx s x).isSome) ∧
        (getAx t x).stage.vgdOn = ((getAx s x).seq.host.isSome && !stoHolds s)) ∧ (stoHolds s = true → t.pwr.safe = true) ∧
      Replied t h 0x0302 [] ∧
      OnlyChanges ([Part.pwr, Part.conv, Part.ridge, Part.sum, Part.net, Part.axisA, Part.axisB, Part.scarp, Part.bus, Part.boot, Part.mbx] ++ signals) s t) ∧
  (∀ (s : State) (h : Hdr), Granted s h 0x0302 1 → anyRun s = false →
    ∃ t, exec (.pwrReq h 1) s = .next t ∧ t.pwr.base = .standby ∧ t.pwr.boot = none ∧ t.pwr.safe = stoHolds s ∧
      t.sum = { s.sum with wakeSrc := 0, pfStandby := false, pfCommit := false, buck := false, out5.on := false, out3.on := false } ∧
      t.nv.posA = some s.axes.a.fb.pos ∧ t.nv.posB = some s.axes.b.fb.pos ∧ t.nv.lastPwr = pwrState s ∧ t.nv.banks = s.nv.banks ∧
      t.flt.list = [] ∧ t.hsp = {} ∧ (∀ x, GatesOff t x) ∧ t.otp.fuse = s.otp.fuse ∧ t.sto = s.sto) ∧
  (∀ (s : State) (h : Hdr) (n : BitVec 8), Granted s h 0x0302 1 → 0 < n.toNat → n.toNat < 4 →
    (anyRun s = true ∨ (s.pwr.base = .ready ∧ n = 3) ∨ (s.pwr.base = .hold ∧ (n = 2 ∨ (n = 3 ∧ s.pwr.noPlacement = true)))) →
    ∃ t, exec (.pwrReq h n) s = .next t ∧ Sent t h.tr (mkReply 0x0302 h 7 0x10 []) ∧ OnlyChanges messages s t) ∧
  (∀ (s u : State) (h : Hdr) (x : Axis), Granted s h 0x0303 1 → enableRefusal s x = none →
    u = bringInAx (if anyRun s then s else bringInDev s .enable) x .enable → fisZero (parX u x Par.fsMeasT) = false →
    ∃ t, exec (.enable h (BitVec.ofNat 8 (axisNo x + 1))) s = .next t ∧ (getAx t x).start.ax = .measure ∧ (getAx t x).start.retry = 0 ∧
      (getAx t x).start.attempts = (getAx s x).start.attempts + 1 ∧ (getAx t x).pwm.switching = (getAx s x).pwm.switching ∧
      t.inForce = u.inForce ∧ (getAx t x).sp.src = (parX t x Par.spSrc).setWidth 8 ∧
      (getAx t x).sp.mode = (parX t x Par.ctrlMode).setWidth 8 ∧
      Replied t h 0x0303 (match x with
        | .a => u16 0 ++ u16 0 ++ u16 0xFFFF ++ u16 0 | .b => u16 0xFFFF ++ u16 0 ++ u16 0 ++ u16 0) ∧
      OnlyChanges ([axPart x, .inForce, .mbx] ++ messages) s t) ∧
  (∀ (s : State) (h : Hdr) (x : Axis) (c : Nat), Granted s h 0x0303 1 → enableRefusal s x = some c →
    ∃ t, exec (.enable h (BitVec.ofNat 8 (axisNo x + 1))) s = .next t ∧
      (if c = 4 ∧ (s.ridge.rga.failed = true ∨ s.ridge.rgb.failed = true) then Raised t 0x4503 (scopeOf x) 0xFF ∧ OnlyChanges signals s t
        else OnlyChanges messages s t) ∧
      Sent t h.tr (mkReply 0x0303 h 7 c (match x with
        | .a => u16 7 ++ u16 c ++ u16 0xFFFF ++ u16 0 | .b => u16 0xFFFF ++ u16 0 ++ u16 7 ++ u16 c))) ∧
  (∀ (s : State) (h : Hdr) (x : Axis) (c : Instr) (k : StopKind) (op : BitVec 16),
    ((c = .disable h (BitVec.ofNat 8 (axisNo x + 1)) ∧ k = .ramp ∧ op = 0x0304) ∨
      (c = .quickStop h (BitVec.ofNat 8 (axisNo x + 1)) ∧ k = .quick ∧ op = 0x0305)) → Granted s h op 1 →
    ((getAx s x).start.ax = .run → (getAx s x).pwm.switching = true →
      ∃ t, exec c s = .next t ∧ (getAx t x).start.ax = .stopping ∧ (getAx t x).start.stop = some k ∧
        (getAx t x).pwm.switching = true ∧ (getAx t x).sp.accepted = false ∧
        (getAx t x).ctl.wRef = (if (getAx s x).sp.accepted = true ∧ (getAx s x).sp.mode = 1 then (getAx s x).ctl.wRef else speedOf s x) ∧
        Replied t h op [] ∧ OnlyChanges ([axPart x, .mbx] ++ messages) s t) ∧
    ((getAx s x).start.ax = .measure →
      ∃ t, exec c s = .next t ∧ (getAx t x).start.ax = .disabled ∧ GatesOff t x ∧ (getAx t x).stage.brake = .off ∧
        Replied t h op [] ∧ OnlyChanges ([axPart x, .mbx] ++ messages) s t) ∧
    ((getAx s x).start.ax = .disabled →
      ∃ t, exec c s = .next t ∧ Replied t h op [] ∧ OnlyChanges ([Part.mbx] ++ messages) s t))

/-- Fault, leg-service, trip and setpoint requests (12 R276 to R279; 04 R81, R82; 05 R109, R112; 08 R190, R191; 17 R360): a clear
removes the latched entries of its scopes whose cause has ended and no others, a chopper fault that stays refuses it; FAULT_LIST
lists; a bypass starts its ramp, a return needs its leg test; SW_TRIP latches and turns the gates off; SP_SET acts for the owner in
the mode in force. -/
def Obligations.FaultLegAndSetpointRequests : Prop :=
  (∀ (s : State) (h : Hdr) (sc : BitVec 8) (seen : Bool), Granted s h 0x0306 1 → 0 < sc.toNat → sc.toNat < 8 → Room s 0 →
    (∀ e ∈ s.flt.list, e.code ≠ 0x3A04 ∧ e.code ≠ 0x5A03) →
    ∃ t, exec (.faultClear h sc seen) s = .next t ∧ (∀ e ∈ t.flt.list, e ∈ s.flt.list) ∧
      (∀ e ∈ s.flt.list, (latched e = false ∨ ∀ b, b < 3 → e.scope = BitVec.ofNat 8 b → sc.getLsbD b = false) → e ∈ t.flt.list) ∧
      (∀ e ∈ s.flt.list, ∀ b, b < 3 → e.scope = BitVec.ofNat 8 b → sc.getLsbD b = true →
        (e.code = 0x4701 ∨ e.code = 0x4802 ∨ e.code = 0x4803) → e.active = false → ∀ f ∈ t.flt.list, sameFault e.code e.scope e.detail f = false) ∧
      (sc.getLsbD 1 = true → t.scarp.latch.getLsbD 30 = false ∧ ∀ f ∈ t.flt.list, f.code = 0x5313 → f.scope ≠ 1) ∧
      Replied t h 0x0306 (u8 (stays t (maskScopes sc)).length ++ [0, 0, 0] ++
        (stays t (maskScopes sc)).flatMap (fun e => u16 e.code.toNat ++ [e.scope, e.detail])) ∧
      OnlyChanges ([Part.axisA, Part.axisB, Part.scarp, Part.mbx] ++ signals) s t) ∧
  (∀ (s : State) (h : Hdr) (seen : Bool) (e : FaultEntry), Granted s h 0x0306 1 → Room s 0 → e ∈ s.flt.list → e.code = 0x3A04 →
    e.scope = 0 → (∀ f ∈ s.flt.list, f.code ≠ 0x5A03 ∧ (f.code = 0x3A04 → f = e)) →
    (seen = false →
      ∃ t, exec (.faultClear h 1 seen) s = .next t ∧ e ∈ t.flt.list ∧ t.bus = s.bus ∧ Sent t h.tr (mkReply 0x0306 h 0x30 0x3A04 [])) ∧
    (seen = true → vmTestable s = true → e.detail ≠ 3 → s.scarp.latch = 0 →
      ∃ t, exec (.faultClear h 1 seen) s = .next t ∧ (∀ f ∈ t.flt.list, f.code ≠ 0x3A04) ∧ t.bus.chopCause = none ∧
        t.bus.testFailed = false)) ∧
  (∀ (s : State) (h : Hdr), Granted s h 0x0307 1 → Room s 0 →
    ∃ t, exec (.faultList h) s = .next t ∧ OnlyChanges ([Part.mbx] ++ messages) s t ∧
      Replied t h 0x0307 (u8 s.flt.list.length ++ [0, 0, 0] ++ s.flt.list.flatMap (fun e =>
        u16 e.code.toNat ++ [e.scope, e.detail] ++ u8 (bit (latched e) 0) ++ u8 (bit e.active 0) ++ [0, 0] ++ u64 e.time.toNat))) ∧
  (∀ (s : State) (h : Hdr) (x : Axis) (l : Leg), Granted s h 0x0308 2 →
    ∃ t, exec (.legServiceBypass h (BitVec.ofNat 8 (axisNo x)) (BitVec.ofNat 8 (legNo l))) s = .next t ∧
      (if mayRamp s x then getAx t x = { getAx s x with stage.bypass := .ramp l, stage.bypassFrom := s.clk.now } ∧ t.nv.auditSeq = s.nv.auditSeq + 1 ∧
          Replied t h 0x0308 [] ∧ OnlyChanges ([axPart x, .nv, .mbx] ++ messages) s t
        else Sent t h.tr (mkReply 0x0308 h 0x31 1 []) ∧ OnlyChanges messages s t)) ∧
  (∀ (s : State) (h : Hdr) (x : Axis) (l : Leg) (m : LegMeasure), Granted s h 0x0308 2 → anyRun s = false → legTestable s x = true →
    (getAx s x).stage.bypassMask.getLsbD (legNo l) = true →
    ∃ t, exec (.legServiceReturn h (BitVec.ofNat 8 (axisNo x)) (BitVec.ofNat 8 (legNo l)) m) s = .next t ∧
      (if legPass s x l m then (getAx t x).stage.bypassMask.getLsbD (legNo l) = false ∧
          (∀ k, k ≠ legNo l → (getAx t x).stage.bypassMask.getLsbD k = (getAx s x).stage.bypassMask.getLsbD k) ∧
          t.boot.bist.getLsbD 5 = false ∧ (∀ e ∈ t.flt.list, sameFault 0x3205 (scopeOf x) (legIdx x l) e = false) ∧
          Replied t h 0x0308 [] ∧ OnlyChanges ([axPart x, .boot, .nv, .mbx] ++ signals) s t
        else t.boot.bist.getLsbD 5 = true ∧ Sent t h.tr (mkReply 0x0308 h 0x31 2 []) ∧ OnlyChanges ([Part.boot] ++ messages) s t)) ∧
  (∀ (s : State) (h : Hdr) (m : BitVec 8), Granted s h 0x0309 1 → 0 < m.toNat → m.toNat < 4 → Room s 2 →
    ∃ t, exec (.swTrip h m) s = .next t ∧ Replied t h 0x0309 [] ∧ OnlyChanges ([Part.scarp, Part.axisA, Part.axisB, Part.mbx] ++ signals) s t ∧
      ∀ x, m.getLsbD (axisNo x) = true → s.scarp.latch.getLsbD (30 + axisNo x) = false →
        t.scarp.latch.getLsbD (30 + axisNo x) = true ∧ GatesOff t x ∧ (getAx t x).start.ax = .disabled ∧
        Raised t 0x5313 (scopeOf x) 0xFF) ∧
  (∀ (s : State) (h : Hdr) (w : SpWords) (x : Axis) (p : Setpoint), Granted s h 0x0401 1 → badSp w = none → x = axisOf w.axis.toNat →
    p = (if w.kind = 2 then { kind := 2, frac := w.w0, turns := w.w1, vff := w.w2, tff := w.w3 }
      else if w.kind = 1 then { kind := 1, value := w.w2, tff := w.w3 } else { kind := 0, value := w.w2 }) →
    ∃ t, exec (.spSet h w) s = .next t ∧
      (if spOwner s x ≠ 0 then Sent t h.tr (mkReply 0x0401 h 8 w.axis.toNat []) ∧ OnlyChanges messages s t
       else if w.kind.toNat ≠ (storX s x Par.ctrlMode).toNat then Sent t h.tr (mkReply 0x0401 h 9 w.axis.toNat []) ∧ OnlyChanges messages s t
       else Replied t h 0x0401 [] ∧ OnlyChanges ([axPart x, .mbx] ++ messages) s t ∧
         getAx t x = (if (getAx s x).sp.accepted then { getAx s x with sp.shadow := some p }
           else if keepsSp (getAx s x) then { getAx s x with sp.kept := some p } else getAx s x))) ∧
  (∀ (s : State) (h : Hdr) (x : Axis), Granted s h 0x0402 1 →
    ∃ t, exec (.spGet h (BitVec.ofNat 8 (axisNo x))) s = .next t ∧ OnlyChanges ([Part.mbx] ++ messages) s t ∧
      Replied t h 0x0402 ([BitVec.ofNat 8 (axisNo x), (getAx s x).sp.now.kind, 0, 0] ++
        (if (getAx s x).sp.now.kind = 2 then w32 (getAx s x).sp.now.frac ++ w32 (getAx s x).sp.now.turns ++
            w32 (getAx s x).sp.now.vff ++ w32 (getAx s x).sp.now.tff
         else if (getAx s x).sp.now.kind = 1 then u32 0 ++ u32 0 ++ w32 (getAx s x).sp.now.value ++ w32 (getAx s x).sp.now.tff
         else u32 0 ++ u32 0 ++ w32 (getAx s x).sp.now.value ++ u32 0)))

/-- Calibration, identification and the angle offset (06 R139, R140; 09 R217 to R219, Table 9.6; 11 R262): an accepted converter leaves
service, at once or after its pending urgent conversion, and of a pair the one named second waits for the first; a calibration's result
stores values within the limits and clears the suspect mark, keeps the shunt offset with 0x2407, or keeps all and marks the converter
suspect with 0x2408; identification, once its steps are over, stores what it measured unless a reason of Table 9.6 ends it; ANGLE_OFS
stores its angle. -/
def Obligations.CalibrationAndIdentification : Prop :=
  (∀ (s : State) (h : Hdr) (cv : Fin 12), Granted s h 0x0501 2 → isReady s = true → anyRun s = false →
    (if (getCv s ((cv.val + 6) % 12)).suspect || (getCv s ((cv.val + 6) % 12)).outOfService then
      ∃ t, exec (.calConv h (BitVec.ofNat 16 (2 ^ cv.val))) s = .next t ∧ Sent t h.tr (mkReply 0x0501 h 0x31 0 []) ∧ OnlyChanges messages s t
    else
      ∃ t, exec (.calConv h (BitVec.ofNat 16 (2 ^ cv.val))) s = .next t ∧
        t.mbx.long = some (.calConv (BitVec.ofNat 12 (2 ^ cv.val)) (BitVec.ofNat 12 (2 ^ cv.val)), h) ∧
        (∀ k, k < 12 → k ≠ cv.val → getCv t k = getCv s k) ∧
        (if (getCv s cv.val).urgent.isSome then
          t.conv = { s.conv with calWait := s.conv.calWait ||| (1#12 <<< cv.val), calNext := 0, calAt := s.clk.now } ∧
          getCv t cv.val = getCv s cv.val ∧ OnlyChanges [.conv, .mbx] s t
        else
          t.conv = { s.conv with calNext := 0, calAt := s.clk.now } ∧ getCv t cv.val = { getCv s cv.val with outOfService := true } ∧
          t.cairn = { s.cairn with pendingTr := s.cairn.pendingTr ++ [(.converterOut cv, s.clk.now)] } ∧
          OnlyChanges [axPart (cvLeg cv.val).1, .conv, .cairn, .mbx] s t))) ∧
  (∀ (s : State) (h : Hdr) (mask : BitVec 16), Granted s h 0x0501 2 → 0 < mask.toNat → mask.toNat < 4096 →
    calPick s (mask.setWidth 12) ≠ 0 →
    ∃ t, exec (.calConv h mask) s = .next t ∧ t.mbx.long = some (.calConv (mask.setWidth 12) (calPick s (mask.setWidth 12)), h) ∧
      (∀ k, k < 12 → (getCv t k).outOfService = ((getCv s k).outOfService || ((calPick s (mask.setWidth 12)).getLsbD k &&
        (getCv s k).urgent.isNone && !(6 ≤ k && (calPick s (mask.setWidth 12)).getLsbD (k - 6))))) ∧
      (∀ k, k < 12 → t.conv.calNext.getLsbD k =
        (decide (6 ≤ k) && (calPick s (mask.setWidth 12)).getLsbD k && (calPick s (mask.setWidth 12)).getLsbD (k - 6))) ∧
      OnlyChanges [.axisA, .axisB, .conv, .cairn, .mbx] s t) ∧
  (∀ (s : State) (h : Hdr) (cv : Fin 12) (asked : BitVec 12) (m : CalMeasure) (c : Converter) (r : Nat), Calm s →
    s.mbx.long = some (.calConv asked (BitVec.ofNat 12 (2 ^ cv.val)), h) → s.nv.auditOk = true → s.conv.calNext = 0 → c = getCv s cv.val →
    ((r = 0 ∧ fle (fabs m.coreOfs) (frnd 256) = true ∧ fle (fabs m.coreGain) (frnd (mkRat 2 100)) = true ∧
        fle (fabs m.shuntGain) (frnd (mkRat 3 100)) = true ∧ fle (fabs m.shuntOfs) (frnd (mkRat 1 2)) = true ∧
        fle m.span (frnd (mkRat 1 10)) = true) ∨
      (r = 1 ∧ (fle (fabs m.coreOfs) (frnd 256) = false ∨ fle (fabs m.coreGain) (frnd (mkRat 2 100)) = false ∨
        fle (fabs m.shuntGain) (frnd (mkRat 3 100)) = false ∨
        (fle m.span (frnd (mkRat 1 10)) = true ∧ fle (fabs m.shuntOfs) (frnd (mkRat 1 2)) = false))) ∨
      (r = 2 ∧ fle (fabs m.coreOfs) (frnd 256) = true ∧ fle (fabs m.coreGain) (frnd (mkRat 2 100)) = true ∧
        fle (fabs m.shuntGain) (frnd (mkRat 3 100)) = true ∧ fle m.span (frnd (mkRat 1 10)) = false)) →
    ∃ t, exec (.calConvDone [m]) s = .next t ∧ t.mbx.long = none ∧
      (r = 0 → getCv t cv.val = { c with
          outOfService := false, suspect := false, calCount := sat16 c.calCount, cal := ⟨m.coreOfs, m.coreGain, m.shuntOfs, m.shuntGain⟩ }) ∧
      (r = 1 → getCv t cv.val = { c with outOfService := false, suspect := true } ∧
        Raised t 0x2408 (scopeOf (cvLeg cv.val).1) (BitVec.ofNat 8 cv.val)) ∧
      (r = 2 → getCv t cv.val = { c with
          outOfService := false, cal := ⟨m.coreOfs, m.coreGain, c.cal.shuntOfs, m.shuntGain⟩ }) ∧
      (fle m.span (frnd (mkRat 1 10)) = false → Raised t 0x2407 (scopeOf (cvLeg cv.val).1) (BitVec.ofNat 8 cv.val)) ∧
      (∀ k, k < 12 → k ≠ cv.val → getCv t k = getCv s k) ∧
      Replied t h 0x0501 ((List.range 12).map (fun k => if k = cv.val ∧ asked.getLsbD k = true then BitVec.ofNat 8 r else 3)) ∧
      OnlyChanges ([axPart (cvLeg cv.val).1, .conv, .cairn, .nv, .boot, .mbx] ++ signals) s t) ∧
  (∀ (s : State) (h : Hdr) (x : Axis), Granted s h 0x0502 2 →
    ∃ t, exec (.ident h (BitVec.ofNat 8 (axisNo x))) s = .next t ∧
      (if motorIdle s x then t.mbx.long = some (.ident x, h) ∧ (getAx t x).crest.identStatus = 1 ∧ (getAx t x).seq.written = .ident ∧
          (getAx t x).pwm.gateArm = true ∧ OnlyChanges [axPart x, .mbx] s t
        else Sent t h.tr (mkReply 0x0502 h 7 0x11 []) ∧ OnlyChanges messages s t)) ∧
  (∀ (s : State) (h : Hdr) (x : Axis), Calm s → (s.mbx.long = some (.ident x, h) ∨ s.mbx.long = some (.angleOfs x, h)) →
    (getAx s x).crest.ident.step ≠ .ended → exec .identDone s = .next s ∧ exec .angleOfsDone s = .next s) ∧
  (∀ (s : State) (h : Hdr) (x : Axis) (r : Nat), Calm s → s.mbx.long = some (.ident x, h) → (getAx s x).crest.ident.step = .ended →
    identFail s x (identMeasured s x) = some r →
    ∃ t, exec .identDone s = .next t ∧ t.mbx.long = none ∧ (getAx t x).crest.identStatus = BitVec.ofNat 8 (16 * r + 3) ∧
      GatesOff t x ∧ (getAx t x).seq.written = .idle ∧ Raised t 0x2706 (scopeOf x) (BitVec.ofNat 8 r) ∧
      Sent t h.tr (mkReply 0x0502 h 0x31 r []) ∧ OnlyChanges ([axPart x, .mbx] ++ signals) s t) ∧
  (∀ (s : State) (h : Hdr) (x : Axis) (m : IdentMeasure) (low : Bool), Calm s → s.mbx.long = some (.ident x, h) →
    (getAx s x).crest.ident.step = .ended → m = identMeasured s x → identFail s x m = none → s.nv.auditOk = true → Rising s.par →
    low = decide (termRatio (fval m.ld) (fval m.lq) < fval (storX s x Par.crestSalMin)) →
    ∃ t, exec .identDone s = .next t ∧ t.mbx.long = none ∧ GatesOff t x ∧ storX t x Par.motRs = m.rs ∧
      storX t x Par.motLd = motorL s x m.ld ∧ storX t x Par.motLq = motorL s x m.lq ∧
      (dualStar s x = true → storX t x Par.motLs = m.ls ∧ storX t x Par.motM = m.m) ∧
      (dualStar s x = false → storX t x Par.motLs = storX s x Par.motLs ∧ storX t x Par.motM = storX s x Par.motM) ∧
      (if parX s x Par.identSpin = 1 then storX t x Par.motPsi = m.psi else storX t x Par.motPsi = storX s x Par.motPsi) ∧
      (if low then (getAx t x).crest.identStatus = 0x23 ∧ Raised t 0x2701 (scopeOf x) 0xFF ∧ Raised t 0x2706 (scopeOf x) 2 ∧
          Sent t h.tr (mkReply 0x0502 h 0x31 2 []) ∧ OnlyChanges ([axPart x, .par, .nv, .mbx] ++ signals) s t
        else (getAx t x).crest.identStatus = 2 ∧
          Replied t h 0x0502 ([2, 0, 0, 0] ++ w32 m.rs ++ w32 (motorL s x m.ld) ++ w32 (motorL s x m.lq) ++ orNan (dualStar s x) m.ls ++
            orNan (dualStar s x) m.m ++ orNan (parX s x Par.identSpin == 1) m.psi) ∧
          OnlyChanges ([axPart x, .par, .nv, .mbx] ++ messages) s t)) ∧
  (∀ (s : State) (h : Hdr) (x : Axis), Granted s h 0x0503 2 →
    ∃ t, exec (.angleOfs h (BitVec.ofNat 8 (axisNo x))) s = .next t ∧
      (if motorIdle s x = true ∧ ((parX s x Par.fbSrc ≠ 4 ∧ parX s x Par.fbSrc ≠ 5) ∨ fbOk s x = true) then
          t.mbx.long = some (.angleOfs x, h) ∧ (getAx t x).seq.written = .ident ∧ (getAx t x).pwm.gateArm = true ∧
          OnlyChanges [axPart x, .mbx] s t
        else Sent t h.tr (mkReply 0x0503 h 7 0x11 []) ∧ OnlyChanges messages s t)) ∧
  (∀ (s : State) (h : Hdr) (x : Axis) (k : Rat), Calm s → s.mbx.long = some (.angleOfs x, h) → storedSalient s x = true →
    (getAx s x).crest.ident.step = .ended → k = polarityK (getAx s x).crest.gPlus (getAx s x).crest.gMinus →
    absR k < pf s x Par.crestPolMin / 100 →
    ∃ t, exec .angleOfsDone s = .next t ∧ t.mbx.long = none ∧ GatesOff t x ∧ Sent t h.tr (mkReply 0x0503 h 0x31 5 []) ∧
      OnlyChanges ([axPart x, .mbx] ++ messages) s t) ∧
  (∀ (s : State) (h : Hdr) (x : Axis) (k deg hall : Rat), Calm s → s.mbx.long = some (.angleOfs x, h) →
    s.nv.auditOk = true → Rising s.par → (getAx s x).crest.ident.step = .ended →
    k = polarityK (getAx s x).crest.gPlus (getAx s x).crest.gMinus →
    (storedSalient s x = false ∨ pf s x Par.crestPolMin / 100 ≤ absR k) →
    deg = (if storedSalient s x = true then fval (getAx s x).crest.th else fval (fdeg (parX s x Par.stAlignAng))) * 180 / piR →
    hall = 60 * (((hallIdx (getAx s x).fb.hall).getD 0 : Nat) : Rat) →
    ∃ t, exec .angleOfsDone s = .next t ∧ t.mbx.long = none ∧ GatesOff t x ∧
      storX t x Par.fbAngleOfs = deg360 (deg - polePairs s x * thetaM s x * 180 / piR) ∧
      storX t x Par.fbHallOfs = (if parX s x Par.fbHallUse = 1 ∨ parX s x Par.fbSrc = 2 then
          deg360 (if parX s x Par.fbHallRev = 1 then deg + hall else deg - hall) else storX s x Par.fbHallOfs) ∧
      Replied t h 0x0503 (w32 (storX t x Par.fbAngleOfs) ++ w32 (storX t x Par.fbHallOfs)) ∧
      OnlyChanges ([axPart x, .par, .nv, .mbx] ++ messages) s t)

/-- Declarations, compiles and user segments (14 R297 to R299, R305 to R307; 07 R171 to R173; 17 Table 17.6): staged bytes lie at their
offset, a compile needs a complete or a stored declaration; output that Cairn could not have built has no effect (the model's choice, log
123); else the first failing check of Table 14.4 rejects it and leaves the placement, an accepted one is stored and armed, or refused
while an arm or hand-over is under way, or waits in HOLD; segments are staged unchecked, stored when they pass, deleted and read back. -/
def Obligations.DeclarationsAndSegments : Prop :=
  (∀ (s : State) (h : Hdr) (off tot : BitVec 16) (bs : List (BitVec 8)) (old : List (BitVec 8)), Granted s h 0x0601 2 → 8 ≤ tot.toNat →
    tot.toNat ≤ 4088 → off.toNat + bs.length ≤ tot.toNat → old = (if s.cairn.stagedTotal = tot.toNat then s.cairn.staged else []) →
    ∃ t, exec (.declWrite h off tot bs) s = .next t ∧ t.cairn.stagedTotal = tot.toNat ∧ t.cairn.staged.length = tot.toNat ∧
      (∀ k, k < tot.toNat → t.cairn.staged[k]? = some (if off.toNat ≤ k ∧ k < off.toNat + bs.length then (bs[k - off.toNat]?).getD 0
        else (old[k]?).getD 0)) ∧ t.cairn.stagedDirty = decide (off.toNat + bs.length = tot.toNat) ∧ t.nv.decl = s.nv.decl ∧
      t.nv.auditSeq = s.nv.auditSeq + (if off.toNat + bs.length = tot.toNat then 1 else 0) ∧ Replied t h 0x0601 [] ∧
      OnlyChanges ([Part.cairn, Part.nv, Part.mbx] ++ messages) s t) ∧
  (∀ (s : State) (h : Hdr) (f : FlashFind) (c : Instr) (chk : Bool), Granted s h 0x0602 2 →
    ((c = .compile h f ∧ chk = false) ∨ (c = .compileCheckOnly h f ∧ chk = true)) →
    ((s.cairn.stagedTotal ≠ 0 ∧ s.cairn.stagedDirty = false) ∨ (s.cairn.stagedTotal = 0 ∧ s.nv.decl = []) →
      ∃ t, exec c s = .next t ∧ Sent t h.tr (mkReply 0x0602 h 0x31 1 []) ∧ OnlyChanges messages s t) ∧
    ((s.cairn.stagedTotal ≠ 0 ∧ s.cairn.stagedDirty = true) ∨ (s.cairn.stagedTotal = 0 ∧ s.nv.decl ≠ []) →
      ∃ t, exec c s = .next t ∧ t.mbx.long = some (.compile chk (s.cairn.stagedTotal != 0), h) ∧
        t.cairn.compiling = some (chk, s.cairn.stagedTotal != 0) ∧ t.cairn.interrupts = 0 ∧ t.cairn.staged = s.cairn.staged ∧
        (s.pwr.base = .hold ∨ anyRun s = true → OnlyChanges [.cairn, .mbx] s t) ∧
        (s.pwr.base = .ready → anyRun s = false → t.xsp = (discover s f).xsp) ∧ OnlyChanges ([Part.cairn, Part.xsp, Part.mbx] ++ signals) s t)) ∧
  (∀ (s : State) (h : Hdr) (o : CairnOut) (chk fs : Bool) (j : Judged), Calm s → s.mbx.long = some (.compile chk fs, h) →
    j = judgeDecl s (compileSource s fs) o →
    (outOk s (fun x => storX s x Par.usrEn) o = false → exec (.compileDone o) s = .next s) ∧
    (∀ i, (parseDecl (compileSource s fs)).2 = some i → j.fails = some (16, i)) ∧
    (∀ r i, outOk s (fun x => storX s x Par.usrEn) o = true → j.fails = some (r, i) →
      ∃ t, exec (.compileDone o) s = .next t ∧ t.mbx.long = none ∧
        t.cairn = { s.cairn with compiling := none, interrupts := 0, lastReject := BitVec.ofNat 8 r } ∧
        Sent t h.tr (mkReply 0x0602 h 0x22 r (ledgerReport r i j.total (parD s Par.ledgerBudget) j.place.items)) ∧
        OnlyChanges ([Part.cairn, Part.mbx] ++ messages) s t) ∧
    (outOk s (fun x => storX s x Par.usrEn) o = true → j.fails = none → chk = true →
      ∃ t, exec (.compileDone o) s = .next t ∧ t.mbx.long = none ∧ t.cairn = { s.cairn with compiling := none, interrupts := 0 } ∧
        Replied t h 0x0602 (w32 (placeId j.place) ++ w32 j.total) ∧ OnlyChanges ([Part.cairn, Part.mbx] ++ messages) s t) ∧
    (outOk s (fun x => storX s x Par.usrEn) o = true → j.fails = none → chk = false → s.nv.auditOk = true →
      ∃ t, exec (.compileDone o) s = .next t ∧ t.mbx.long = none ∧ t.nv.place = some j.place ∧ t.nv.decl = compileSource s fs ∧
        t.pwr = { s.pwr with noPlacement := false } ∧ t.cairn.arming = some (false, j.place) ∧ t.cairn.active = s.cairn.active ∧
        (fs = true → t.cairn.staged = [] ∧ t.cairn.stagedTotal = 0) ∧
        (s.pwr.base = .ready → swapBusy s = false → ∀ e, (getEng t e).armed = true ∧ (getEng t e).swapPending = false ∧
          activeBank t e = activeBank s e ∧ inactiveBank t e = (match e with | .rga => j.place.out.imgA | .rgb => j.place.out.imgB)) ∧
        (s.pwr.base = .ready → swapBusy s = true → ∀ e, (getEng t e).swapRefused = true ∧ (getEng t e).armed = (getEng s e).armed ∧
          activeBank t e = activeBank s e ∧ inactiveBank t e = inactiveBank s e) ∧
        (s.pwr.base ≠ .ready → t.ridge = s.ridge) ∧ Replied t h 0x0602 (w32 (placeId j.place) ++ w32 j.total) ∧
        OnlyChanges ([Part.cairn, Part.nv, Part.pwr, Part.ridge, Part.mbx] ++ messages) s t)) ∧
  (∀ (s : State) (h : Hdr) (off n : BitVec 16) (data : List Byte), Granted s h 0x0603 1 →
    data = (s.nv.decl.drop off.toNat).take (min n.toNat 4084) → Fits h data →
    ∃ t, exec (.declRead h off n) s = .next t ∧ Replied t h 0x0603 data ∧ OnlyChanges ([Part.mbx] ++ messages) s t) ∧
  (∀ (s : State) (h : Hdr) (k i : BitVec 8), Granted s h 0x0604 1 → k.toNat ≤ 4 → i.toNat ≤ placeTop k.toNat →
    Fits h (placeDetails s k.toNat i.toNat) →
    ∃ t, exec (.placeInfo h k i) s = .next t ∧ Replied t h 0x0604 (placeDetails s k.toNat i.toNat) ∧
      (k = 0 → placeDetails s 0 i.toNat = [rgHost s.axes.a, rgHost s.axes.b] ++ w32 (activeId s) ++ initCounts s .a ++ initCounts s .b) ∧
      OnlyChanges ([Part.mbx] ++ messages) s t) ∧
  (∀ (s : State) (h : Hdr) (data : List Byte), Granted s h 0x0605 1 →
    data = ledgerReport 0 0xFFFF (activeTotal s) (parD s Par.ledgerBudget) (match s.cairn.active with | some p => p.items | none => []) →
    Fits h data →
    ∃ t, exec (.ledger h) s = .next t ∧ Replied t h 0x0605 data ∧ OnlyChanges ([Part.mbx] ++ messages) s t) ∧
  (∀ (s : State) (h : Hdr) (a k : BitVec 8) (off : BitVec 16) (ops old : List (BitVec 64)), Granted s h 0x0B01 2 → a.toNat < 2 →
    k.toNat < 4 → 0 < ops.length → ops.length ≤ 510 → old = (mapGet s.cairn.segStage (segKey a k)).getD [] →
    ∃ t l, exec (.segStage h a k off ops) s = .next t ∧ mapGet t.cairn.segStage (segKey a k) = some l ∧
      l.length = max old.length (off.toNat + ops.length) ∧
      (∀ i, i < l.length → l[i]? = some (if off.toNat ≤ i ∧ i < off.toNat + ops.length then (ops[i - off.toNat]?).getD 0 else (old[i]?).getD 0)) ∧
      (Rising s.cairn.segStage → ∀ q, q ≠ segKey a k → mapGet t.cairn.segStage q = mapGet s.cairn.segStage q) ∧
      t.cairn = { s.cairn with segStage := t.cairn.segStage } ∧ Replied t h 0x0B01 [] ∧ OnlyChanges ([Part.cairn, Part.mbx] ++ messages) s t) ∧
  (∀ (s : State) (h : Hdr) (a k : BitVec 8) (n : BitVec 16) (init : List (BitVec 16 × Word)) (ini : List (Nat × Word)), Granted s h 0x0B02 2 →
    a.toNat < 2 → k.toNat < 4 → ini = init.map (fun p => (p.1.toNat, p.2)) →
    (∀ r i, userCheck k.toNat (stagedOps s (segKey a k) n.toNat) ini (s.nv.segs.filter (fun g => g.key / 4 == a.toNat && g.key != segKey a k))
        (s.nv.segs.filter (fun g => g.key / 4 != a.toNat)) = some (r, i) →
      ∃ t, exec (.segCommit h a k n init) s = .next t ∧ Sent t h.tr (mkReply 0x0B02 h 0x23 (r * 4096 + i) []) ∧ OnlyChanges messages s t) ∧
    (userCheck k.toNat (stagedOps s (segKey a k) n.toNat) ini (s.nv.segs.filter (fun g => g.key / 4 == a.toNat && g.key != segKey a k))
        (s.nv.segs.filter (fun g => g.key / 4 != a.toNat)) = none →
      ∃ t, exec (.segCommit h a k n init) s = .next t ∧
        t.nv.segs = s.nv.segs.filter (fun q => q.key != segKey a k) ++ [{ key := segKey a k, ops := stagedOps s (segKey a k) n.toNat, init := ini }] ∧
        t.cairn = { s.cairn with segStage := mapDel s.cairn.segStage (segKey a k) } ∧ t.nv.auditSeq = s.nv.auditSeq + 1 ∧
        Replied t h 0x0B02 [] ∧ OnlyChanges ([Part.cairn, Part.nv, Part.mbx] ++ messages) s t)) ∧
  (∀ (s : State) (h : Hdr) (a k : BitVec 8), Granted s h 0x0B03 2 → a.toNat < 2 → k.toNat < 4 →
    ∃ t, exec (.segDelete h a k) s = .next t ∧ t.nv.segs = s.nv.segs.filter (fun q => q.key != segKey a k) ∧ Replied t h 0x0B03 [] ∧
      OnlyChanges ([Part.nv, Part.mbx] ++ messages) s t) ∧
  (∀ (s : State) (h : Hdr) (a k : BitVec 8) (off n : BitVec 16) (data : List Byte), Granted s h 0x0B04 1 → a.toNat < 2 → k.toNat < 4 →
    data = (((((s.nv.segs.find? (fun g => g.key == segKey a k)).map (·.ops)).getD []).drop off.toNat).take (min n.toNat 510)).flatMap
      (fun (w : BitVec 64) => leBytes 8 w.toNat) → Fits h data →
    ∃ t, exec (.segRead h a k off n) s = .next t ∧ Replied t h 0x0B04 data ∧ OnlyChanges ([Part.mbx] ++ messages) s t)

/-- Log, counter and test requests (12 R271, R282; 20 R424, R425; 11 R259, R261; 14 R302; 17 R361; 05 R103, R115; 21 R437; 07 R170;
15 R320; 06 R129; 17 Table 17.7): what each reads or does, with its refusals. -/
def Obligations.DiagnosticRequests : Prop :=
  (∀ (s : State) (h : Hdr) (b : Word) (n : BitVec 8) (l : List LogEntry), Granted s h 0x0701 1 → 0 < n.toNat → n.toNat ≤ 127 →
    l = ((s.nv.log ++ s.flt.logPending).filter (fun e => decide (b.toNat ≤ e.seq.toNat))).take n.toNat →
    Fits h (u32 0 ++ l.flatMap logBytes) →
    ∃ t, exec (.logRead h b n) s = .next t ∧ OnlyChanges ([Part.mbx] ++ messages) s t ∧
      Replied t h 0x0701 (u8 l.length ++ u8 (missing (l.map (fun e => e.seq.toNat))) ++ [0, 0] ++ l.flatMap logBytes)) ∧
  (∀ (s : State) (h : Hdr), Granted s h 0x0702 2 →
    ∃ t, exec (.logErase h) s = .next t ∧ t.nv.log = [] ∧ t.nv.logSeq = s.nv.logSeq ∧ t.flt = { s.flt with logPending := [] } ∧
      t.nv.auditSeq = s.nv.auditSeq + 1 ∧ Replied t h 0x0702 [] ∧ OnlyChanges ([Part.nv, Part.nvLog, Part.flt, Part.mbx] ++ messages) s t) ∧
  (∀ (s : State) (h : Hdr) (i : BitVec 16) (n : BitVec 8) (l : List AuditEntry), Granted s h 0x0703 1 → i.toNat < 4096 → 0 < n.toNat →
    n.toNat ≤ 120 → l = (s.nv.audit.dropWhile (fun e => e.seq.toNat % 4096 != i.toNat)).take n.toNat →
    Fits h (u32 0 ++ l.flatMap auditBytes) →
    ∃ t, exec (.auditRead h i n) s = .next t ∧ OnlyChanges ([Part.mbx] ++ messages) s t ∧
      Replied t h 0x0703 (u8 l.length ++ u8 (missing (l.map (fun e => e.seq.toNat))) ++ u16 (s.nv.auditSeq.toNat % 4096) ++ l.flatMap auditBytes)) ∧
  (∀ (s : State) (h : Hdr) (x : Axis) (u : Fin 4) (n : BitVec 8) (l : List (Int × Nat × Bool)), Granted s h 0x0704 1 → 0 < n.toNat →
    n.toNat ≤ 16 → l = (unitFifo (getAx s x) u.val).take n.toNat →
    ∃ t, exec (.fifoRead h (BitVec.ofNat 8 (axisNo x)) (BitVec.ofNat 8 u.val) n) s = .next t ∧
      unitFifo (getAx t x) u.val = (unitFifo (getAx s x) u.val).drop n.toNat ∧
      (∀ v : Fin 4, v ≠ u → unitFifo (getAx t x) v.val = unitFifo (getAx s x) v.val) ∧ (getAx t x).fb.pos = (getAx s x).fb.pos ∧
      Replied t h 0x0704 (u8 l.length ++ [0, 0, 0] ++ l.flatMap fifoBytes) ∧ OnlyChanges ([axPart x, .mbx] ++ messages) s t) ∧
  (∀ (s : State) (h : Hdr) (k : Fin 16) (b : Word) (n : BitVec 16), Granted s h 0x0705 1 →
    (placedStream s k.val = none →
      ∃ t, exec (.streamRead h (BitVec.ofNat 8 k.val) b n) s = .next t ∧ Sent t h.tr (mkReply 0x0705 h 0x31 1 []) ∧ OnlyChanges messages s t) ∧
    (∀ q r l data, placedStream s k.val = some q → r = streamFrom ((s.cairn.streams[k.val]?).getD {}) b.toNat →
      l = r.2.take (min n.toNat (4076 / (8 + 4 * q.params.length))) →
      data = u16 l.length ++ [0, 0] ++ u32 r.1 ++ l.flatMap (fun e => u64 e.1 ++ e.2.flatMap w32) → Fits h data →
      ∃ t, exec (.streamRead h (BitVec.ofNat 8 k.val) b n) s = .next t ∧ Replied t h 0x0705 data ∧ OnlyChanges ([Part.mbx] ++ messages) s t)) ∧
  (∀ (s : State) (h : Hdr) (ids : List (BitVec 16)), Granted s h 0x0801 1 → 0 < ids.length → ids.length ≤ 64 →
    ∃ t, exec (.cntRead h ids) s = .next t ∧
      (match ids.findIdx? (fun i => !cntKnown i) with
       | some k => Sent t h.tr (mkReply 0x0801 h 0x31 k []) ∧ OnlyChanges messages s t
       | none => Replied t h 0x0801 (ids.flatMap (fun i => w32 (cntValue s i))) ∧ OnlyChanges ([Part.mbx] ++ messages) s t)) ∧
  (∀ (s : State) (h : Hdr) (ids : List (BitVec 16)), Granted s h 0x0802 1 → 0 < ids.length → ids.length ≤ 64 →
    ∃ t, exec (.cntClear h ids) s = .next t ∧
      (match ids.findIdx? (fun i => !cntKnown i) with
       | some k => Sent t h.tr (mkReply 0x0802 h 0x31 k []) ∧ OnlyChanges messages s t
       | none => (∀ i, cntKnown i = true → cntValue t i = if i ∈ ids then 0 else cntValue s i) ∧ Replied t h 0x0802 [] ∧
         OnlyChanges ([Part.axisA, Part.axisB, Part.scarp, Part.conv, Part.mbx] ++ messages) s t)) ∧
  (∀ (s : State) (h : Hdr), Granted s h 0x0803 1 →
    ∃ t, exec (.cmpRaw h) s = .next t ∧ Replied t h 0x0803 (w32 (s.scarp.raw &&& 0xFFFFFF)) ∧ OnlyChanges ([Part.mbx] ++ messages) s t) ∧
  (∀ (s : State) (h : Hdr) (m : Word) (bad : BitVec 24), Granted s h 0x0804 1 → m.toNat < 0x1000000 → Room s 12 →
    ∃ t, exec (.cmpTest h m bad) s = .next t ∧
      (∀ n, n < 24 → t.scarp.testFail.getLsbD n = if m.getLsbD n then bad.getLsbD n else s.scarp.testFail.getLsbD n) ∧
      (∀ n, n < 24 → m.getLsbD n = true → bad.getLsbD n = true →
        if n < 12 then Raised t 0x4305 (scopeOf (cmpAxis n)) (BitVec.ofNat 8 n) else Raised t 0x2304 0 (BitVec.ofNat 8 n)) ∧
      t.boot.bist.getLsbD 3 = (if m &&& bad.setWidth 32 ≠ 0 then true else if m = 0 then s.boot.bist.getLsbD 3 else false) ∧
      Replied t h 0x0804 (w32 (m &&& bad.setWidth 32)) ∧ OnlyChanges ([Part.scarp, Part.boot, Part.axisA, Part.axisB, Part.mbx] ++ signals) s t) ∧
  (∀ (s : State) (h : Hdr) (seen : Bool), Granted s h 0x0805 2 → Room s 1 →
    ∃ t, exec (.chopTest h seen) s = .next t ∧
      (if vmTestable s = false then Sent t h.tr (mkReply 0x0805 h 0x31 1 []) ∧ OnlyChanges messages s t
       else if parD s Par.chopEn ≠ 1 then Sent t h.tr (mkReply 0x0805 h 0x31 3 []) ∧ OnlyChanges messages s t
       else if seen then t.bus = { s.bus with testWaits := false, testFailed := false, chopCause := none, e1 := s.bus.e1 && !s.bus.low10ms } ∧
         t.boot.bist.getLsbD 4 = false ∧ Replied t h 0x0805 [0, 0, 0, 0] ∧ OnlyChanges ([Part.bus, Part.boot, Part.mbx] ++ signals) s t
       else t.bus.testWaits = false ∧ t.bus.testFailed = true ∧ t.bus.chopCause = some 1 ∧ t.bus.chop = .off ∧ t.bus.misses = 0 ∧
         t.bus.e1 = true ∧
         Raised t 0x3A04 0 1 ∧ t.boot.bist.getLsbD 4 = true ∧ Replied t h 0x0805 [1, 0, 0, 0] ∧
         OnlyChanges ([Part.bus, Part.boot, Part.mbx] ++ signals) s t)) ∧
  (∀ (s : State) (h : Hdr) (x : Axis) (l : Leg) (m : LegMeasure), Granted s h 0x0806 2 →
    ∃ t, exec (.legTest h (BitVec.ofNat 8 (axisNo x)) (BitVec.ofNat 8 (legNo l)) m) s = .next t ∧
      (if legTestable s x then t.boot = { s.boot with bist := if legPass s x l m then s.boot.bist &&& ~~~0x20 else s.boot.bist ||| 0x20 } ∧
          Replied t h 0x0806 [if legPass s x l m then 0 else 1, 0, 0, 0] ∧ OnlyChanges ([Part.boot, Part.mbx] ++ messages) s t
        else Sent t h.tr (mkReply 0x0806 h 7 0x11 []) ∧ OnlyChanges messages s t)) ∧
  (∀ (s : State) (h : Hdr) (e : Engine), Granted s h 0x0807 2 → isReady s = true → swapBusy s = false → s.ridge.rga.underTest = false →
    s.ridge.rgb.underTest = false → s.mbx.rgTest = none →
    ∃ t, exec (.rgTest h (BitVec.ofNat 8 (engNo e))) s = .next t ∧
      (if testFits s e then t.mbx.rgTest = some (e, h) ∧ (getEng t e).underTest = true ∧
          (getEng t (otherEng e)).underTest = false ∧ OnlyChanges [.ridge, .mbx] s t
        else t.ridge = { s.ridge with testSkipped := true } ∧ Replied t h 0x0807 [2, 0, 0, 0] ∧ OnlyChanges ([Part.ridge, Part.mbx] ++ messages) s t)) ∧
  (∀ (s : State) (h : Hdr) (c : Bool), Granted s h 0x0808 (if c then 2 else 1) →
    ∃ t, exec (.colFlags h (if c then 1 else 0)) s = .next t ∧ t.clk = (if c then { s.clk with colFlags := 0 } else s.clk) ∧
      Replied t h 0x0808 (w32 s.clk.colFlags) ∧ OnlyChanges ([Part.clk, Part.mbx] ++ messages) s t) ∧
  (∀ (s : State) (h : Hdr) (cv : Fin 12) (ch : Fin 10) (code : BitVec 16) (c : Converter), Granted s h 0x0809 2 → c = getCv s cv.val →
    ∃ t w, exec (.convOnce h (BitVec.ofNat 8 cv.val) (BitVec.ofNat 8 ch.val) code) s = .next t ∧
      (if c.outOfService = true ∨ c.urgent.isSome = true then getCv t cv.val = { c with urgDrop := sat16 c.urgDrop } ∧
          Sent t h.tr (mkReply 0x0809 h 0x31 1 []) ∧ OnlyChanges ([axPart (cvLeg cv.val).1] ++ messages) s t
        else (getCv t cv.val).urgentResult = w ∧ (getCv t cv.val).urgent = none ∧ w >>> 16 = code.setWidth 32 ∧
          (w >>> 12) &&& 0xF = BitVec.ofNat 32 cv.val ∧ (w >>> 8) &&& 0xF = BitVec.ofNat 32 ch.val ∧ w.getLsbD 6 = true ∧
          w.getLsbD 3 = c.suspect ∧ w.getLsbD 2 = !(getAx s (cvLeg cv.val).1).conv.refOk ∧ Replied t h 0x0809 (w32 w) ∧
          (ch = 0 ∨ ch = 9 → OnlyChanges ([axPart (cvLeg cv.val).1, .conv, .cairn, .mbx] ++ messages) s t) ∧
          OnlyChanges ([Part.clk, Part.scarp, Part.axisA, Part.axisB, Part.conv, Part.bus, Part.th, Part.cairn, Part.boot, Part.inForce,
            Part.mbx] ++ signals) s t)) ∧
  (∀ (s : State) (h : Hdr) (b : Bool), Granted s h 0x080A 3 →
    ∃ t, exec (.testAccess h (if b then 1 else 0)) s = .next t ∧
      (if (installerOpt s).getLsbD 0 then Sent t h.tr (mkReply 0x080A h 0x31 1 []) ∧ OnlyChanges messages s t
       else t.otp = { s.otp with testOpen := b } ∧ Replied t h 0x080A [] ∧ OnlyChanges ([Part.otp, Part.mbx] ++ messages) s t))

/-- Fuse requests (20 R410, R413 to R418, R422, Tables 20.2, 20.4): reading hides SECRETS, an override acts on a shadow and burns
nothing, a burn or lock starts only in its conditions; a row that agrees takes its bits, one that does not is redirected or ends the
request, one that may not be burned stays, one the temperature cuts keeps a part of its bits (which, the model
leaves free, log 115); LOCK and RETIRE burn their flags. -/
def Obligations.FuseRequests : Prop :=
  (∀ (s : State) (h : Hdr) (row : BitVec 16) (n : BitVec 8), Granted s h 0x0901 2 → row.toNat + n.toNat ≤ 256 → 0 < n.toNat → n.toNat ≤ 64 →
    ∃ t, exec (.otpRead h row n) s = .next t ∧ OnlyChanges ([Part.mbx] ++ messages) s t ∧
      Replied t h 0x0901 ((List.range n.toNat).flatMap (fun k =>
        rowBytes (readRow s (row.toNat + k)) ++ u16 (row.toNat + k) ++ u8 (rowCode (rowState s (row.toNat + k))) ++ [0]))) ∧
  (∀ (s : State) (r : Nat), (128 ≤ r → r ≤ 159 → readRow s r = 0) ∧
    (∀ d, (r < 128 ∨ 192 ≤ r) → mapGet s.otp.overrides r = some d → readRow s r = d)) ∧
  (∀ (s : State) (h : Hdr) (row : BitVec 16) (d : BitVec 64), Granted s h 0x0902 (rowOwner row.toNat d) →
    ((regionOf row.toNat = none ∨ regionOf row.toNat = some 2 ∨ regionOf row.toNat = some 3) →
      ∃ t, exec (.otpOverride h row d) s = .next t ∧ Sent t h.tr (mkReply 0x0902 h 0x31 1 []) ∧ OnlyChanges messages s t) ∧
    (∀ k, regionOf row.toNat = some k → k ≠ 2 → k ≠ 3 → (lockedRegion s k = true ∨ retireFlag s k = true) →
      ∃ t, exec (.otpOverride h row d) s = .next t ∧ Sent t h.tr (mkReply 0x0902 h 0x51 row.toNat []) ∧ OnlyChanges messages s t) ∧
    (∀ k, regionOf row.toNat = some k → k ≠ 2 → k ≠ 3 → lockedRegion s k = false → retireFlag s k = false →
      ∃ t, exec (.otpOverride h row d) s = .next t ∧ t.otp = { s.otp with overrides := mapPut s.otp.overrides row.toNat d } ∧
        shadow t row.toNat = d ∧ Raised t 0x1E02 0 (BitVec.ofNat 8 row.toNat) ∧ Replied t h 0x0902 [] ∧
        OnlyChanges ([Part.otp, Part.nv, Part.mbx] ++ signals) s t)) ∧
  (∀ (s : State) (h : Hdr) (rows : List (BitVec 16 × BitVec 64)), Granted s h 0x0903 (rows.foldl (fun (m : Nat) p => max m (rowOwner p.1.toNat p.2)) 2) →
    0 < rows.length → rows.length ≤ 8 →
    (otpTime s = false →
      ∃ t, exec (.otpBurn h rows) s = .next t ∧ Sent t h.tr (mkReply 0x0903 h 7 0x11 []) ∧ OnlyChanges messages s t) ∧
    (∀ k, otpTime s = true → dieOutside s = some k →
      ∃ t, exec (.otpBurn h rows) s = .next t ∧ Sent t h.tr (mkReply 0x0903 h 0x50 k []) ∧ OnlyChanges messages s t) ∧
    (∀ p, otpTime s = true → dieOutside s = none → rows.find? (lockRefuses s) = some p →
      ∃ t, exec (.otpBurn h rows) s = .next t ∧ Sent t h.tr (mkReply 0x0903 h 0x51 p.1.toNat []) ∧ OnlyChanges messages s t) ∧
    (otpTime s = true → dieOutside s = none → (∀ p ∈ rows, lockRefuses s p = false ∧ reservedRow p.1.toNat = false ∧
        (p.1 = 104 → flagBytes p.2 = true → revokeRefused s p.2 = false)) →
      ∃ t r, exec (.otpBurn h rows) s = .next t ∧ roleOf (actsAs s h) = some r ∧ t.mbx.long = some (.otpBurn rows r, h) ∧
        OnlyChanges [.mbx] s t)) ∧
  (∀ (s : State) (h : Hdr) (row : BitVec 16) (d : BitVec 64) (o : Role) (b : BurnSense) (r p : Nat), Calm s → MemoryWf s →
    s.mbx.long = some (.otpBurn [(row, d)] o, h) → r = row.toNat → r ≠ 104 → p = physRow s r →
    (b.tempOk = false → burnable s r d = false →
      ∃ t, exec (.otpBurnDone [b]) s = .next t ∧ t.mbx.long = none ∧ t.otp = s.otp ∧ Sent t h.tr (mkReply 0x0903 h 0x52 r [5]) ∧
        OnlyChanges ([Part.mbx] ++ messages) s t) ∧
    (b.tempOk = false → burnable s r d = true →
      ∃ t, exec (.otpBurnDone [b]) s = .next t ∧ t.mbx.long = none ∧ fuseRow s p &&& ~~~(fuseRow t p) = 0 ∧
        fuseRow t p &&& ~~~(fuseRow s p ||| d) = 0 ∧ (∀ q, q ≠ p → fuseRow t q = fuseRow s q) ∧
        Sent t h.tr (mkReply 0x0903 h 0x52 r [5]) ∧ OnlyChanges ([Part.otp, Part.nv, Part.clk, Part.mbx] ++ messages) s t) ∧
    (b.tempOk = true → burnable s r d = false →
      ∃ t, exec (.otpBurnDone [b]) s = .next t ∧ t.mbx.long = none ∧ t.otp = s.otp ∧ Replied t h 0x0903 [3] ∧
        OnlyChanges ([Part.mbx] ++ messages) s t) ∧
    (b.tempOk = true → burnable s r d = true → rowState s r ≠ .bad → b.agrees = true →
      ∃ t, exec (.otpBurnDone [b]) s = .next t ∧ t.mbx.long = none ∧ fuseRow t p = (fuseRow s p ||| d) ∧
        (∀ q, q ≠ p → fuseRow t q = fuseRow s q) ∧ senseOf t p = .good ∧
        Replied t h 0x0903 [if r < 192 ∧ b.repulsed = true then 1 else 0] ∧ OnlyChanges ([Part.otp, Part.nv, Part.mbx] ++ messages) s t) ∧
    (b.tempOk = true → burnable s r d = true → (rowState s r = .bad ∨ b.agrees = false) →
      ∃ t, exec (.otpBurnDone [b]) s = .next t ∧ t.mbx.long = none ∧ OnlyChanges ([Part.otp, Part.nv, Part.mbx] ++ messages) s t ∧
        fuseRow t p = (if rowState s r = .bad then fuseRow s p else fuseRow s p ||| d) ∧
        (freeSpares s = [] → (∀ q, q ≠ p → fuseRow t q = fuseRow s q) ∧ Sent t h.tr (mkReply 0x0903 h 0x52 r [4])) ∧
        (∀ k l, freeSpares s = k :: l → fuseRow t (256 + k) = (fuseRow s (256 + k) ||| d) ∧
          (b.spareAgrees = false → (∀ q, q ≠ p → q ≠ 256 + k → fuseRow t q = fuseRow s q) ∧ k ∈ t.otp.skipped ∧
            Sent t h.tr (mkReply 0x0903 h 0x52 r [4])) ∧
          (b.spareAgrees = true → (∀ q, q ≠ p → q ≠ 256 + k → q ≠ 248 + k → fuseRow t q = fuseRow s q) ∧
            (fuseRow s (248 + k) = 0 → entryRow t k = some (mapRow s r)) ∧ Replied t h 0x0903 [2])))) ∧
  (∀ (s : State) (h : Hdr) (d : BitVec 64) (o : Role) (b : BurnSense), Calm s → MemoryWf s → s.mbx.long = some (.otpBurn [(104, d)] o, h) →
    b.tempOk = true → flagBytes d = true →
    ∃ t, exec (.otpBurnDone [b]) s = .next t ∧ t.mbx.long = none ∧ fuseRow t (mapRow s 104) = (fuseRow s (mapRow s 104) ||| d) ∧
      (∀ j ∈ newlyRevoked s d, Raised t 0x1E01 0 (BitVec.ofNat 8 j)) ∧ OnlyChanges ([Part.otp, Part.nv, Part.mbx] ++ signals) s t) ∧
  (∀ (s : State) (h : Hdr) (k : Fin 5), otpTime s = true → dieOutside s = none →
    (Granted s h 0x0904 (if k.val < 4 then 3 else 2) →
      ∃ t, exec (.otpLock h (BitVec.ofNat 8 k.val)) s = .next t ∧ t.mbx.long = some (.otpLock k.val false, h) ∧ OnlyChanges [.mbx] s t) ∧
    (Granted s h 0x0904 3 →
      ∃ t, exec (.otpRetire h (BitVec.ofNat 8 k.val)) s = .next t ∧
        (if spareTaken s k.val then Sent t h.tr (mkReply 0x0904 h 0x31 3 []) ∧ OnlyChanges messages s t
         else if (spareRows k.val).any (fun r => fuseRow s r != 0) then Sent t h.tr (mkReply 0x0904 h 0x31 4 []) ∧ OnlyChanges messages s t
         else t.mbx.long = some (.otpLock k.val true, h) ∧ OnlyChanges [.mbx] s t))) ∧
  (∀ (s : State) (h : Hdr) (k : Fin 5) (retire : Bool), Calm s → MemoryWf s → s.mbx.long = some (.otpLock k.val retire, h) →
    ∃ t, exec .otpLockDone s = .next t ∧ t.mbx.long = none ∧ Replied t h 0x0904 [] ∧ OnlyChanges ([Part.otp, Part.nv, Part.mbx] ++ messages) s t ∧
      (if retire then replacedRegion t k.val = true ∧ (∀ r, r ≠ 241 → r ≠ 242 → fuseRow t r = fuseRow s r) ∧ t.otp.overrides = s.otp.overrides
       else lockedRegion t k.val = true ∧ (∀ r, r ≠ 240 → fuseRow t r = fuseRow s r) ∧
         t.otp.overrides = s.otp.overrides.filter (fun p => !(contentRows k.val).contains p.1)))

/-- Firmware, MRAM, reset and network requests (17 Table 17.8; 19 R403; 20 R420, R425, R427; 21 R430, R433, R438): an upload empties the
slot not running, its bytes go to the slot or the staging area, an image that verifies is installed and preferred, another leaves its
slot unbooted; an erase empties its region; REBOOT resets 1 ms later; the network requests read, write and test their port. -/
def Obligations.FirmwareAndNetworkRequests : Prop :=
  (∀ (s : State) (h : Hdr) (n : Word) (st : Bool), Granted s h 0x0A01 2 → 0 < n.toNat → n.toNat ≤ 327680 →
    st = (parD s Par.xspStage == 1 && flashLive s) →
    ∃ t, exec (.fwBegin h n) s = .next t ∧ fwSlot t (!s.boot.slotB) = {} ∧ fwSlot t s.boot.slotB = fwSlot s s.boot.slotB ∧
      t.boot = { s.boot with upload := some { size := n.toNat, toB := !s.boot.slotB, staged := st } } ∧
      t.xsp = { s.xsp with stagedValid := s.xsp.stagedValid && !st } ∧ Replied t h 0x0A01 [if s.boot.slotB then 0 else 1, 0, 0, 0] ∧
      OnlyChanges ([Part.nv, Part.boot, Part.xsp, Part.mbx] ++ messages) s t) ∧
  (∀ (s : State) (h : Hdr) (off : Word) (bs : List (BitVec 8)), Granted s h 0x0A02 2 → 0 < bs.length → bs.length ≤ 4080 →
    ((s.boot.upload = none ∨ ∃ u, s.boot.upload = some u ∧ (u.size < off.toNat + bs.length ∨ (u.staged = true ∧ flashLive s = false))) →
      ∃ t, exec (.fwData h off bs) s = .next t ∧ Sent t h.tr (mkReply 0x0A02 h 0x31 1 []) ∧ OnlyChanges messages s t) ∧
    (∀ u, s.boot.upload = some u → off.toNat + bs.length ≤ u.size → u.staged = false → Rising (fwSlot s u.toB).bytes →
      ∃ t, exec (.fwData h off bs) s = .next t ∧ fwSlot t u.toB = { fwSlot s u.toB with bytes := (fwSlot t u.toB).bytes } ∧
        (∀ a, mapRead 0xFF (fwSlot t u.toB).bytes a = if off.toNat ≤ a ∧ a < off.toNat + bs.length then (bs[a - off.toNat]?).getD 0
          else mapRead 0xFF (fwSlot s u.toB).bytes a) ∧ fwSlot t (!u.toB) = fwSlot s (!u.toB) ∧ Replied t h 0x0A02 [] ∧
        OnlyChanges ([Part.nv, Part.mbx] ++ messages) s t) ∧
    (∀ u, s.boot.upload = some u → off.toNat + bs.length ≤ u.size → u.staged = true → flashLive s = true → Rising u.bytes →
      MemoryWf s →
      ∃ t v, exec (.fwData h off bs) s = .next t ∧ t.boot.upload = some v ∧ v.size = u.size ∧ v.toB = u.toB ∧ v.staged = true ∧
        (∀ a, mapRead 0xFF v.bytes a = if off.toNat ≤ a ∧ a < off.toNat + bs.length then (bs[a - off.toNat]?).getD 0
          else mapRead 0xFF u.bytes a) ∧
        (∀ a, (a < 0x10000 + off.toNat ∨ 0x10000 + off.toNat + bs.length ≤ a) → mapRead 0xFF t.xsp.flash a = mapRead 0xFF s.xsp.flash a) ∧
        Replied t h 0x0A02 [] ∧ OnlyChanges ([Part.boot, Part.xsp, Part.clk, Part.mbx] ++ messages) s t)) ∧
  (∀ (s : State) (h : Hdr) (f : Bool), Granted s h 0x0A03 2 →
    ∃ t, exec (.fwInstall h (if f then 1 else 0)) s = .next t ∧
      (if f = true ∧ anyRun s = true then Sent t h.tr (mkReply 0x0A03 h 7 0x11 []) ∧ OnlyChanges messages s t
       else t.mbx.long = some (.fwInstall f (actsAs s h), h) ∧ OnlyChanges [.mbx] s t)) ∧
  (∀ (s : State) (h : Hdr) (re b : Bool) (role : Nat) (u : FwUpload) (i : ImageFacts), Calm s → s.mbx.long = some (.fwInstall re role, h) →
    s.boot.upload = some u → b = u.toB → (u.staged = true → flashLive s = true) →
    (∀ d, installBad s role i = some d →
      ∃ t, exec (.fwInstallDone i) s = .next t ∧ t.mbx.long = none ∧ t.mbx.rebootAt = none ∧ t.boot.upload = none ∧
        fwSlot t b = (if u.staged then fwSlot s b else { fwSlot s b with state := .failed }) ∧ fwSlot t (!b) = fwSlot s (!b) ∧
        t.nv.preferB = s.nv.preferB ∧ Sent t h.tr (mkReply 0x0A03 h 0x53 d []) ∧ OnlyChanges ([Part.nv, Part.boot, Part.xsp, Part.mbx] ++ messages) s t) ∧
    (installBad s role i = none →
      ∃ t, exec (.fwInstallDone i) s = .next t ∧ t.mbx.long = none ∧ t.boot.upload = none ∧ t.nv.preferB = b ∧
        fwSlot t b = ⟨.valid, i.version, i.size, i.slot, if u.staged then u.bytes else (fwSlot s b).bytes⟩ ∧ fwSlot t (!b) = fwSlot s (!b) ∧
        t.mbx.rebootAt = (if re then some (s.clk.now + 1000000) else none) ∧
        Replied t h 0x0A03 (i.slot :: leBytes 3 i.version.toNat) ∧ OnlyChanges ([Part.nv, Part.boot, Part.xsp, Part.mbx] ++ messages) s t)) ∧
  (∀ (s : State) (h : Hdr) (re : Bool) (role : Nat) (u : FwUpload) (i : ImageFacts), Calm s → s.mbx.long = some (.fwInstall re role, h) →
    s.boot.upload = some u → u.staged = true → flashLive s = false →
    ∃ t, exec (.fwInstallDone i) s = .next t ∧ t.mbx.long = none ∧ t.boot.upload = none ∧ (∀ b, fwSlot t b = fwSlot s b) ∧
      Sent t h.tr (mkReply 0x0A03 h 0x53 2 []) ∧ OnlyChanges ([Part.boot, Part.xsp, Part.mbx] ++ messages) s t) ∧
  (∀ (s : State) (h : Hdr), Asked s h 0x0A04 →
    ∃ t, exec (.fwInfo h) s = .next t ∧ OnlyChanges ([Part.mbx] ++ messages) s t ∧
      Replied t h 0x0A04 ([false, true].flatMap (fun b => u8 (if s.boot.slotB = b then 2 else match (fwSlot s b).state with
          | .empty => 0 | .valid => 1 | .failed => 3) ++ leBytes 3 (fwSlot s b).version.toNat ++ w32 (fwSlot s b).size))) ∧
  (∀ (s : State) (h : Hdr) (r : Fin 4), Granted s h 0x0A05 2 →
    ∃ t, exec (.mramErase h (BitVec.ofNat 8 r.val)) s = .next t ∧
      (if anyRun s then Sent t h.tr (mkReply 0x0A05 h 7 0x11 []) ∧ OnlyChanges messages s t
       else t.mbx.long = some (.mramErase (BitVec.ofNat 8 r.val), h) ∧ t.nv.auditSeq = s.nv.auditSeq + 1 ∧ t.nv.banks = s.nv.banks ∧
         OnlyChanges [.nv, .mbx] s t)) ∧
  (∀ (s : State) (h : Hdr) (r : Fin 4), Calm s → s.mbx.long = some (.mramErase (BitVec.ofNat 8 r.val), h) →
    ∃ t, exec .mramEraseDone s = .next t ∧ t.mbx.long = none ∧ Replied t h 0x0A05 [] ∧ OnlyChanges ([Part.nv, Part.cairn, Part.boot, Part.mbx] ++ messages) s t ∧
      (r.val = 0 → (∀ k q, s.cairn.streams[k]? = some q → t.cairn.streams[k]? = some (if mramStream s k then emptyStream q else q)) ∧
        t.nv.banks = s.nv.banks ∧ t.nv.segs = s.nv.segs) ∧
      (r.val = 1 → t.nv.banks = [none, none, none, none] ∧ t.nv.segs = s.nv.segs ∧ t.cairn = s.cairn) ∧
      (r.val = 2 → t.nv.segs = [] ∧ t.nv.banks = s.nv.banks ∧ t.cairn = s.cairn) ∧
      (r.val = 3 → fwSlot t (!s.boot.slotB) = {} ∧ fwSlot t s.boot.slotB = fwSlot s s.boot.slotB ∧ t.boot.upload = none ∧
        t.nv.banks = s.nv.banks ∧ t.cairn = s.cairn)) ∧
  (∀ (s : State) (h : Hdr), Granted s h 0x0A06 2 →
    ∃ t, exec (.reboot h) s = .next t ∧
      (if anyRun s then Sent t h.tr (mkReply 0x0A06 h 7 0x11 []) ∧ OnlyChanges messages s t
       else t.mbx.rebootAt = some (s.clk.now + 1000000) ∧ Replied t h 0x0A06 [] ∧ OnlyChanges ([Part.mbx] ++ messages) s t)) ∧
  (∀ (s : State) (n : Nat), s.pending = [] → s.mbx.rebootAt = some n → n ≤ s.clk.now → anyRun s = false → s.sum.pfCommit = false →
    s.sum.wdogWait = false →
    ∃ t, step s = .next t ∧ t.pwr.boot = some 5 ∧ t.pwr.resetSrc = 5 ∧ t.mbx.rebootAt = none ∧ t.nv.posA = some s.axes.a.fb.pos ∧
      t.otp.fuse = s.otp.fuse) ∧
  (∀ (s : State) (h : Hdr), Granted s h 0x0C01 1 →
    ∃ t, exec (.netStatus h) s = .next t ∧ OnlyChanges ([Part.mbx] ++ messages) s t ∧
      Replied t h 0x0C01 (u8 (bitsOf [s.net.rmii1.up, s.net.rmii2.up, s.net.t1s.up]) ++
        [Config.plcaCode (parD s Par.t1sPlcaId == 255) s.net.csmaFallback s.net.beacon] ++ u8 (bit (gptpOk s) 0) ++ u8 0 ++
        w32 (intF32 (match s.net.slave with | some p => (getPort s p).pathDelay | none => 0)) ++ w32 (intF32 s.net.lastOffset))) ∧
  (∀ (s : State) (h : Hdr) (p y r : BitVec 8) (v : BitVec 16), p.toNat < 2 → y.toNat < 32 → r.toNat < 32 →
    (Granted s h 0x0C02 1 →
      ∃ t, exec (.mdioRead h p y r v) s = .next t ∧ Replied t h 0x0C02 (u16 v.toNat ++ [0, 0]) ∧ OnlyChanges ([Part.mbx] ++ messages) s t) ∧
    (Granted s h 0x0C02 2 →
      ∃ t, exec (.mdioWrite h p y r v) s = .next t ∧ t.net = { s.net with mdioOut := some (p, y, r, v) } ∧
        Replied t h 0x0C02 (u16 v.toNat ++ [0, 0]) ∧ OnlyChanges ([Part.net, Part.mbx] ++ messages) s t)) ∧
  (∀ (s : State) (h : Hdr) (b : Bool) (n : Nat) (p : Port), Granted s h 0x0C03 2 → p = (if b then .rmii2 else .rmii1) →
    ∃ t, exec (.portTest h (if b then 1 else 0) n) s = .next t ∧
      (if s.net.slave = some p ∨ solePath s p = true then Sent t h.tr (mkReply 0x0C03 h 0x31 1 []) ∧ OnlyChanges messages s t
       else if n = 16 then t.boot = { s.boot with bist := s.boot.bist &&& ~~~0x80 } ∧ Replied t h 0x0C03 [0, 0, 0, 0] ∧
         OnlyChanges ([Part.boot, Part.mbx] ++ messages) s t
       else t.boot = { s.boot with bist := s.boot.bist ||| 0x80 } ∧ Raised t 0x2006 0 7 ∧ Replied t h 0x0C03 [1, 0, 0, 0] ∧
         OnlyChanges ([Part.boot, Part.mbx] ++ signals) s t))

/-- The CRC of a message (17 R345): polynomial 0x1021, initial value 0xFFFF, no reflection and no final XOR, taken over header bytes 0
to 5 and the payload, stored little-endian in header bytes 6 and 7; a message whose CRC differs is answered BAD_CRC and not run. -/
def Obligations.MessageCrc : Prop :=
  (∀ bs : List Byte, crc16 bs = (bs.flatMap (fun b => (List.range 8).map (fun i => b.getLsbD (7 - i)))).foldl
    (fun (c : BitVec 16) bit => if (c.getLsbD 15).xor bit then (c <<< 1) ^^^ 0x1021 else c <<< 1) 0xFFFF) ∧
  (∀ (m : Msg) (c : BitVec 16), c = crc16 ((msgBytes m).take 6 ++ m.payload) →
    (msgBytes m)[6]? = some (c.setWidth 8) ∧ (msgBytes m)[7]? = some ((c >>> 8).setWidth 8) ∧ (msgBytes m).drop 8 = m.payload) ∧
  (∀ (s : State) (m : List Byte) (q : ReqFacts) (tr : Transport), Calm s → Awake s → s.boot.service = .none → s.mbx.long = none →
    BitVec.ofNat 16 (field m 6 2) ≠ crc16 (m.take 6 ++ (m.drop 8).take (field m 4 2)) →
    ∃ t, runMsg s tr m q = .next t ∧ OnlyChanges messages s t ∧
      Sent t tr (mkReply (BitVec.ofNat 16 (field m 0 2)) { tr := tr, session := BitVec.ofNat 8 (field m 3 1), tag := BitVec.ofNat 8 (field m 2 1) } 2 0 []))
end

