-- ==== Sys2Proof/Laws/State.lean ====
section
/-!
SUPPORT. What a change of one part of State leaves: reading the part that changed, the other parts of the same kind, and the
top-level fields.
-/

namespace Sys2Proof.Machine
open Sys2Proof
set_option Elab.async false

theorem getAx_onAx (s : State) (x : Axis) (f : AxisSt → AxisSt) : getAx (onAx s x f) x = f (getAx s x) := by cases x <;> rfl
@[simp] theorem getAx_onAx_same (s : State) (x : Axis) (f : AxisSt → AxisSt) : getAx (onAx s x f) x = f (getAx s x) := by cases x <;> rfl
@[simp] theorem getAx_onAx_a (s : State) (f : AxisSt → AxisSt) : (onAx s .a f).axes = ⟨f s.axes.a, s.axes.b⟩ := rfl
@[simp] theorem getAx_onAx_b (s : State) (f : AxisSt → AxisSt) : (onAx s .b f).axes = ⟨s.axes.a, f s.axes.b⟩ := rfl
theorem getAx_onAx_other (s : State) (x y : Axis) (f : AxisSt → AxisSt) (h : x ≠ y) : getAx (onAx s x f) y = getAx s y := by
  cases x <;> cases y <;> first | rfl | exact absurd rfl h
@[simp] theorem getAx_onAx_ab (s : State) (f : AxisSt → AxisSt) : getAx (onAx s .a f) .b = getAx s .b := rfl
@[simp] theorem getAx_onAx_ba (s : State) (f : AxisSt → AxisSt) : getAx (onAx s .b f) .a = getAx s .a := rfl
@[simp] theorem getAx_onBoth (s : State) (x : Axis) (f : AxisSt → AxisSt) : getAx (onBoth s f) x = f (getAx s x) := by cases x <;> rfl
@[simp] theorem sixGet_sixSet {α : Type} (t : Six α) (l : Leg) (v : α) : sixGet (sixSet t l v) l = v := by cases l <;> rfl
theorem sixGet_sixSet_other {α : Type} (t : Six α) (l m : Leg) (v : α) (h : l ≠ m) : sixGet (sixSet t l v) m = sixGet t m := by
  cases l <;> cases m <;> first | rfl | exact absurd rfl h
@[simp] theorem getLeg_onLeg (s : State) (x : Axis) (l : Leg) (f : LegSt → LegSt) : getLeg (onLeg s x l f) x l = f (getLeg s x l) := by
  simp [getLeg, onLeg]
@[simp] theorem getEng_onEng (s : State) (e : Engine) (f : EngineSt → EngineSt) : getEng (onEng s e f) e = f (getEng s e) := by cases e <;> rfl
theorem getEng_onEng_other (s : State) (e d : Engine) (f : EngineSt → EngineSt) (h : e ≠ d) : getEng (onEng s e f) d = getEng s d := by
  cases e <;> cases d <;> first | rfl | exact absurd rfl h
@[simp] theorem getCia_onCia (s : State) (x : Axis) (f : Cia402 → Cia402) : getCia (onCia s x f) x = f (getCia s x) := by cases x <;> rfl
@[simp] theorem getPort_onPort (s : State) (p : Port) (f : PortSt → PortSt) : getPort (onPort s p f) p = f (getPort s p) := by cases p <;> rfl
@[simp] theorem getCv_onCv (s : State) (k : Nat) (f : Converter → Converter) : getCv (onCv s k f) k = f (getCv s k) := by
  simp [getCv, onCv]
/-! A change of one axis. -/
@[simp] theorem onAx_clk (s : State) (x : Axis) (g : AxisSt → AxisSt) : (onAx s x g).clk = s.clk := by cases x <;> rfl
@[simp] theorem onAx_sum (s : State) (x : Axis) (g : AxisSt → AxisSt) : (onAx s x g).sum = s.sum := by cases x <;> rfl
@[simp] theorem onAx_pwr (s : State) (x : Axis) (g : AxisSt → AxisSt) : (onAx s x g).pwr = s.pwr := by cases x <;> rfl
@[simp] theorem onAx_sto (s : State) (x : Axis) (g : AxisSt → AxisSt) : (onAx s x g).sto = s.sto := by cases x <;> rfl
@[simp] theorem onAx_scarp (s : State) (x : Axis) (g : AxisSt → AxisSt) : (onAx s x g).scarp = s.scarp := by cases x <;> rfl
@[simp] theorem onAx_conv (s : State) (x : Axis) (g : AxisSt → AxisSt) : (onAx s x g).conv = s.conv := by cases x <;> rfl
@[simp] theorem onAx_ridge (s : State) (x : Axis) (g : AxisSt → AxisSt) : (onAx s x g).ridge = s.ridge := by cases x <;> rfl
@[simp] theorem onAx_bus (s : State) (x : Axis) (g : AxisSt → AxisSt) : (onAx s x g).bus = s.bus := by cases x <;> rfl
@[simp] theorem onAx_flt (s : State) (x : Axis) (g : AxisSt → AxisSt) : (onAx s x g).flt = s.flt := by cases x <;> rfl
@[simp] theorem onAx_th (s : State) (x : Axis) (g : AxisSt → AxisSt) : (onAx s x g).th = s.th := by cases x <;> rfl
@[simp] theorem onAx_cairn (s : State) (x : Axis) (g : AxisSt → AxisSt) : (onAx s x g).cairn = s.cairn := by cases x <;> rfl
@[simp] theorem onAx_hsp (s : State) (x : Axis) (g : AxisSt → AxisSt) : (onAx s x g).hsp = s.hsp := by cases x <;> rfl
@[simp] theorem onAx_mbx (s : State) (x : Axis) (g : AxisSt → AxisSt) : (onAx s x g).mbx = s.mbx := by cases x <;> rfl
@[simp] theorem onAx_net (s : State) (x : Axis) (g : AxisSt → AxisSt) : (onAx s x g).net = s.net := by cases x <;> rfl
@[simp] theorem onAx_can (s : State) (x : Axis) (g : AxisSt → AxisSt) : (onAx s x g).can = s.can := by cases x <;> rfl
@[simp] theorem onAx_xsp (s : State) (x : Axis) (g : AxisSt → AxisSt) : (onAx s x g).xsp = s.xsp := by cases x <;> rfl
@[simp] theorem onAx_nv (s : State) (x : Axis) (g : AxisSt → AxisSt) : (onAx s x g).nv = s.nv := by cases x <;> rfl
@[simp] theorem onAx_otp (s : State) (x : Axis) (g : AxisSt → AxisSt) : (onAx s x g).otp = s.otp := by cases x <;> rfl
@[simp] theorem onAx_boot (s : State) (x : Axis) (g : AxisSt → AxisSt) : (onAx s x g).boot = s.boot := by cases x <;> rfl
@[simp] theorem onAx_par (s : State) (x : Axis) (g : AxisSt → AxisSt) : (onAx s x g).par = s.par := by cases x <;> rfl
@[simp] theorem onAx_inForce (s : State) (x : Axis) (g : AxisSt → AxisSt) : (onAx s x g).inForce = s.inForce := by cases x <;> rfl
@[simp] theorem onAx_pending (s : State) (x : Axis) (g : AxisSt → AxisSt) : (onAx s x g).pending = s.pending := by cases x <;> rfl
/-! A change of both axes. -/
@[simp] theorem onBoth_clk (s : State) (g : AxisSt → AxisSt) : (onBoth s g).clk = s.clk := by rfl
@[simp] theorem onBoth_sum (s : State) (g : AxisSt → AxisSt) : (onBoth s g).sum = s.sum := by rfl
@[simp] theorem onBoth_pwr (s : State) (g : AxisSt → AxisSt) : (onBoth s g).pwr = s.pwr := by rfl
@[simp] theorem onBoth_sto (s : State) (g : AxisSt → AxisSt) : (onBoth s g).sto = s.sto := by rfl
@[simp] theorem onBoth_scarp (s : State) (g : AxisSt → AxisSt) : (onBoth s g).scarp = s.scarp := by rfl
@[simp] theorem onBoth_conv (s : State) (g : AxisSt → AxisSt) : (onBoth s g).conv = s.conv := by rfl
@[simp] theorem onBoth_ridge (s : State) (g : AxisSt → AxisSt) : (onBoth s g).ridge = s.ridge := by rfl
@[simp] theorem onBoth_bus (s : State) (g : AxisSt → AxisSt) : (onBoth s g).bus = s.bus := by rfl
@[simp] theorem onBoth_flt (s : State) (g : AxisSt → AxisSt) : (onBoth s g).flt = s.flt := by rfl
@[simp] theorem onBoth_th (s : State) (g : AxisSt → AxisSt) : (onBoth s g).th = s.th := by rfl
@[simp] theorem onBoth_cairn (s : State) (g : AxisSt → AxisSt) : (onBoth s g).cairn = s.cairn := by rfl
@[simp] theorem onBoth_hsp (s : State) (g : AxisSt → AxisSt) : (onBoth s g).hsp = s.hsp := by rfl
@[simp] theorem onBoth_mbx (s : State) (g : AxisSt → AxisSt) : (onBoth s g).mbx = s.mbx := by rfl
@[simp] theorem onBoth_net (s : State) (g : AxisSt → AxisSt) : (onBoth s g).net = s.net := by rfl
@[simp] theorem onBoth_can (s : State) (g : AxisSt → AxisSt) : (onBoth s g).can = s.can := by rfl
@[simp] theorem onBoth_xsp (s : State) (g : AxisSt → AxisSt) : (onBoth s g).xsp = s.xsp := by rfl
@[simp] theorem onBoth_nv (s : State) (g : AxisSt → AxisSt) : (onBoth s g).nv = s.nv := by rfl
@[simp] theorem onBoth_otp (s : State) (g : AxisSt → AxisSt) : (onBoth s g).otp = s.otp := by rfl
@[simp] theorem onBoth_boot (s : State) (g : AxisSt → AxisSt) : (onBoth s g).boot = s.boot := by rfl
@[simp] theorem onBoth_par (s : State) (g : AxisSt → AxisSt) : (onBoth s g).par = s.par := by rfl
@[simp] theorem onBoth_inForce (s : State) (g : AxisSt → AxisSt) : (onBoth s g).inForce = s.inForce := by rfl
@[simp] theorem onBoth_pending (s : State) (g : AxisSt → AxisSt) : (onBoth s g).pending = s.pending := by rfl
/-! A change of one leg. -/
@[simp] theorem onLeg_clk (s : State) (x : Axis) (l : Leg) (g : LegSt → LegSt) : (onLeg s x l g).clk = s.clk := by cases x <;> rfl
@[simp] theorem onLeg_sum (s : State) (x : Axis) (l : Leg) (g : LegSt → LegSt) : (onLeg s x l g).sum = s.sum := by cases x <;> rfl
@[simp] theorem onLeg_pwr (s : State) (x : Axis) (l : Leg) (g : LegSt → LegSt) : (onLeg s x l g).pwr = s.pwr := by cases x <;> rfl
@[simp] theorem onLeg_sto (s : State) (x : Axis) (l : Leg) (g : LegSt → LegSt) : (onLeg s x l g).sto = s.sto := by cases x <;> rfl
@[simp] theorem onLeg_scarp (s : State) (x : Axis) (l : Leg) (g : LegSt → LegSt) : (onLeg s x l g).scarp = s.scarp := by cases x <;> rfl
@[simp] theorem onLeg_conv (s : State) (x : Axis) (l : Leg) (g : LegSt → LegSt) : (onLeg s x l g).conv = s.conv := by cases x <;> rfl
@[simp] theorem onLeg_ridge (s : State) (x : Axis) (l : Leg) (g : LegSt → LegSt) : (onLeg s x l g).ridge = s.ridge := by cases x <;> rfl
@[simp] theorem onLeg_bus (s : State) (x : Axis) (l : Leg) (g : LegSt → LegSt) : (onLeg s x l g).bus = s.bus := by cases x <;> rfl
@[simp] theorem onLeg_flt (s : State) (x : Axis) (l : Leg) (g : LegSt → LegSt) : (onLeg s x l g).flt = s.flt := by cases x <;> rfl
@[simp] theorem onLeg_th (s : State) (x : Axis) (l : Leg) (g : LegSt → LegSt) : (onLeg s x l g).th = s.th := by cases x <;> rfl
@[simp] theorem onLeg_cairn (s : State) (x : Axis) (l : Leg) (g : LegSt → LegSt) : (onLeg s x l g).cairn = s.cairn := by cases x <;> rfl
@[simp] theorem onLeg_hsp (s : State) (x : Axis) (l : Leg) (g : LegSt → LegSt) : (onLeg s x l g).hsp = s.hsp := by cases x <;> rfl
@[simp] theorem onLeg_mbx (s : State) (x : Axis) (l : Leg) (g : LegSt → LegSt) : (onLeg s x l g).mbx = s.mbx := by cases x <;> rfl
@[simp] theorem onLeg_net (s : State) (x : Axis) (l : Leg) (g : LegSt → LegSt) : (onLeg s x l g).net = s.net := by cases x <;> rfl
@[simp] theorem onLeg_can (s : State) (x : Axis) (l : Leg) (g : LegSt → LegSt) : (onLeg s x l g).can = s.can := by cases x <;> rfl
@[simp] theorem onLeg_xsp (s : State) (x : Axis) (l : Leg) (g : LegSt → LegSt) : (onLeg s x l g).xsp = s.xsp := by cases x <;> rfl
@[simp] theorem onLeg_nv (s : State) (x : Axis) (l : Leg) (g : LegSt → LegSt) : (onLeg s x l g).nv = s.nv := by cases x <;> rfl
@[simp] theorem onLeg_otp (s : State) (x : Axis) (l : Leg) (g : LegSt → LegSt) : (onLeg s x l g).otp = s.otp := by cases x <;> rfl
@[simp] theorem onLeg_boot (s : State) (x : Axis) (l : Leg) (g : LegSt → LegSt) : (onLeg s x l g).boot = s.boot := by cases x <;> rfl
@[simp] theorem onLeg_par (s : State) (x : Axis) (l : Leg) (g : LegSt → LegSt) : (onLeg s x l g).par = s.par := by cases x <;> rfl
@[simp] theorem onLeg_inForce (s : State) (x : Axis) (l : Leg) (g : LegSt → LegSt) : (onLeg s x l g).inForce = s.inForce := by cases x <;> rfl
@[simp] theorem onLeg_pending (s : State) (x : Axis) (l : Leg) (g : LegSt → LegSt) : (onLeg s x l g).pending = s.pending := by cases x <;> rfl
/-! A change of one converter. -/
@[simp] theorem onCv_clk (s : State) (k : Nat) (g : Converter → Converter) : (onCv s k g).clk = s.clk := by simp [onCv]
@[simp] theorem onCv_sum (s : State) (k : Nat) (g : Converter → Converter) : (onCv s k g).sum = s.sum := by simp [onCv]
@[simp] theorem onCv_pwr (s : State) (k : Nat) (g : Converter → Converter) : (onCv s k g).pwr = s.pwr := by simp [onCv]
@[simp] theorem onCv_sto (s : State) (k : Nat) (g : Converter → Converter) : (onCv s k g).sto = s.sto := by simp [onCv]
@[simp] theorem onCv_scarp (s : State) (k : Nat) (g : Converter → Converter) : (onCv s k g).scarp = s.scarp := by simp [onCv]
@[simp] theorem onCv_conv (s : State) (k : Nat) (g : Converter → Converter) : (onCv s k g).conv = s.conv := by simp [onCv]
@[simp] theorem onCv_ridge (s : State) (k : Nat) (g : Converter → Converter) : (onCv s k g).ridge = s.ridge := by simp [onCv]
@[simp] theorem onCv_bus (s : State) (k : Nat) (g : Converter → Converter) : (onCv s k g).bus = s.bus := by simp [onCv]
@[simp] theorem onCv_flt (s : State) (k : Nat) (g : Converter → Converter) : (onCv s k g).flt = s.flt := by simp [onCv]
@[simp] theorem onCv_th (s : State) (k : Nat) (g : Converter → Converter) : (onCv s k g).th = s.th := by simp [onCv]
@[simp] theorem onCv_cairn (s : State) (k : Nat) (g : Converter → Converter) : (onCv s k g).cairn = s.cairn := by simp [onCv]
@[simp] theorem onCv_hsp (s : State) (k : Nat) (g : Converter → Converter) : (onCv s k g).hsp = s.hsp := by simp [onCv]
@[simp] theorem onCv_mbx (s : State) (k : Nat) (g : Converter → Converter) : (onCv s k g).mbx = s.mbx := by simp [onCv]
@[simp] theorem onCv_net (s : State) (k : Nat) (g : Converter → Converter) : (onCv s k g).net = s.net := by simp [onCv]
@[simp] theorem onCv_can (s : State) (k : Nat) (g : Converter → Converter) : (onCv s k g).can = s.can := by simp [onCv]
@[simp] theorem onCv_xsp (s : State) (k : Nat) (g : Converter → Converter) : (onCv s k g).xsp = s.xsp := by simp [onCv]
@[simp] theorem onCv_nv (s : State) (k : Nat) (g : Converter → Converter) : (onCv s k g).nv = s.nv := by simp [onCv]
@[simp] theorem onCv_otp (s : State) (k : Nat) (g : Converter → Converter) : (onCv s k g).otp = s.otp := by simp [onCv]
@[simp] theorem onCv_boot (s : State) (k : Nat) (g : Converter → Converter) : (onCv s k g).boot = s.boot := by simp [onCv]
@[simp] theorem onCv_par (s : State) (k : Nat) (g : Converter → Converter) : (onCv s k g).par = s.par := by simp [onCv]
@[simp] theorem onCv_inForce (s : State) (k : Nat) (g : Converter → Converter) : (onCv s k g).inForce = s.inForce := by simp [onCv]
@[simp] theorem onCv_pending (s : State) (k : Nat) (g : Converter → Converter) : (onCv s k g).pending = s.pending := by simp [onCv]
/-! A change of one engine. -/
@[simp] theorem onEng_clk (s : State) (e : Engine) (g : EngineSt → EngineSt) : (onEng s e g).clk = s.clk := by cases e <;> rfl
@[simp] theorem onEng_sum (s : State) (e : Engine) (g : EngineSt → EngineSt) : (onEng s e g).sum = s.sum := by cases e <;> rfl
@[simp] theorem onEng_pwr (s : State) (e : Engine) (g : EngineSt → EngineSt) : (onEng s e g).pwr = s.pwr := by cases e <;> rfl
@[simp] theorem onEng_sto (s : State) (e : Engine) (g : EngineSt → EngineSt) : (onEng s e g).sto = s.sto := by cases e <;> rfl
@[simp] theorem onEng_scarp (s : State) (e : Engine) (g : EngineSt → EngineSt) : (onEng s e g).scarp = s.scarp := by cases e <;> rfl
@[simp] theorem onEng_axes (s : State) (e : Engine) (g : EngineSt → EngineSt) : (onEng s e g).axes = s.axes := by cases e <;> rfl
@[simp] theorem onEng_conv (s : State) (e : Engine) (g : EngineSt → EngineSt) : (onEng s e g).conv = s.conv := by cases e <;> rfl
@[simp] theorem onEng_bus (s : State) (e : Engine) (g : EngineSt → EngineSt) : (onEng s e g).bus = s.bus := by cases e <;> rfl
@[simp] theorem onEng_flt (s : State) (e : Engine) (g : EngineSt → EngineSt) : (onEng s e g).flt = s.flt := by cases e <;> rfl
@[simp] theorem onEng_th (s : State) (e : Engine) (g : EngineSt → EngineSt) : (onEng s e g).th = s.th := by cases e <;> rfl
@[simp] theorem onEng_cairn (s : State) (e : Engine) (g : EngineSt → EngineSt) : (onEng s e g).cairn = s.cairn := by cases e <;> rfl
@[simp] theorem onEng_hsp (s : State) (e : Engine) (g : EngineSt → EngineSt) : (onEng s e g).hsp = s.hsp := by cases e <;> rfl
@[simp] theorem onEng_mbx (s : State) (e : Engine) (g : EngineSt → EngineSt) : (onEng s e g).mbx = s.mbx := by cases e <;> rfl
@[simp] theorem onEng_net (s : State) (e : Engine) (g : EngineSt → EngineSt) : (onEng s e g).net = s.net := by cases e <;> rfl
@[simp] theorem onEng_can (s : State) (e : Engine) (g : EngineSt → EngineSt) : (onEng s e g).can = s.can := by cases e <;> rfl
@[simp] theorem onEng_xsp (s : State) (e : Engine) (g : EngineSt → EngineSt) : (onEng s e g).xsp = s.xsp := by cases e <;> rfl
@[simp] theorem onEng_nv (s : State) (e : Engine) (g : EngineSt → EngineSt) : (onEng s e g).nv = s.nv := by cases e <;> rfl
@[simp] theorem onEng_otp (s : State) (e : Engine) (g : EngineSt → EngineSt) : (onEng s e g).otp = s.otp := by cases e <;> rfl
@[simp] theorem onEng_boot (s : State) (e : Engine) (g : EngineSt → EngineSt) : (onEng s e g).boot = s.boot := by cases e <;> rfl
@[simp] theorem onEng_par (s : State) (e : Engine) (g : EngineSt → EngineSt) : (onEng s e g).par = s.par := by cases e <;> rfl
@[simp] theorem onEng_inForce (s : State) (e : Engine) (g : EngineSt → EngineSt) : (onEng s e g).inForce = s.inForce := by cases e <;> rfl
@[simp] theorem onEng_pending (s : State) (e : Engine) (g : EngineSt → EngineSt) : (onEng s e g).pending = s.pending := by cases e <;> rfl
/-! A change of the CiA 402 state of one axis. -/
@[simp] theorem onCia_clk (s : State) (x : Axis) (g : Cia402 → Cia402) : (onCia s x g).clk = s.clk := by cases x <;> rfl
@[simp] theorem onCia_sum (s : State) (x : Axis) (g : Cia402 → Cia402) : (onCia s x g).sum = s.sum := by cases x <;> rfl
@[simp] theorem onCia_pwr (s : State) (x : Axis) (g : Cia402 → Cia402) : (onCia s x g).pwr = s.pwr := by cases x <;> rfl
@[simp] theorem onCia_sto (s : State) (x : Axis) (g : Cia402 → Cia402) : (onCia s x g).sto = s.sto := by cases x <;> rfl
@[simp] theorem onCia_scarp (s : State) (x : Axis) (g : Cia402 → Cia402) : (onCia s x g).scarp = s.scarp := by cases x <;> rfl
@[simp] theorem onCia_axes (s : State) (x : Axis) (g : Cia402 → Cia402) : (onCia s x g).axes = s.axes := by cases x <;> rfl
@[simp] theorem onCia_conv (s : State) (x : Axis) (g : Cia402 → Cia402) : (onCia s x g).conv = s.conv := by cases x <;> rfl
@[simp] theorem onCia_ridge (s : State) (x : Axis) (g : Cia402 → Cia402) : (onCia s x g).ridge = s.ridge := by cases x <;> rfl
@[simp] theorem onCia_bus (s : State) (x : Axis) (g : Cia402 → Cia402) : (onCia s x g).bus = s.bus := by cases x <;> rfl
@[simp] theorem onCia_flt (s : State) (x : Axis) (g : Cia402 → Cia402) : (onCia s x g).flt = s.flt := by cases x <;> rfl
@[simp] theorem onCia_th (s : State) (x : Axis) (g : Cia402 → Cia402) : (onCia s x g).th = s.th := by cases x <;> rfl
@[simp] theorem onCia_cairn (s : State) (x : Axis) (g : Cia402 → Cia402) : (onCia s x g).cairn = s.cairn := by cases x <;> rfl
@[simp] theorem onCia_hsp (s : State) (x : Axis) (g : Cia402 → Cia402) : (onCia s x g).hsp = s.hsp := by cases x <;> rfl
@[simp] theorem onCia_mbx (s : State) (x : Axis) (g : Cia402 → Cia402) : (onCia s x g).mbx = s.mbx := by cases x <;> rfl
@[simp] theorem onCia_net (s : State) (x : Axis) (g : Cia402 → Cia402) : (onCia s x g).net = s.net := by cases x <;> rfl
@[simp] theorem onCia_xsp (s : State) (x : Axis) (g : Cia402 → Cia402) : (onCia s x g).xsp = s.xsp := by cases x <;> rfl
@[simp] theorem onCia_nv (s : State) (x : Axis) (g : Cia402 → Cia402) : (onCia s x g).nv = s.nv := by cases x <;> rfl
@[simp] theorem onCia_otp (s : State) (x : Axis) (g : Cia402 → Cia402) : (onCia s x g).otp = s.otp := by cases x <;> rfl
@[simp] theorem onCia_boot (s : State) (x : Axis) (g : Cia402 → Cia402) : (onCia s x g).boot = s.boot := by cases x <;> rfl
@[simp] theorem onCia_par (s : State) (x : Axis) (g : Cia402 → Cia402) : (onCia s x g).par = s.par := by cases x <;> rfl
@[simp] theorem onCia_inForce (s : State) (x : Axis) (g : Cia402 → Cia402) : (onCia s x g).inForce = s.inForce := by cases x <;> rfl
@[simp] theorem onCia_pending (s : State) (x : Axis) (g : Cia402 → Cia402) : (onCia s x g).pending = s.pending := by cases x <;> rfl
/-! A change of one external port. -/
@[simp] theorem onPort_clk (s : State) (p : Port) (g : PortSt → PortSt) : (onPort s p g).clk = s.clk := by cases p <;> rfl
@[simp] theorem onPort_sum (s : State) (p : Port) (g : PortSt → PortSt) : (onPort s p g).sum = s.sum := by cases p <;> rfl
@[simp] theorem onPort_pwr (s : State) (p : Port) (g : PortSt → PortSt) : (onPort s p g).pwr = s.pwr := by cases p <;> rfl
@[simp] theorem onPort_sto (s : State) (p : Port) (g : PortSt → PortSt) : (onPort s p g).sto = s.sto := by cases p <;> rfl
@[simp] theorem onPort_scarp (s : State) (p : Port) (g : PortSt → PortSt) : (onPort s p g).scarp = s.scarp := by cases p <;> rfl
@[simp] theorem onPort_axes (s : State) (p : Port) (g : PortSt → PortSt) : (onPort s p g).axes = s.axes := by cases p <;> rfl
@[simp] theorem onPort_conv (s : State) (p : Port) (g : PortSt → PortSt) : (onPort s p g).conv = s.conv := by cases p <;> rfl
@[simp] theorem onPort_ridge (s : State) (p : Port) (g : PortSt → PortSt) : (onPort s p g).ridge = s.ridge := by cases p <;> rfl
@[simp] theorem onPort_bus (s : State) (p : Port) (g : PortSt → PortSt) : (onPort s p g).bus = s.bus := by cases p <;> rfl
@[simp] theorem onPort_flt (s : State) (p : Port) (g : PortSt → PortSt) : (onPort s p g).flt = s.flt := by cases p <;> rfl
@[simp] theorem onPort_th (s : State) (p : Port) (g : PortSt → PortSt) : (onPort s p g).th = s.th := by cases p <;> rfl
@[simp] theorem onPort_cairn (s : State) (p : Port) (g : PortSt → PortSt) : (onPort s p g).cairn = s.cairn := by cases p <;> rfl
@[simp] theorem onPort_hsp (s : State) (p : Port) (g : PortSt → PortSt) : (onPort s p g).hsp = s.hsp := by cases p <;> rfl
@[simp] theorem onPort_mbx (s : State) (p : Port) (g : PortSt → PortSt) : (onPort s p g).mbx = s.mbx := by cases p <;> rfl
@[simp] theorem onPort_can (s : State) (p : Port) (g : PortSt → PortSt) : (onPort s p g).can = s.can := by cases p <;> rfl
@[simp] theorem onPort_xsp (s : State) (p : Port) (g : PortSt → PortSt) : (onPort s p g).xsp = s.xsp := by cases p <;> rfl
@[simp] theorem onPort_nv (s : State) (p : Port) (g : PortSt → PortSt) : (onPort s p g).nv = s.nv := by cases p <;> rfl
@[simp] theorem onPort_otp (s : State) (p : Port) (g : PortSt → PortSt) : (onPort s p g).otp = s.otp := by cases p <;> rfl
@[simp] theorem onPort_boot (s : State) (p : Port) (g : PortSt → PortSt) : (onPort s p g).boot = s.boot := by cases p <;> rfl
@[simp] theorem onPort_par (s : State) (p : Port) (g : PortSt → PortSt) : (onPort s p g).par = s.par := by cases p <;> rfl
@[simp] theorem onPort_inForce (s : State) (p : Port) (g : PortSt → PortSt) : (onPort s p g).inForce = s.inForce := by cases p <;> rfl
@[simp] theorem onPort_pending (s : State) (p : Port) (g : PortSt → PortSt) : (onPort s p g).pending = s.pending := by cases p <;> rfl
/-! The level of a Scarp source. -/
@[simp] theorem setRaw_clk (s : State) (n : Nat) (b : Bool) : (setRaw s n b).clk = s.clk := by rfl
@[simp] theorem setRaw_sum (s : State) (n : Nat) (b : Bool) : (setRaw s n b).sum = s.sum := by rfl
@[simp] theorem setRaw_pwr (s : State) (n : Nat) (b : Bool) : (setRaw s n b).pwr = s.pwr := by rfl
@[simp] theorem setRaw_sto (s : State) (n : Nat) (b : Bool) : (setRaw s n b).sto = s.sto := by rfl
@[simp] theorem setRaw_axes (s : State) (n : Nat) (b : Bool) : (setRaw s n b).axes = s.axes := by rfl
@[simp] theorem setRaw_conv (s : State) (n : Nat) (b : Bool) : (setRaw s n b).conv = s.conv := by rfl
@[simp] theorem setRaw_ridge (s : State) (n : Nat) (b : Bool) : (setRaw s n b).ridge = s.ridge := by rfl
@[simp] theorem setRaw_bus (s : State) (n : Nat) (b : Bool) : (setRaw s n b).bus = s.bus := by rfl
@[simp] theorem setRaw_flt (s : State) (n : Nat) (b : Bool) : (setRaw s n b).flt = s.flt := by rfl
@[simp] theorem setRaw_th (s : State) (n : Nat) (b : Bool) : (setRaw s n b).th = s.th := by rfl
@[simp] theorem setRaw_cairn (s : State) (n : Nat) (b : Bool) : (setRaw s n b).cairn = s.cairn := by rfl
@[simp] theorem setRaw_hsp (s : State) (n : Nat) (b : Bool) : (setRaw s n b).hsp = s.hsp := by rfl
@[simp] theorem setRaw_mbx (s : State) (n : Nat) (b : Bool) : (setRaw s n b).mbx = s.mbx := by rfl
@[simp] theorem setRaw_net (s : State) (n : Nat) (b : Bool) : (setRaw s n b).net = s.net := by rfl
@[simp] theorem setRaw_can (s : State) (n : Nat) (b : Bool) : (setRaw s n b).can = s.can := by rfl
@[simp] theorem setRaw_xsp (s : State) (n : Nat) (b : Bool) : (setRaw s n b).xsp = s.xsp := by rfl
@[simp] theorem setRaw_nv (s : State) (n : Nat) (b : Bool) : (setRaw s n b).nv = s.nv := by rfl
@[simp] theorem setRaw_otp (s : State) (n : Nat) (b : Bool) : (setRaw s n b).otp = s.otp := by rfl
@[simp] theorem setRaw_boot (s : State) (n : Nat) (b : Bool) : (setRaw s n b).boot = s.boot := by rfl
@[simp] theorem setRaw_par (s : State) (n : Nat) (b : Bool) : (setRaw s n b).par = s.par := by rfl
@[simp] theorem setRaw_inForce (s : State) (n : Nat) (b : Bool) : (setRaw s n b).inForce = s.inForce := by rfl
@[simp] theorem setRaw_pending (s : State) (n : Nat) (b : Bool) : (setRaw s n b).pending = s.pending := by rfl
/-! A stamp. -/
@[simp] theorem at__sum (s : State) (t : Nat) : (at_ s t).sum = s.sum := by rfl
@[simp] theorem at__pwr (s : State) (t : Nat) : (at_ s t).pwr = s.pwr := by rfl
@[simp] theorem at__sto (s : State) (t : Nat) : (at_ s t).sto = s.sto := by rfl
@[simp] theorem at__scarp (s : State) (t : Nat) : (at_ s t).scarp = s.scarp := by rfl
@[simp] theorem at__axes (s : State) (t : Nat) : (at_ s t).axes = s.axes := by rfl
@[simp] theorem at__conv (s : State) (t : Nat) : (at_ s t).conv = s.conv := by rfl
@[simp] theorem at__ridge (s : State) (t : Nat) : (at_ s t).ridge = s.ridge := by rfl
@[simp] theorem at__bus (s : State) (t : Nat) : (at_ s t).bus = s.bus := by rfl
@[simp] theorem at__flt (s : State) (t : Nat) : (at_ s t).flt = s.flt := by rfl
@[simp] theorem at__th (s : State) (t : Nat) : (at_ s t).th = s.th := by rfl
@[simp] theorem at__cairn (s : State) (t : Nat) : (at_ s t).cairn = s.cairn := by rfl
@[simp] theorem at__hsp (s : State) (t : Nat) : (at_ s t).hsp = s.hsp := by rfl
@[simp] theorem at__mbx (s : State) (t : Nat) : (at_ s t).mbx = s.mbx := by rfl
@[simp] theorem at__net (s : State) (t : Nat) : (at_ s t).net = s.net := by rfl
@[simp] theorem at__can (s : State) (t : Nat) : (at_ s t).can = s.can := by rfl
@[simp] theorem at__xsp (s : State) (t : Nat) : (at_ s t).xsp = s.xsp := by rfl
@[simp] theorem at__nv (s : State) (t : Nat) : (at_ s t).nv = s.nv := by rfl
@[simp] theorem at__otp (s : State) (t : Nat) : (at_ s t).otp = s.otp := by rfl
@[simp] theorem at__boot (s : State) (t : Nat) : (at_ s t).boot = s.boot := by rfl
@[simp] theorem at__par (s : State) (t : Nat) : (at_ s t).par = s.par := by rfl
@[simp] theorem at__inForce (s : State) (t : Nat) : (at_ s t).inForce = s.inForce := by rfl
@[simp] theorem at__pending (s : State) (t : Nat) : (at_ s t).pending = s.pending := by rfl
/-! A free word used. -/
@[simp] theorem freeWord_sum (s : State) : ((freeWord s).2).sum = s.sum := by rfl
@[simp] theorem freeWord_pwr (s : State) : ((freeWord s).2).pwr = s.pwr := by rfl
@[simp] theorem freeWord_sto (s : State) : ((freeWord s).2).sto = s.sto := by rfl
@[simp] theorem freeWord_scarp (s : State) : ((freeWord s).2).scarp = s.scarp := by rfl
@[simp] theorem freeWord_axes (s : State) : ((freeWord s).2).axes = s.axes := by rfl
@[simp] theorem freeWord_conv (s : State) : ((freeWord s).2).conv = s.conv := by rfl
@[simp] theorem freeWord_ridge (s : State) : ((freeWord s).2).ridge = s.ridge := by rfl
@[simp] theorem freeWord_bus (s : State) : ((freeWord s).2).bus = s.bus := by rfl
@[simp] theorem freeWord_flt (s : State) : ((freeWord s).2).flt = s.flt := by rfl
@[simp] theorem freeWord_th (s : State) : ((freeWord s).2).th = s.th := by rfl
@[simp] theorem freeWord_cairn (s : State) : ((freeWord s).2).cairn = s.cairn := by rfl
@[simp] theorem freeWord_hsp (s : State) : ((freeWord s).2).hsp = s.hsp := by rfl
@[simp] theorem freeWord_mbx (s : State) : ((freeWord s).2).mbx = s.mbx := by rfl
@[simp] theorem freeWord_net (s : State) : ((freeWord s).2).net = s.net := by rfl
@[simp] theorem freeWord_can (s : State) : ((freeWord s).2).can = s.can := by rfl
@[simp] theorem freeWord_xsp (s : State) : ((freeWord s).2).xsp = s.xsp := by rfl
@[simp] theorem freeWord_nv (s : State) : ((freeWord s).2).nv = s.nv := by rfl
@[simp] theorem freeWord_otp (s : State) : ((freeWord s).2).otp = s.otp := by rfl
@[simp] theorem freeWord_boot (s : State) : ((freeWord s).2).boot = s.boot := by rfl
@[simp] theorem freeWord_par (s : State) : ((freeWord s).2).par = s.par := by rfl
@[simp] theorem freeWord_inForce (s : State) : ((freeWord s).2).inForce = s.inForce := by rfl
@[simp] theorem freeWord_pending (s : State) : ((freeWord s).2).pending = s.pending := by rfl

end Sys2Proof.Machine
end

