-- ==== Sys2Proof/Laws/Ops.lean ====
section
/-!
SUPPORT. What the shared operations over messages, faults and completion can change: every top-level field an operation never
touches reads after it as before, and what a raise leaves in the log and in the active list.
-/

namespace Sys2Proof.Machine
open Sys2Proof
set_option Elab.async false

/-- A projection that every step of a fold keeps. -/
theorem foldl_keeps {α β γ : Type} (p : γ → β) (f : γ → α → γ) (h : ∀ g a, p (f g a) = p g) (l : List α) (g : γ) :
    p (l.foldl f g) = p g := by
  induction l generalizing g with
  | nil => rfl
  | cons a l ih => simp [List.foldl_cons, ih, h]

/-! A message on the host port. -/
@[simp] theorem placeHost_clk (s : State) (m : Msg) : (placeHost s m).clk = s.clk := by unfold placeHost; split <;> rfl
@[simp] theorem placeHost_sum (s : State) (m : Msg) : (placeHost s m).sum = s.sum := by unfold placeHost; split <;> rfl
@[simp] theorem placeHost_pwr (s : State) (m : Msg) : (placeHost s m).pwr = s.pwr := by unfold placeHost; split <;> rfl
@[simp] theorem placeHost_sto (s : State) (m : Msg) : (placeHost s m).sto = s.sto := by unfold placeHost; split <;> rfl
@[simp] theorem placeHost_scarp (s : State) (m : Msg) : (placeHost s m).scarp = s.scarp := by unfold placeHost; split <;> rfl
@[simp] theorem placeHost_axes (s : State) (m : Msg) : (placeHost s m).axes = s.axes := by unfold placeHost; split <;> rfl
@[simp] theorem placeHost_conv (s : State) (m : Msg) : (placeHost s m).conv = s.conv := by unfold placeHost; split <;> rfl
@[simp] theorem placeHost_ridge (s : State) (m : Msg) : (placeHost s m).ridge = s.ridge := by unfold placeHost; split <;> rfl
@[simp] theorem placeHost_bus (s : State) (m : Msg) : (placeHost s m).bus = s.bus := by unfold placeHost; split <;> rfl
@[simp] theorem placeHost_flt (s : State) (m : Msg) : (placeHost s m).flt = s.flt := by unfold placeHost; split <;> rfl
@[simp] theorem placeHost_th (s : State) (m : Msg) : (placeHost s m).th = s.th := by unfold placeHost; split <;> rfl
@[simp] theorem placeHost_cairn (s : State) (m : Msg) : (placeHost s m).cairn = s.cairn := by unfold placeHost; split <;> rfl
@[simp] theorem placeHost_mbx (s : State) (m : Msg) : (placeHost s m).mbx = s.mbx := by unfold placeHost; split <;> rfl
@[simp] theorem placeHost_net (s : State) (m : Msg) : (placeHost s m).net = s.net := by unfold placeHost; split <;> rfl
@[simp] theorem placeHost_can (s : State) (m : Msg) : (placeHost s m).can = s.can := by unfold placeHost; split <;> rfl
@[simp] theorem placeHost_xsp (s : State) (m : Msg) : (placeHost s m).xsp = s.xsp := by unfold placeHost; split <;> rfl
@[simp] theorem placeHost_nv (s : State) (m : Msg) : (placeHost s m).nv = s.nv := by unfold placeHost; split <;> rfl
@[simp] theorem placeHost_otp (s : State) (m : Msg) : (placeHost s m).otp = s.otp := by unfold placeHost; split <;> rfl
@[simp] theorem placeHost_boot (s : State) (m : Msg) : (placeHost s m).boot = s.boot := by unfold placeHost; split <;> rfl
@[simp] theorem placeHost_par (s : State) (m : Msg) : (placeHost s m).par = s.par := by unfold placeHost; split <;> rfl
@[simp] theorem placeHost_inForce (s : State) (m : Msg) : (placeHost s m).inForce = s.inForce := by unfold placeHost; split <;> rfl
@[simp] theorem placeHost_pending (s : State) (m : Msg) : (placeHost s m).pending = s.pending := by unfold placeHost; split <;> rfl

/-! A message on its transport. -/
@[simp] theorem sendMsg_clk (s : State) (tr : Transport) (m : Msg) : (sendMsg s tr m).clk = s.clk := by unfold sendMsg; split <;> simp
@[simp] theorem sendMsg_sum (s : State) (tr : Transport) (m : Msg) : (sendMsg s tr m).sum = s.sum := by unfold sendMsg; split <;> simp
@[simp] theorem sendMsg_pwr (s : State) (tr : Transport) (m : Msg) : (sendMsg s tr m).pwr = s.pwr := by unfold sendMsg; split <;> simp
@[simp] theorem sendMsg_sto (s : State) (tr : Transport) (m : Msg) : (sendMsg s tr m).sto = s.sto := by unfold sendMsg; split <;> simp
@[simp] theorem sendMsg_scarp (s : State) (tr : Transport) (m : Msg) : (sendMsg s tr m).scarp = s.scarp := by unfold sendMsg; split <;> simp
@[simp] theorem sendMsg_axes (s : State) (tr : Transport) (m : Msg) : (sendMsg s tr m).axes = s.axes := by unfold sendMsg; split <;> simp
@[simp] theorem sendMsg_conv (s : State) (tr : Transport) (m : Msg) : (sendMsg s tr m).conv = s.conv := by unfold sendMsg; split <;> simp
@[simp] theorem sendMsg_ridge (s : State) (tr : Transport) (m : Msg) : (sendMsg s tr m).ridge = s.ridge := by unfold sendMsg; split <;> simp
@[simp] theorem sendMsg_bus (s : State) (tr : Transport) (m : Msg) : (sendMsg s tr m).bus = s.bus := by unfold sendMsg; split <;> simp
@[simp] theorem sendMsg_flt (s : State) (tr : Transport) (m : Msg) : (sendMsg s tr m).flt = s.flt := by unfold sendMsg; split <;> simp
@[simp] theorem sendMsg_th (s : State) (tr : Transport) (m : Msg) : (sendMsg s tr m).th = s.th := by unfold sendMsg; split <;> simp
@[simp] theorem sendMsg_cairn (s : State) (tr : Transport) (m : Msg) : (sendMsg s tr m).cairn = s.cairn := by unfold sendMsg; split <;> simp
@[simp] theorem sendMsg_net (s : State) (tr : Transport) (m : Msg) : (sendMsg s tr m).net = s.net := by unfold sendMsg; split <;> simp
@[simp] theorem sendMsg_can (s : State) (tr : Transport) (m : Msg) : (sendMsg s tr m).can = s.can := by unfold sendMsg; split <;> simp
@[simp] theorem sendMsg_xsp (s : State) (tr : Transport) (m : Msg) : (sendMsg s tr m).xsp = s.xsp := by unfold sendMsg; split <;> simp
@[simp] theorem sendMsg_nv (s : State) (tr : Transport) (m : Msg) : (sendMsg s tr m).nv = s.nv := by unfold sendMsg; split <;> simp
@[simp] theorem sendMsg_otp (s : State) (tr : Transport) (m : Msg) : (sendMsg s tr m).otp = s.otp := by unfold sendMsg; split <;> simp
@[simp] theorem sendMsg_boot (s : State) (tr : Transport) (m : Msg) : (sendMsg s tr m).boot = s.boot := by unfold sendMsg; split <;> simp
@[simp] theorem sendMsg_par (s : State) (tr : Transport) (m : Msg) : (sendMsg s tr m).par = s.par := by unfold sendMsg; split <;> simp
@[simp] theorem sendMsg_inForce (s : State) (tr : Transport) (m : Msg) : (sendMsg s tr m).inForce = s.inForce := by unfold sendMsg; split <;> simp
@[simp] theorem sendMsg_pending (s : State) (tr : Transport) (m : Msg) : (sendMsg s tr m).pending = s.pending := by unfold sendMsg; split <;> simp

/-! An event on the host port. -/
@[simp] theorem postHost_clk (s : State) (m : Msg) : (postHost s m).clk = s.clk := by simp only [postHost]; (try split) <;> (try split) <;> (try split) <;> simp
@[simp] theorem postHost_sum (s : State) (m : Msg) : (postHost s m).sum = s.sum := by simp only [postHost]; (try split) <;> (try split) <;> (try split) <;> simp
@[simp] theorem postHost_pwr (s : State) (m : Msg) : (postHost s m).pwr = s.pwr := by simp only [postHost]; (try split) <;> (try split) <;> (try split) <;> simp
@[simp] theorem postHost_sto (s : State) (m : Msg) : (postHost s m).sto = s.sto := by simp only [postHost]; (try split) <;> (try split) <;> (try split) <;> simp
@[simp] theorem postHost_scarp (s : State) (m : Msg) : (postHost s m).scarp = s.scarp := by simp only [postHost]; (try split) <;> (try split) <;> (try split) <;> simp
@[simp] theorem postHost_axes (s : State) (m : Msg) : (postHost s m).axes = s.axes := by simp only [postHost]; (try split) <;> (try split) <;> (try split) <;> simp
@[simp] theorem postHost_conv (s : State) (m : Msg) : (postHost s m).conv = s.conv := by simp only [postHost]; (try split) <;> (try split) <;> (try split) <;> simp
@[simp] theorem postHost_ridge (s : State) (m : Msg) : (postHost s m).ridge = s.ridge := by simp only [postHost]; (try split) <;> (try split) <;> (try split) <;> simp
@[simp] theorem postHost_bus (s : State) (m : Msg) : (postHost s m).bus = s.bus := by simp only [postHost]; (try split) <;> (try split) <;> (try split) <;> simp
@[simp] theorem postHost_flt (s : State) (m : Msg) : (postHost s m).flt = s.flt := by simp only [postHost]; (try split) <;> (try split) <;> (try split) <;> simp
@[simp] theorem postHost_th (s : State) (m : Msg) : (postHost s m).th = s.th := by simp only [postHost]; (try split) <;> (try split) <;> (try split) <;> simp
@[simp] theorem postHost_cairn (s : State) (m : Msg) : (postHost s m).cairn = s.cairn := by simp only [postHost]; (try split) <;> (try split) <;> (try split) <;> simp
@[simp] theorem postHost_mbx (s : State) (m : Msg) : (postHost s m).mbx = s.mbx := by simp only [postHost]; (try split) <;> (try split) <;> (try split) <;> simp
@[simp] theorem postHost_net (s : State) (m : Msg) : (postHost s m).net = s.net := by simp only [postHost]; (try split) <;> (try split) <;> (try split) <;> simp
@[simp] theorem postHost_can (s : State) (m : Msg) : (postHost s m).can = s.can := by simp only [postHost]; (try split) <;> (try split) <;> (try split) <;> simp
@[simp] theorem postHost_xsp (s : State) (m : Msg) : (postHost s m).xsp = s.xsp := by simp only [postHost]; (try split) <;> (try split) <;> (try split) <;> simp
@[simp] theorem postHost_nv (s : State) (m : Msg) : (postHost s m).nv = s.nv := by simp only [postHost]; (try split) <;> (try split) <;> (try split) <;> simp
@[simp] theorem postHost_otp (s : State) (m : Msg) : (postHost s m).otp = s.otp := by simp only [postHost]; (try split) <;> (try split) <;> (try split) <;> simp
@[simp] theorem postHost_boot (s : State) (m : Msg) : (postHost s m).boot = s.boot := by simp only [postHost]; (try split) <;> (try split) <;> (try split) <;> simp
@[simp] theorem postHost_par (s : State) (m : Msg) : (postHost s m).par = s.par := by simp only [postHost]; (try split) <;> (try split) <;> (try split) <;> simp
@[simp] theorem postHost_inForce (s : State) (m : Msg) : (postHost s m).inForce = s.inForce := by simp only [postHost]; (try split) <;> (try split) <;> (try split) <;> simp
@[simp] theorem postHost_pending (s : State) (m : Msg) : (postHost s m).pending = s.pending := by simp only [postHost]; (try split) <;> (try split) <;> (try split) <;> simp

/-! An event on each transport. -/
@[simp] theorem postEvent_clk (s : State) (n : Nat) (op : BitVec 16) (p : List Byte) : (postEvent s n op p).clk = s.clk := by simp only [postEvent]; (try split) <;> (try split) <;> (try split) <;> (try split) <;> (try split) <;> simp
@[simp] theorem postEvent_sum (s : State) (n : Nat) (op : BitVec 16) (p : List Byte) : (postEvent s n op p).sum = s.sum := by simp only [postEvent]; (try split) <;> (try split) <;> (try split) <;> (try split) <;> (try split) <;> simp
@[simp] theorem postEvent_pwr (s : State) (n : Nat) (op : BitVec 16) (p : List Byte) : (postEvent s n op p).pwr = s.pwr := by simp only [postEvent]; (try split) <;> (try split) <;> (try split) <;> (try split) <;> (try split) <;> simp
@[simp] theorem postEvent_sto (s : State) (n : Nat) (op : BitVec 16) (p : List Byte) : (postEvent s n op p).sto = s.sto := by simp only [postEvent]; (try split) <;> (try split) <;> (try split) <;> (try split) <;> (try split) <;> simp
@[simp] theorem postEvent_scarp (s : State) (n : Nat) (op : BitVec 16) (p : List Byte) : (postEvent s n op p).scarp = s.scarp := by simp only [postEvent]; (try split) <;> (try split) <;> (try split) <;> (try split) <;> (try split) <;> simp
@[simp] theorem postEvent_axes (s : State) (n : Nat) (op : BitVec 16) (p : List Byte) : (postEvent s n op p).axes = s.axes := by simp only [postEvent]; (try split) <;> (try split) <;> (try split) <;> (try split) <;> (try split) <;> simp
@[simp] theorem postEvent_conv (s : State) (n : Nat) (op : BitVec 16) (p : List Byte) : (postEvent s n op p).conv = s.conv := by simp only [postEvent]; (try split) <;> (try split) <;> (try split) <;> (try split) <;> (try split) <;> simp
@[simp] theorem postEvent_ridge (s : State) (n : Nat) (op : BitVec 16) (p : List Byte) : (postEvent s n op p).ridge = s.ridge := by simp only [postEvent]; (try split) <;> (try split) <;> (try split) <;> (try split) <;> (try split) <;> simp
@[simp] theorem postEvent_bus (s : State) (n : Nat) (op : BitVec 16) (p : List Byte) : (postEvent s n op p).bus = s.bus := by simp only [postEvent]; (try split) <;> (try split) <;> (try split) <;> (try split) <;> (try split) <;> simp
@[simp] theorem postEvent_flt (s : State) (n : Nat) (op : BitVec 16) (p : List Byte) : (postEvent s n op p).flt = s.flt := by simp only [postEvent]; (try split) <;> (try split) <;> (try split) <;> (try split) <;> (try split) <;> simp
@[simp] theorem postEvent_th (s : State) (n : Nat) (op : BitVec 16) (p : List Byte) : (postEvent s n op p).th = s.th := by simp only [postEvent]; (try split) <;> (try split) <;> (try split) <;> (try split) <;> (try split) <;> simp
@[simp] theorem postEvent_cairn (s : State) (n : Nat) (op : BitVec 16) (p : List Byte) : (postEvent s n op p).cairn = s.cairn := by simp only [postEvent]; (try split) <;> (try split) <;> (try split) <;> (try split) <;> (try split) <;> simp
@[simp] theorem postEvent_net (s : State) (n : Nat) (op : BitVec 16) (p : List Byte) : (postEvent s n op p).net = s.net := by simp only [postEvent]; (try split) <;> (try split) <;> (try split) <;> (try split) <;> (try split) <;> simp
@[simp] theorem postEvent_can (s : State) (n : Nat) (op : BitVec 16) (p : List Byte) : (postEvent s n op p).can = s.can := by simp only [postEvent]; (try split) <;> (try split) <;> (try split) <;> (try split) <;> (try split) <;> simp
@[simp] theorem postEvent_xsp (s : State) (n : Nat) (op : BitVec 16) (p : List Byte) : (postEvent s n op p).xsp = s.xsp := by simp only [postEvent]; (try split) <;> (try split) <;> (try split) <;> (try split) <;> (try split) <;> simp
@[simp] theorem postEvent_nv (s : State) (n : Nat) (op : BitVec 16) (p : List Byte) : (postEvent s n op p).nv = s.nv := by simp only [postEvent]; (try split) <;> (try split) <;> (try split) <;> (try split) <;> (try split) <;> simp
@[simp] theorem postEvent_otp (s : State) (n : Nat) (op : BitVec 16) (p : List Byte) : (postEvent s n op p).otp = s.otp := by simp only [postEvent]; (try split) <;> (try split) <;> (try split) <;> (try split) <;> (try split) <;> simp
@[simp] theorem postEvent_boot (s : State) (n : Nat) (op : BitVec 16) (p : List Byte) : (postEvent s n op p).boot = s.boot := by simp only [postEvent]; (try split) <;> (try split) <;> (try split) <;> (try split) <;> (try split) <;> simp
@[simp] theorem postEvent_par (s : State) (n : Nat) (op : BitVec 16) (p : List Byte) : (postEvent s n op p).par = s.par := by simp only [postEvent]; (try split) <;> (try split) <;> (try split) <;> (try split) <;> (try split) <;> simp
@[simp] theorem postEvent_inForce (s : State) (n : Nat) (op : BitVec 16) (p : List Byte) : (postEvent s n op p).inForce = s.inForce := by simp only [postEvent]; (try split) <;> (try split) <;> (try split) <;> (try split) <;> (try split) <;> simp
@[simp] theorem postEvent_pending (s : State) (n : Nat) (op : BitVec 16) (p : List Byte) : (postEvent s n op p).pending = s.pending := by simp only [postEvent]; (try split) <;> (try split) <;> (try split) <;> (try split) <;> (try split) <;> simp

/-! The events that waited. -/
@[simp] theorem flushHeld_clk (s : State) : (flushHeld s).clk = s.clk := by simp only [flushHeld]; rw [foldl_keeps (p := State.clk)]; intro g a; simp
@[simp] theorem flushHeld_sum (s : State) : (flushHeld s).sum = s.sum := by simp only [flushHeld]; rw [foldl_keeps (p := State.sum)]; intro g a; simp
@[simp] theorem flushHeld_pwr (s : State) : (flushHeld s).pwr = s.pwr := by simp only [flushHeld]; rw [foldl_keeps (p := State.pwr)]; intro g a; simp
@[simp] theorem flushHeld_sto (s : State) : (flushHeld s).sto = s.sto := by simp only [flushHeld]; rw [foldl_keeps (p := State.sto)]; intro g a; simp
@[simp] theorem flushHeld_scarp (s : State) : (flushHeld s).scarp = s.scarp := by simp only [flushHeld]; rw [foldl_keeps (p := State.scarp)]; intro g a; simp
@[simp] theorem flushHeld_axes (s : State) : (flushHeld s).axes = s.axes := by simp only [flushHeld]; rw [foldl_keeps (p := State.axes)]; intro g a; simp
@[simp] theorem flushHeld_conv (s : State) : (flushHeld s).conv = s.conv := by simp only [flushHeld]; rw [foldl_keeps (p := State.conv)]; intro g a; simp
@[simp] theorem flushHeld_ridge (s : State) : (flushHeld s).ridge = s.ridge := by simp only [flushHeld]; rw [foldl_keeps (p := State.ridge)]; intro g a; simp
@[simp] theorem flushHeld_bus (s : State) : (flushHeld s).bus = s.bus := by simp only [flushHeld]; rw [foldl_keeps (p := State.bus)]; intro g a; simp
@[simp] theorem flushHeld_flt (s : State) : (flushHeld s).flt = s.flt := by simp only [flushHeld]; rw [foldl_keeps (p := State.flt)]; intro g a; simp
@[simp] theorem flushHeld_th (s : State) : (flushHeld s).th = s.th := by simp only [flushHeld]; rw [foldl_keeps (p := State.th)]; intro g a; simp
@[simp] theorem flushHeld_cairn (s : State) : (flushHeld s).cairn = s.cairn := by simp only [flushHeld]; rw [foldl_keeps (p := State.cairn)]; intro g a; simp
@[simp] theorem flushHeld_net (s : State) : (flushHeld s).net = s.net := by simp only [flushHeld]; rw [foldl_keeps (p := State.net)]; intro g a; simp
@[simp] theorem flushHeld_can (s : State) : (flushHeld s).can = s.can := by simp only [flushHeld]; rw [foldl_keeps (p := State.can)]; intro g a; simp
@[simp] theorem flushHeld_xsp (s : State) : (flushHeld s).xsp = s.xsp := by simp only [flushHeld]; rw [foldl_keeps (p := State.xsp)]; intro g a; simp
@[simp] theorem flushHeld_nv (s : State) : (flushHeld s).nv = s.nv := by simp only [flushHeld]; rw [foldl_keeps (p := State.nv)]; intro g a; simp
@[simp] theorem flushHeld_otp (s : State) : (flushHeld s).otp = s.otp := by simp only [flushHeld]; rw [foldl_keeps (p := State.otp)]; intro g a; simp
@[simp] theorem flushHeld_boot (s : State) : (flushHeld s).boot = s.boot := by simp only [flushHeld]; rw [foldl_keeps (p := State.boot)]; intro g a; simp
@[simp] theorem flushHeld_par (s : State) : (flushHeld s).par = s.par := by simp only [flushHeld]; rw [foldl_keeps (p := State.par)]; intro g a; simp
@[simp] theorem flushHeld_inForce (s : State) : (flushHeld s).inForce = s.inForce := by simp only [flushHeld]; rw [foldl_keeps (p := State.inForce)]; intro g a; simp
@[simp] theorem flushHeld_pending (s : State) : (flushHeld s).pending = s.pending := by simp only [flushHeld]; rw [foldl_keeps (p := State.pending)]; intro g a; simp

/-! The kept reply of a session. -/
@[simp] theorem keepReply_clk (s : State) (op : BitVec 16) (h : Hdr) (m : Msg) : (keepReply s op h m).clk = s.clk := by rfl
@[simp] theorem keepReply_sum (s : State) (op : BitVec 16) (h : Hdr) (m : Msg) : (keepReply s op h m).sum = s.sum := by rfl
@[simp] theorem keepReply_pwr (s : State) (op : BitVec 16) (h : Hdr) (m : Msg) : (keepReply s op h m).pwr = s.pwr := by rfl
@[simp] theorem keepReply_sto (s : State) (op : BitVec 16) (h : Hdr) (m : Msg) : (keepReply s op h m).sto = s.sto := by rfl
@[simp] theorem keepReply_scarp (s : State) (op : BitVec 16) (h : Hdr) (m : Msg) : (keepReply s op h m).scarp = s.scarp := by rfl
@[simp] theorem keepReply_axes (s : State) (op : BitVec 16) (h : Hdr) (m : Msg) : (keepReply s op h m).axes = s.axes := by rfl
@[simp] theorem keepReply_conv (s : State) (op : BitVec 16) (h : Hdr) (m : Msg) : (keepReply s op h m).conv = s.conv := by rfl
@[simp] theorem keepReply_ridge (s : State) (op : BitVec 16) (h : Hdr) (m : Msg) : (keepReply s op h m).ridge = s.ridge := by rfl
@[simp] theorem keepReply_bus (s : State) (op : BitVec 16) (h : Hdr) (m : Msg) : (keepReply s op h m).bus = s.bus := by rfl
@[simp] theorem keepReply_flt (s : State) (op : BitVec 16) (h : Hdr) (m : Msg) : (keepReply s op h m).flt = s.flt := by rfl
@[simp] theorem keepReply_th (s : State) (op : BitVec 16) (h : Hdr) (m : Msg) : (keepReply s op h m).th = s.th := by rfl
@[simp] theorem keepReply_cairn (s : State) (op : BitVec 16) (h : Hdr) (m : Msg) : (keepReply s op h m).cairn = s.cairn := by rfl
@[simp] theorem keepReply_hsp (s : State) (op : BitVec 16) (h : Hdr) (m : Msg) : (keepReply s op h m).hsp = s.hsp := by rfl
@[simp] theorem keepReply_net (s : State) (op : BitVec 16) (h : Hdr) (m : Msg) : (keepReply s op h m).net = s.net := by rfl
@[simp] theorem keepReply_can (s : State) (op : BitVec 16) (h : Hdr) (m : Msg) : (keepReply s op h m).can = s.can := by rfl
@[simp] theorem keepReply_xsp (s : State) (op : BitVec 16) (h : Hdr) (m : Msg) : (keepReply s op h m).xsp = s.xsp := by rfl
@[simp] theorem keepReply_nv (s : State) (op : BitVec 16) (h : Hdr) (m : Msg) : (keepReply s op h m).nv = s.nv := by rfl
@[simp] theorem keepReply_otp (s : State) (op : BitVec 16) (h : Hdr) (m : Msg) : (keepReply s op h m).otp = s.otp := by rfl
@[simp] theorem keepReply_boot (s : State) (op : BitVec 16) (h : Hdr) (m : Msg) : (keepReply s op h m).boot = s.boot := by rfl
@[simp] theorem keepReply_par (s : State) (op : BitVec 16) (h : Hdr) (m : Msg) : (keepReply s op h m).par = s.par := by rfl
@[simp] theorem keepReply_inForce (s : State) (op : BitVec 16) (h : Hdr) (m : Msg) : (keepReply s op h m).inForce = s.inForce := by rfl
@[simp] theorem keepReply_pending (s : State) (op : BitVec 16) (h : Hdr) (m : Msg) : (keepReply s op h m).pending = s.pending := by rfl

/-! A reply ahead of the events. -/
@[simp] theorem placeAhead_clk (s : State) (m : Msg) : (placeAhead s m).clk = s.clk := by unfold placeAhead; split <;> simp
@[simp] theorem placeAhead_sum (s : State) (m : Msg) : (placeAhead s m).sum = s.sum := by unfold placeAhead; split <;> simp
@[simp] theorem placeAhead_pwr (s : State) (m : Msg) : (placeAhead s m).pwr = s.pwr := by unfold placeAhead; split <;> simp
@[simp] theorem placeAhead_sto (s : State) (m : Msg) : (placeAhead s m).sto = s.sto := by unfold placeAhead; split <;> simp
@[simp] theorem placeAhead_scarp (s : State) (m : Msg) : (placeAhead s m).scarp = s.scarp := by unfold placeAhead; split <;> simp
@[simp] theorem placeAhead_axes (s : State) (m : Msg) : (placeAhead s m).axes = s.axes := by unfold placeAhead; split <;> simp
@[simp] theorem placeAhead_conv (s : State) (m : Msg) : (placeAhead s m).conv = s.conv := by unfold placeAhead; split <;> simp
@[simp] theorem placeAhead_ridge (s : State) (m : Msg) : (placeAhead s m).ridge = s.ridge := by unfold placeAhead; split <;> simp
@[simp] theorem placeAhead_bus (s : State) (m : Msg) : (placeAhead s m).bus = s.bus := by unfold placeAhead; split <;> simp
@[simp] theorem placeAhead_flt (s : State) (m : Msg) : (placeAhead s m).flt = s.flt := by unfold placeAhead; split <;> simp
@[simp] theorem placeAhead_th (s : State) (m : Msg) : (placeAhead s m).th = s.th := by unfold placeAhead; split <;> simp
@[simp] theorem placeAhead_cairn (s : State) (m : Msg) : (placeAhead s m).cairn = s.cairn := by unfold placeAhead; split <;> simp
@[simp] theorem placeAhead_mbx (s : State) (m : Msg) : (placeAhead s m).mbx = s.mbx := by unfold placeAhead; split <;> simp
@[simp] theorem placeAhead_net (s : State) (m : Msg) : (placeAhead s m).net = s.net := by unfold placeAhead; split <;> simp
@[simp] theorem placeAhead_can (s : State) (m : Msg) : (placeAhead s m).can = s.can := by unfold placeAhead; split <;> simp
@[simp] theorem placeAhead_xsp (s : State) (m : Msg) : (placeAhead s m).xsp = s.xsp := by unfold placeAhead; split <;> simp
@[simp] theorem placeAhead_nv (s : State) (m : Msg) : (placeAhead s m).nv = s.nv := by unfold placeAhead; split <;> simp
@[simp] theorem placeAhead_otp (s : State) (m : Msg) : (placeAhead s m).otp = s.otp := by unfold placeAhead; split <;> simp
@[simp] theorem placeAhead_boot (s : State) (m : Msg) : (placeAhead s m).boot = s.boot := by unfold placeAhead; split <;> simp
@[simp] theorem placeAhead_par (s : State) (m : Msg) : (placeAhead s m).par = s.par := by unfold placeAhead; split <;> simp
@[simp] theorem placeAhead_inForce (s : State) (m : Msg) : (placeAhead s m).inForce = s.inForce := by unfold placeAhead; split <;> simp
@[simp] theorem placeAhead_pending (s : State) (m : Msg) : (placeAhead s m).pending = s.pending := by unfold placeAhead; split <;> simp

/-! The end of a long operation. -/
@[simp] theorem endLong_clk (s : State) (op : BitVec 16) (h : Hdr) (r d : Nat) (p : List Byte) : (endLong s op h r d p).clk = s.clk := by simp only [endLong]; split <;> simp
@[simp] theorem endLong_sum (s : State) (op : BitVec 16) (h : Hdr) (r d : Nat) (p : List Byte) : (endLong s op h r d p).sum = s.sum := by simp only [endLong]; split <;> simp
@[simp] theorem endLong_pwr (s : State) (op : BitVec 16) (h : Hdr) (r d : Nat) (p : List Byte) : (endLong s op h r d p).pwr = s.pwr := by simp only [endLong]; split <;> simp
@[simp] theorem endLong_sto (s : State) (op : BitVec 16) (h : Hdr) (r d : Nat) (p : List Byte) : (endLong s op h r d p).sto = s.sto := by simp only [endLong]; split <;> simp
@[simp] theorem endLong_scarp (s : State) (op : BitVec 16) (h : Hdr) (r d : Nat) (p : List Byte) : (endLong s op h r d p).scarp = s.scarp := by simp only [endLong]; split <;> simp
@[simp] theorem endLong_axes (s : State) (op : BitVec 16) (h : Hdr) (r d : Nat) (p : List Byte) : (endLong s op h r d p).axes = s.axes := by simp only [endLong]; split <;> simp
@[simp] theorem endLong_conv (s : State) (op : BitVec 16) (h : Hdr) (r d : Nat) (p : List Byte) : (endLong s op h r d p).conv = s.conv := by simp only [endLong]; split <;> simp
@[simp] theorem endLong_ridge (s : State) (op : BitVec 16) (h : Hdr) (r d : Nat) (p : List Byte) : (endLong s op h r d p).ridge = s.ridge := by simp only [endLong]; split <;> simp
@[simp] theorem endLong_bus (s : State) (op : BitVec 16) (h : Hdr) (r d : Nat) (p : List Byte) : (endLong s op h r d p).bus = s.bus := by simp only [endLong]; split <;> simp
@[simp] theorem endLong_flt (s : State) (op : BitVec 16) (h : Hdr) (r d : Nat) (p : List Byte) : (endLong s op h r d p).flt = s.flt := by simp only [endLong]; split <;> simp
@[simp] theorem endLong_th (s : State) (op : BitVec 16) (h : Hdr) (r d : Nat) (p : List Byte) : (endLong s op h r d p).th = s.th := by simp only [endLong]; split <;> simp
@[simp] theorem endLong_cairn (s : State) (op : BitVec 16) (h : Hdr) (r d : Nat) (p : List Byte) : (endLong s op h r d p).cairn = s.cairn := by simp only [endLong]; split <;> simp
@[simp] theorem endLong_net (s : State) (op : BitVec 16) (h : Hdr) (r d : Nat) (p : List Byte) : (endLong s op h r d p).net = s.net := by simp only [endLong]; split <;> simp
@[simp] theorem endLong_can (s : State) (op : BitVec 16) (h : Hdr) (r d : Nat) (p : List Byte) : (endLong s op h r d p).can = s.can := by simp only [endLong]; split <;> simp
@[simp] theorem endLong_xsp (s : State) (op : BitVec 16) (h : Hdr) (r d : Nat) (p : List Byte) : (endLong s op h r d p).xsp = s.xsp := by simp only [endLong]; split <;> simp
@[simp] theorem endLong_nv (s : State) (op : BitVec 16) (h : Hdr) (r d : Nat) (p : List Byte) : (endLong s op h r d p).nv = s.nv := by simp only [endLong]; split <;> simp
@[simp] theorem endLong_otp (s : State) (op : BitVec 16) (h : Hdr) (r d : Nat) (p : List Byte) : (endLong s op h r d p).otp = s.otp := by simp only [endLong]; split <;> simp
@[simp] theorem endLong_boot (s : State) (op : BitVec 16) (h : Hdr) (r d : Nat) (p : List Byte) : (endLong s op h r d p).boot = s.boot := by simp only [endLong]; split <;> simp
@[simp] theorem endLong_par (s : State) (op : BitVec 16) (h : Hdr) (r d : Nat) (p : List Byte) : (endLong s op h r d p).par = s.par := by simp only [endLong]; split <;> simp
@[simp] theorem endLong_inForce (s : State) (op : BitVec 16) (h : Hdr) (r d : Nat) (p : List Byte) : (endLong s op h r d p).inForce = s.inForce := by simp only [endLong]; split <;> simp
@[simp] theorem endLong_pending (s : State) (op : BitVec 16) (h : Hdr) (r d : Nat) (p : List Byte) : (endLong s op h r d p).pending = s.pending := by simp only [endLong]; split <;> simp

/-! A log entry. -/
@[simp] theorem logIt_clk (s : State) (e : LogEntry) : (logIt s e).clk = s.clk := by rfl
@[simp] theorem logIt_sum (s : State) (e : LogEntry) : (logIt s e).sum = s.sum := by rfl
@[simp] theorem logIt_pwr (s : State) (e : LogEntry) : (logIt s e).pwr = s.pwr := by rfl
@[simp] theorem logIt_sto (s : State) (e : LogEntry) : (logIt s e).sto = s.sto := by rfl
@[simp] theorem logIt_scarp (s : State) (e : LogEntry) : (logIt s e).scarp = s.scarp := by rfl
@[simp] theorem logIt_axes (s : State) (e : LogEntry) : (logIt s e).axes = s.axes := by rfl
@[simp] theorem logIt_conv (s : State) (e : LogEntry) : (logIt s e).conv = s.conv := by rfl
@[simp] theorem logIt_ridge (s : State) (e : LogEntry) : (logIt s e).ridge = s.ridge := by rfl
@[simp] theorem logIt_bus (s : State) (e : LogEntry) : (logIt s e).bus = s.bus := by rfl
@[simp] theorem logIt_th (s : State) (e : LogEntry) : (logIt s e).th = s.th := by rfl
@[simp] theorem logIt_cairn (s : State) (e : LogEntry) : (logIt s e).cairn = s.cairn := by rfl
@[simp] theorem logIt_hsp (s : State) (e : LogEntry) : (logIt s e).hsp = s.hsp := by rfl
@[simp] theorem logIt_mbx (s : State) (e : LogEntry) : (logIt s e).mbx = s.mbx := by rfl
@[simp] theorem logIt_net (s : State) (e : LogEntry) : (logIt s e).net = s.net := by rfl
@[simp] theorem logIt_can (s : State) (e : LogEntry) : (logIt s e).can = s.can := by rfl
@[simp] theorem logIt_xsp (s : State) (e : LogEntry) : (logIt s e).xsp = s.xsp := by rfl
@[simp] theorem logIt_otp (s : State) (e : LogEntry) : (logIt s e).otp = s.otp := by rfl
@[simp] theorem logIt_boot (s : State) (e : LogEntry) : (logIt s e).boot = s.boot := by rfl
@[simp] theorem logIt_par (s : State) (e : LogEntry) : (logIt s e).par = s.par := by rfl
@[simp] theorem logIt_inForce (s : State) (e : LogEntry) : (logIt s e).inForce = s.inForce := by rfl
@[simp] theorem logIt_pending (s : State) (e : LogEntry) : (logIt s e).pending = s.pending := by rfl

/-! A logged raise. -/
@[simp] theorem logRaise_clk (s : State) (c : BitVec 16) (sc d : BitVec 8) (v : F32) : (logRaise s c sc d v).clk = s.clk := by simp only [logRaise]; split <;> simp
@[simp] theorem logRaise_sum (s : State) (c : BitVec 16) (sc d : BitVec 8) (v : F32) : (logRaise s c sc d v).sum = s.sum := by simp only [logRaise]; split <;> simp
@[simp] theorem logRaise_pwr (s : State) (c : BitVec 16) (sc d : BitVec 8) (v : F32) : (logRaise s c sc d v).pwr = s.pwr := by simp only [logRaise]; split <;> simp
@[simp] theorem logRaise_sto (s : State) (c : BitVec 16) (sc d : BitVec 8) (v : F32) : (logRaise s c sc d v).sto = s.sto := by simp only [logRaise]; split <;> simp
@[simp] theorem logRaise_scarp (s : State) (c : BitVec 16) (sc d : BitVec 8) (v : F32) : (logRaise s c sc d v).scarp = s.scarp := by simp only [logRaise]; split <;> simp
@[simp] theorem logRaise_axes (s : State) (c : BitVec 16) (sc d : BitVec 8) (v : F32) : (logRaise s c sc d v).axes = s.axes := by simp only [logRaise]; split <;> simp
@[simp] theorem logRaise_conv (s : State) (c : BitVec 16) (sc d : BitVec 8) (v : F32) : (logRaise s c sc d v).conv = s.conv := by simp only [logRaise]; split <;> simp
@[simp] theorem logRaise_ridge (s : State) (c : BitVec 16) (sc d : BitVec 8) (v : F32) : (logRaise s c sc d v).ridge = s.ridge := by simp only [logRaise]; split <;> simp
@[simp] theorem logRaise_bus (s : State) (c : BitVec 16) (sc d : BitVec 8) (v : F32) : (logRaise s c sc d v).bus = s.bus := by simp only [logRaise]; split <;> simp
@[simp] theorem logRaise_th (s : State) (c : BitVec 16) (sc d : BitVec 8) (v : F32) : (logRaise s c sc d v).th = s.th := by simp only [logRaise]; split <;> simp
@[simp] theorem logRaise_cairn (s : State) (c : BitVec 16) (sc d : BitVec 8) (v : F32) : (logRaise s c sc d v).cairn = s.cairn := by simp only [logRaise]; split <;> simp
@[simp] theorem logRaise_hsp (s : State) (c : BitVec 16) (sc d : BitVec 8) (v : F32) : (logRaise s c sc d v).hsp = s.hsp := by simp only [logRaise]; split <;> simp
@[simp] theorem logRaise_mbx (s : State) (c : BitVec 16) (sc d : BitVec 8) (v : F32) : (logRaise s c sc d v).mbx = s.mbx := by simp only [logRaise]; split <;> simp
@[simp] theorem logRaise_net (s : State) (c : BitVec 16) (sc d : BitVec 8) (v : F32) : (logRaise s c sc d v).net = s.net := by simp only [logRaise]; split <;> simp
@[simp] theorem logRaise_can (s : State) (c : BitVec 16) (sc d : BitVec 8) (v : F32) : (logRaise s c sc d v).can = s.can := by simp only [logRaise]; split <;> simp
@[simp] theorem logRaise_xsp (s : State) (c : BitVec 16) (sc d : BitVec 8) (v : F32) : (logRaise s c sc d v).xsp = s.xsp := by simp only [logRaise]; split <;> simp
@[simp] theorem logRaise_otp (s : State) (c : BitVec 16) (sc d : BitVec 8) (v : F32) : (logRaise s c sc d v).otp = s.otp := by simp only [logRaise]; split <;> simp
@[simp] theorem logRaise_boot (s : State) (c : BitVec 16) (sc d : BitVec 8) (v : F32) : (logRaise s c sc d v).boot = s.boot := by simp only [logRaise]; split <;> simp
@[simp] theorem logRaise_par (s : State) (c : BitVec 16) (sc d : BitVec 8) (v : F32) : (logRaise s c sc d v).par = s.par := by simp only [logRaise]; split <;> simp
@[simp] theorem logRaise_inForce (s : State) (c : BitVec 16) (sc d : BitVec 8) (v : F32) : (logRaise s c sc d v).inForce = s.inForce := by simp only [logRaise]; split <;> simp
@[simp] theorem logRaise_pending (s : State) (c : BitVec 16) (sc d : BitVec 8) (v : F32) : (logRaise s c sc d v).pending = s.pending := by simp only [logRaise]; split <;> simp

/-! An entry of the active list. -/
@[simp] theorem enterList_clk (s : State) (c : BitVec 16) (sc d : BitVec 8) (a : Bool) : (enterList s c sc d a).clk = s.clk := by simp only [enterList]; (try split) <;> (try split) <;> (try split) <;> simp
@[simp] theorem enterList_sum (s : State) (c : BitVec 16) (sc d : BitVec 8) (a : Bool) : (enterList s c sc d a).sum = s.sum := by simp only [enterList]; (try split) <;> (try split) <;> (try split) <;> simp
@[simp] theorem enterList_pwr (s : State) (c : BitVec 16) (sc d : BitVec 8) (a : Bool) : (enterList s c sc d a).pwr = s.pwr := by simp only [enterList]; (try split) <;> (try split) <;> (try split) <;> simp
@[simp] theorem enterList_sto (s : State) (c : BitVec 16) (sc d : BitVec 8) (a : Bool) : (enterList s c sc d a).sto = s.sto := by simp only [enterList]; (try split) <;> (try split) <;> (try split) <;> simp
@[simp] theorem enterList_scarp (s : State) (c : BitVec 16) (sc d : BitVec 8) (a : Bool) : (enterList s c sc d a).scarp = s.scarp := by simp only [enterList]; (try split) <;> (try split) <;> (try split) <;> simp
@[simp] theorem enterList_axes (s : State) (c : BitVec 16) (sc d : BitVec 8) (a : Bool) : (enterList s c sc d a).axes = s.axes := by simp only [enterList]; (try split) <;> (try split) <;> (try split) <;> simp
@[simp] theorem enterList_conv (s : State) (c : BitVec 16) (sc d : BitVec 8) (a : Bool) : (enterList s c sc d a).conv = s.conv := by simp only [enterList]; (try split) <;> (try split) <;> (try split) <;> simp
@[simp] theorem enterList_ridge (s : State) (c : BitVec 16) (sc d : BitVec 8) (a : Bool) : (enterList s c sc d a).ridge = s.ridge := by simp only [enterList]; (try split) <;> (try split) <;> (try split) <;> simp
@[simp] theorem enterList_bus (s : State) (c : BitVec 16) (sc d : BitVec 8) (a : Bool) : (enterList s c sc d a).bus = s.bus := by simp only [enterList]; (try split) <;> (try split) <;> (try split) <;> simp
@[simp] theorem enterList_th (s : State) (c : BitVec 16) (sc d : BitVec 8) (a : Bool) : (enterList s c sc d a).th = s.th := by simp only [enterList]; (try split) <;> (try split) <;> (try split) <;> simp
@[simp] theorem enterList_cairn (s : State) (c : BitVec 16) (sc d : BitVec 8) (a : Bool) : (enterList s c sc d a).cairn = s.cairn := by simp only [enterList]; (try split) <;> (try split) <;> (try split) <;> simp
@[simp] theorem enterList_mbx (s : State) (c : BitVec 16) (sc d : BitVec 8) (a : Bool) : (enterList s c sc d a).mbx = s.mbx := by simp only [enterList]; (try split) <;> (try split) <;> (try split) <;> simp
@[simp] theorem enterList_net (s : State) (c : BitVec 16) (sc d : BitVec 8) (a : Bool) : (enterList s c sc d a).net = s.net := by simp only [enterList]; (try split) <;> (try split) <;> (try split) <;> simp
@[simp] theorem enterList_can (s : State) (c : BitVec 16) (sc d : BitVec 8) (a : Bool) : (enterList s c sc d a).can = s.can := by simp only [enterList]; (try split) <;> (try split) <;> (try split) <;> simp
@[simp] theorem enterList_xsp (s : State) (c : BitVec 16) (sc d : BitVec 8) (a : Bool) : (enterList s c sc d a).xsp = s.xsp := by simp only [enterList]; (try split) <;> (try split) <;> (try split) <;> simp
@[simp] theorem enterList_otp (s : State) (c : BitVec 16) (sc d : BitVec 8) (a : Bool) : (enterList s c sc d a).otp = s.otp := by simp only [enterList]; (try split) <;> (try split) <;> (try split) <;> simp
@[simp] theorem enterList_boot (s : State) (c : BitVec 16) (sc d : BitVec 8) (a : Bool) : (enterList s c sc d a).boot = s.boot := by simp only [enterList]; (try split) <;> (try split) <;> (try split) <;> simp
@[simp] theorem enterList_par (s : State) (c : BitVec 16) (sc d : BitVec 8) (a : Bool) : (enterList s c sc d a).par = s.par := by simp only [enterList]; (try split) <;> (try split) <;> (try split) <;> simp
@[simp] theorem enterList_inForce (s : State) (c : BitVec 16) (sc d : BitVec 8) (a : Bool) : (enterList s c sc d a).inForce = s.inForce := by simp only [enterList]; (try split) <;> (try split) <;> (try split) <;> simp
@[simp] theorem enterList_pending (s : State) (c : BitVec 16) (sc d : BitVec 8) (a : Bool) : (enterList s c sc d a).pending = s.pending := by simp only [enterList]; (try split) <;> (try split) <;> (try split) <;> simp

/-! A fault event. -/
@[simp] theorem faultEvent_clk (s : State) (c : BitVec 16) (sc d : BitVec 8) (n : Nat) : (faultEvent s c sc d n).clk = s.clk := by simp only [faultEvent]; split <;> simp
@[simp] theorem faultEvent_sum (s : State) (c : BitVec 16) (sc d : BitVec 8) (n : Nat) : (faultEvent s c sc d n).sum = s.sum := by simp only [faultEvent]; split <;> simp
@[simp] theorem faultEvent_pwr (s : State) (c : BitVec 16) (sc d : BitVec 8) (n : Nat) : (faultEvent s c sc d n).pwr = s.pwr := by simp only [faultEvent]; split <;> simp
@[simp] theorem faultEvent_sto (s : State) (c : BitVec 16) (sc d : BitVec 8) (n : Nat) : (faultEvent s c sc d n).sto = s.sto := by simp only [faultEvent]; split <;> simp
@[simp] theorem faultEvent_scarp (s : State) (c : BitVec 16) (sc d : BitVec 8) (n : Nat) : (faultEvent s c sc d n).scarp = s.scarp := by simp only [faultEvent]; split <;> simp
@[simp] theorem faultEvent_axes (s : State) (c : BitVec 16) (sc d : BitVec 8) (n : Nat) : (faultEvent s c sc d n).axes = s.axes := by simp only [faultEvent]; split <;> simp
@[simp] theorem faultEvent_conv (s : State) (c : BitVec 16) (sc d : BitVec 8) (n : Nat) : (faultEvent s c sc d n).conv = s.conv := by simp only [faultEvent]; split <;> simp
@[simp] theorem faultEvent_ridge (s : State) (c : BitVec 16) (sc d : BitVec 8) (n : Nat) : (faultEvent s c sc d n).ridge = s.ridge := by simp only [faultEvent]; split <;> simp
@[simp] theorem faultEvent_bus (s : State) (c : BitVec 16) (sc d : BitVec 8) (n : Nat) : (faultEvent s c sc d n).bus = s.bus := by simp only [faultEvent]; split <;> simp
@[simp] theorem faultEvent_flt (s : State) (c : BitVec 16) (sc d : BitVec 8) (n : Nat) : (faultEvent s c sc d n).flt = s.flt := by simp only [faultEvent]; split <;> simp
@[simp] theorem faultEvent_th (s : State) (c : BitVec 16) (sc d : BitVec 8) (n : Nat) : (faultEvent s c sc d n).th = s.th := by simp only [faultEvent]; split <;> simp
@[simp] theorem faultEvent_cairn (s : State) (c : BitVec 16) (sc d : BitVec 8) (n : Nat) : (faultEvent s c sc d n).cairn = s.cairn := by simp only [faultEvent]; split <;> simp
@[simp] theorem faultEvent_net (s : State) (c : BitVec 16) (sc d : BitVec 8) (n : Nat) : (faultEvent s c sc d n).net = s.net := by simp only [faultEvent]; split <;> simp
@[simp] theorem faultEvent_can (s : State) (c : BitVec 16) (sc d : BitVec 8) (n : Nat) : (faultEvent s c sc d n).can = s.can := by simp only [faultEvent]; split <;> simp
@[simp] theorem faultEvent_xsp (s : State) (c : BitVec 16) (sc d : BitVec 8) (n : Nat) : (faultEvent s c sc d n).xsp = s.xsp := by simp only [faultEvent]; split <;> simp
@[simp] theorem faultEvent_nv (s : State) (c : BitVec 16) (sc d : BitVec 8) (n : Nat) : (faultEvent s c sc d n).nv = s.nv := by simp only [faultEvent]; split <;> simp
@[simp] theorem faultEvent_otp (s : State) (c : BitVec 16) (sc d : BitVec 8) (n : Nat) : (faultEvent s c sc d n).otp = s.otp := by simp only [faultEvent]; split <;> simp
@[simp] theorem faultEvent_boot (s : State) (c : BitVec 16) (sc d : BitVec 8) (n : Nat) : (faultEvent s c sc d n).boot = s.boot := by simp only [faultEvent]; split <;> simp
@[simp] theorem faultEvent_par (s : State) (c : BitVec 16) (sc d : BitVec 8) (n : Nat) : (faultEvent s c sc d n).par = s.par := by simp only [faultEvent]; split <;> simp
@[simp] theorem faultEvent_inForce (s : State) (c : BitVec 16) (sc d : BitVec 8) (n : Nat) : (faultEvent s c sc d n).inForce = s.inForce := by simp only [faultEvent]; split <;> simp
@[simp] theorem faultEvent_pending (s : State) (c : BitVec 16) (sc d : BitVec 8) (n : Nat) : (faultEvent s c sc d n).pending = s.pending := by simp only [faultEvent]; split <;> simp

/-! A CAN frame. -/
@[simp] theorem canSend_clk (s : State) (id : Nat) (p : List Byte) : (canSend s id p).clk = s.clk := by rfl
@[simp] theorem canSend_sum (s : State) (id : Nat) (p : List Byte) : (canSend s id p).sum = s.sum := by rfl
@[simp] theorem canSend_pwr (s : State) (id : Nat) (p : List Byte) : (canSend s id p).pwr = s.pwr := by rfl
@[simp] theorem canSend_sto (s : State) (id : Nat) (p : List Byte) : (canSend s id p).sto = s.sto := by rfl
@[simp] theorem canSend_scarp (s : State) (id : Nat) (p : List Byte) : (canSend s id p).scarp = s.scarp := by rfl
@[simp] theorem canSend_axes (s : State) (id : Nat) (p : List Byte) : (canSend s id p).axes = s.axes := by rfl
@[simp] theorem canSend_conv (s : State) (id : Nat) (p : List Byte) : (canSend s id p).conv = s.conv := by rfl
@[simp] theorem canSend_ridge (s : State) (id : Nat) (p : List Byte) : (canSend s id p).ridge = s.ridge := by rfl
@[simp] theorem canSend_bus (s : State) (id : Nat) (p : List Byte) : (canSend s id p).bus = s.bus := by rfl
@[simp] theorem canSend_flt (s : State) (id : Nat) (p : List Byte) : (canSend s id p).flt = s.flt := by rfl
@[simp] theorem canSend_th (s : State) (id : Nat) (p : List Byte) : (canSend s id p).th = s.th := by rfl
@[simp] theorem canSend_cairn (s : State) (id : Nat) (p : List Byte) : (canSend s id p).cairn = s.cairn := by rfl
@[simp] theorem canSend_hsp (s : State) (id : Nat) (p : List Byte) : (canSend s id p).hsp = s.hsp := by rfl
@[simp] theorem canSend_mbx (s : State) (id : Nat) (p : List Byte) : (canSend s id p).mbx = s.mbx := by rfl
@[simp] theorem canSend_net (s : State) (id : Nat) (p : List Byte) : (canSend s id p).net = s.net := by rfl
@[simp] theorem canSend_xsp (s : State) (id : Nat) (p : List Byte) : (canSend s id p).xsp = s.xsp := by rfl
@[simp] theorem canSend_nv (s : State) (id : Nat) (p : List Byte) : (canSend s id p).nv = s.nv := by rfl
@[simp] theorem canSend_otp (s : State) (id : Nat) (p : List Byte) : (canSend s id p).otp = s.otp := by rfl
@[simp] theorem canSend_boot (s : State) (id : Nat) (p : List Byte) : (canSend s id p).boot = s.boot := by rfl
@[simp] theorem canSend_par (s : State) (id : Nat) (p : List Byte) : (canSend s id p).par = s.par := by rfl
@[simp] theorem canSend_inForce (s : State) (id : Nat) (p : List Byte) : (canSend s id p).inForce = s.inForce := by rfl
@[simp] theorem canSend_pending (s : State) (id : Nat) (p : List Byte) : (canSend s id p).pending = s.pending := by rfl

/-! An EMCY. -/
@[simp] theorem sendEmcy_clk (s : State) (c : BitVec 16) (sc d : BitVec 8) : (sendEmcy s c sc d).clk = s.clk := by simp only [sendEmcy]; split <;> simp
@[simp] theorem sendEmcy_sum (s : State) (c : BitVec 16) (sc d : BitVec 8) : (sendEmcy s c sc d).sum = s.sum := by simp only [sendEmcy]; split <;> simp
@[simp] theorem sendEmcy_pwr (s : State) (c : BitVec 16) (sc d : BitVec 8) : (sendEmcy s c sc d).pwr = s.pwr := by simp only [sendEmcy]; split <;> simp
@[simp] theorem sendEmcy_sto (s : State) (c : BitVec 16) (sc d : BitVec 8) : (sendEmcy s c sc d).sto = s.sto := by simp only [sendEmcy]; split <;> simp
@[simp] theorem sendEmcy_scarp (s : State) (c : BitVec 16) (sc d : BitVec 8) : (sendEmcy s c sc d).scarp = s.scarp := by simp only [sendEmcy]; split <;> simp
@[simp] theorem sendEmcy_axes (s : State) (c : BitVec 16) (sc d : BitVec 8) : (sendEmcy s c sc d).axes = s.axes := by simp only [sendEmcy]; split <;> simp
@[simp] theorem sendEmcy_conv (s : State) (c : BitVec 16) (sc d : BitVec 8) : (sendEmcy s c sc d).conv = s.conv := by simp only [sendEmcy]; split <;> simp
@[simp] theorem sendEmcy_ridge (s : State) (c : BitVec 16) (sc d : BitVec 8) : (sendEmcy s c sc d).ridge = s.ridge := by simp only [sendEmcy]; split <;> simp
@[simp] theorem sendEmcy_bus (s : State) (c : BitVec 16) (sc d : BitVec 8) : (sendEmcy s c sc d).bus = s.bus := by simp only [sendEmcy]; split <;> simp
@[simp] theorem sendEmcy_flt (s : State) (c : BitVec 16) (sc d : BitVec 8) : (sendEmcy s c sc d).flt = s.flt := by simp only [sendEmcy]; split <;> simp
@[simp] theorem sendEmcy_th (s : State) (c : BitVec 16) (sc d : BitVec 8) : (sendEmcy s c sc d).th = s.th := by simp only [sendEmcy]; split <;> simp
@[simp] theorem sendEmcy_cairn (s : State) (c : BitVec 16) (sc d : BitVec 8) : (sendEmcy s c sc d).cairn = s.cairn := by simp only [sendEmcy]; split <;> simp
@[simp] theorem sendEmcy_hsp (s : State) (c : BitVec 16) (sc d : BitVec 8) : (sendEmcy s c sc d).hsp = s.hsp := by simp only [sendEmcy]; split <;> simp
@[simp] theorem sendEmcy_mbx (s : State) (c : BitVec 16) (sc d : BitVec 8) : (sendEmcy s c sc d).mbx = s.mbx := by simp only [sendEmcy]; split <;> simp
@[simp] theorem sendEmcy_net (s : State) (c : BitVec 16) (sc d : BitVec 8) : (sendEmcy s c sc d).net = s.net := by simp only [sendEmcy]; split <;> simp
@[simp] theorem sendEmcy_xsp (s : State) (c : BitVec 16) (sc d : BitVec 8) : (sendEmcy s c sc d).xsp = s.xsp := by simp only [sendEmcy]; split <;> simp
@[simp] theorem sendEmcy_nv (s : State) (c : BitVec 16) (sc d : BitVec 8) : (sendEmcy s c sc d).nv = s.nv := by simp only [sendEmcy]; split <;> simp
@[simp] theorem sendEmcy_otp (s : State) (c : BitVec 16) (sc d : BitVec 8) : (sendEmcy s c sc d).otp = s.otp := by simp only [sendEmcy]; split <;> simp
@[simp] theorem sendEmcy_boot (s : State) (c : BitVec 16) (sc d : BitVec 8) : (sendEmcy s c sc d).boot = s.boot := by simp only [sendEmcy]; split <;> simp
@[simp] theorem sendEmcy_par (s : State) (c : BitVec 16) (sc d : BitVec 8) : (sendEmcy s c sc d).par = s.par := by simp only [sendEmcy]; split <;> simp
@[simp] theorem sendEmcy_inForce (s : State) (c : BitVec 16) (sc d : BitVec 8) : (sendEmcy s c sc d).inForce = s.inForce := by simp only [sendEmcy]; split <;> simp
@[simp] theorem sendEmcy_pending (s : State) (c : BitVec 16) (sc d : BitVec 8) : (sendEmcy s c sc d).pending = s.pending := by simp only [sendEmcy]; split <;> simp

/-! The FAULT_N pulse of a raise. -/
@[simp] theorem pulseRaise_clk (s : State) (c : BitVec 16) (w : Bool) : (pulseRaise s c w).clk = s.clk := by simp only [pulseRaise]; (try split) <;> (try split) <;> (try split) <;> rfl
@[simp] theorem pulseRaise_sum (s : State) (c : BitVec 16) (w : Bool) : (pulseRaise s c w).sum = s.sum := by simp only [pulseRaise]; (try split) <;> (try split) <;> (try split) <;> rfl
@[simp] theorem pulseRaise_pwr (s : State) (c : BitVec 16) (w : Bool) : (pulseRaise s c w).pwr = s.pwr := by simp only [pulseRaise]; (try split) <;> (try split) <;> (try split) <;> rfl
@[simp] theorem pulseRaise_sto (s : State) (c : BitVec 16) (w : Bool) : (pulseRaise s c w).sto = s.sto := by simp only [pulseRaise]; (try split) <;> (try split) <;> (try split) <;> rfl
@[simp] theorem pulseRaise_scarp (s : State) (c : BitVec 16) (w : Bool) : (pulseRaise s c w).scarp = s.scarp := by simp only [pulseRaise]; (try split) <;> (try split) <;> (try split) <;> rfl
@[simp] theorem pulseRaise_axes (s : State) (c : BitVec 16) (w : Bool) : (pulseRaise s c w).axes = s.axes := by simp only [pulseRaise]; (try split) <;> (try split) <;> (try split) <;> rfl
@[simp] theorem pulseRaise_conv (s : State) (c : BitVec 16) (w : Bool) : (pulseRaise s c w).conv = s.conv := by simp only [pulseRaise]; (try split) <;> (try split) <;> (try split) <;> rfl
@[simp] theorem pulseRaise_ridge (s : State) (c : BitVec 16) (w : Bool) : (pulseRaise s c w).ridge = s.ridge := by simp only [pulseRaise]; (try split) <;> (try split) <;> (try split) <;> rfl
@[simp] theorem pulseRaise_bus (s : State) (c : BitVec 16) (w : Bool) : (pulseRaise s c w).bus = s.bus := by simp only [pulseRaise]; (try split) <;> (try split) <;> (try split) <;> rfl
@[simp] theorem pulseRaise_th (s : State) (c : BitVec 16) (w : Bool) : (pulseRaise s c w).th = s.th := by simp only [pulseRaise]; (try split) <;> (try split) <;> (try split) <;> rfl
@[simp] theorem pulseRaise_cairn (s : State) (c : BitVec 16) (w : Bool) : (pulseRaise s c w).cairn = s.cairn := by simp only [pulseRaise]; (try split) <;> (try split) <;> (try split) <;> rfl
@[simp] theorem pulseRaise_hsp (s : State) (c : BitVec 16) (w : Bool) : (pulseRaise s c w).hsp = s.hsp := by simp only [pulseRaise]; (try split) <;> (try split) <;> (try split) <;> rfl
@[simp] theorem pulseRaise_mbx (s : State) (c : BitVec 16) (w : Bool) : (pulseRaise s c w).mbx = s.mbx := by simp only [pulseRaise]; (try split) <;> (try split) <;> (try split) <;> rfl
@[simp] theorem pulseRaise_net (s : State) (c : BitVec 16) (w : Bool) : (pulseRaise s c w).net = s.net := by simp only [pulseRaise]; (try split) <;> (try split) <;> (try split) <;> rfl
@[simp] theorem pulseRaise_can (s : State) (c : BitVec 16) (w : Bool) : (pulseRaise s c w).can = s.can := by simp only [pulseRaise]; (try split) <;> (try split) <;> (try split) <;> rfl
@[simp] theorem pulseRaise_xsp (s : State) (c : BitVec 16) (w : Bool) : (pulseRaise s c w).xsp = s.xsp := by simp only [pulseRaise]; (try split) <;> (try split) <;> (try split) <;> rfl
@[simp] theorem pulseRaise_nv (s : State) (c : BitVec 16) (w : Bool) : (pulseRaise s c w).nv = s.nv := by simp only [pulseRaise]; (try split) <;> (try split) <;> (try split) <;> rfl
@[simp] theorem pulseRaise_otp (s : State) (c : BitVec 16) (w : Bool) : (pulseRaise s c w).otp = s.otp := by simp only [pulseRaise]; (try split) <;> (try split) <;> (try split) <;> rfl
@[simp] theorem pulseRaise_boot (s : State) (c : BitVec 16) (w : Bool) : (pulseRaise s c w).boot = s.boot := by simp only [pulseRaise]; (try split) <;> (try split) <;> (try split) <;> rfl
@[simp] theorem pulseRaise_par (s : State) (c : BitVec 16) (w : Bool) : (pulseRaise s c w).par = s.par := by simp only [pulseRaise]; (try split) <;> (try split) <;> (try split) <;> rfl
@[simp] theorem pulseRaise_inForce (s : State) (c : BitVec 16) (w : Bool) : (pulseRaise s c w).inForce = s.inForce := by simp only [pulseRaise]; (try split) <;> (try split) <;> (try split) <;> rfl
@[simp] theorem pulseRaise_pending (s : State) (c : BitVec 16) (w : Bool) : (pulseRaise s c w).pending = s.pending := by simp only [pulseRaise]; (try split) <;> (try split) <;> (try split) <;> rfl

/-! A recorded raise. -/
@[simp] theorem record_clk (s : State) (c : BitVec 16) (sc d : BitVec 8) (v : F32) (a : Bool) : (record s c sc d v a).clk = s.clk := by simp only [record]; split <;> simp
@[simp] theorem record_sum (s : State) (c : BitVec 16) (sc d : BitVec 8) (v : F32) (a : Bool) : (record s c sc d v a).sum = s.sum := by simp only [record]; split <;> simp
@[simp] theorem record_pwr (s : State) (c : BitVec 16) (sc d : BitVec 8) (v : F32) (a : Bool) : (record s c sc d v a).pwr = s.pwr := by simp only [record]; split <;> simp
@[simp] theorem record_sto (s : State) (c : BitVec 16) (sc d : BitVec 8) (v : F32) (a : Bool) : (record s c sc d v a).sto = s.sto := by simp only [record]; split <;> simp
@[simp] theorem record_scarp (s : State) (c : BitVec 16) (sc d : BitVec 8) (v : F32) (a : Bool) : (record s c sc d v a).scarp = s.scarp := by simp only [record]; split <;> simp
@[simp] theorem record_axes (s : State) (c : BitVec 16) (sc d : BitVec 8) (v : F32) (a : Bool) : (record s c sc d v a).axes = s.axes := by simp only [record]; split <;> simp
@[simp] theorem record_conv (s : State) (c : BitVec 16) (sc d : BitVec 8) (v : F32) (a : Bool) : (record s c sc d v a).conv = s.conv := by simp only [record]; split <;> simp
@[simp] theorem record_ridge (s : State) (c : BitVec 16) (sc d : BitVec 8) (v : F32) (a : Bool) : (record s c sc d v a).ridge = s.ridge := by simp only [record]; split <;> simp
@[simp] theorem record_bus (s : State) (c : BitVec 16) (sc d : BitVec 8) (v : F32) (a : Bool) : (record s c sc d v a).bus = s.bus := by simp only [record]; split <;> simp
@[simp] theorem record_th (s : State) (c : BitVec 16) (sc d : BitVec 8) (v : F32) (a : Bool) : (record s c sc d v a).th = s.th := by simp only [record]; split <;> simp
@[simp] theorem record_cairn (s : State) (c : BitVec 16) (sc d : BitVec 8) (v : F32) (a : Bool) : (record s c sc d v a).cairn = s.cairn := by simp only [record]; split <;> simp
@[simp] theorem record_net (s : State) (c : BitVec 16) (sc d : BitVec 8) (v : F32) (a : Bool) : (record s c sc d v a).net = s.net := by simp only [record]; split <;> simp
@[simp] theorem record_xsp (s : State) (c : BitVec 16) (sc d : BitVec 8) (v : F32) (a : Bool) : (record s c sc d v a).xsp = s.xsp := by simp only [record]; split <;> simp
@[simp] theorem record_otp (s : State) (c : BitVec 16) (sc d : BitVec 8) (v : F32) (a : Bool) : (record s c sc d v a).otp = s.otp := by simp only [record]; split <;> simp
@[simp] theorem record_boot (s : State) (c : BitVec 16) (sc d : BitVec 8) (v : F32) (a : Bool) : (record s c sc d v a).boot = s.boot := by simp only [record]; split <;> simp
@[simp] theorem record_par (s : State) (c : BitVec 16) (sc d : BitVec 8) (v : F32) (a : Bool) : (record s c sc d v a).par = s.par := by simp only [record]; split <;> simp
@[simp] theorem record_inForce (s : State) (c : BitVec 16) (sc d : BitVec 8) (v : F32) (a : Bool) : (record s c sc d v a).inForce = s.inForce := by simp only [record]; split <;> simp
@[simp] theorem record_pending (s : State) (c : BitVec 16) (sc d : BitVec 8) (v : F32) (a : Bool) : (record s c sc d v a).pending = s.pending := by simp only [record]; split <;> simp

/-! An entry that leaves the list. -/
@[simp] theorem leaveList_clk (s : State) (e : FaultEntry) (n : Nat) : (leaveList s e n).clk = s.clk := by simp [leaveList]
@[simp] theorem leaveList_sum (s : State) (e : FaultEntry) (n : Nat) : (leaveList s e n).sum = s.sum := by simp [leaveList]
@[simp] theorem leaveList_pwr (s : State) (e : FaultEntry) (n : Nat) : (leaveList s e n).pwr = s.pwr := by simp [leaveList]
@[simp] theorem leaveList_sto (s : State) (e : FaultEntry) (n : Nat) : (leaveList s e n).sto = s.sto := by simp [leaveList]
@[simp] theorem leaveList_scarp (s : State) (e : FaultEntry) (n : Nat) : (leaveList s e n).scarp = s.scarp := by simp [leaveList]
@[simp] theorem leaveList_axes (s : State) (e : FaultEntry) (n : Nat) : (leaveList s e n).axes = s.axes := by simp [leaveList]
@[simp] theorem leaveList_conv (s : State) (e : FaultEntry) (n : Nat) : (leaveList s e n).conv = s.conv := by simp [leaveList]
@[simp] theorem leaveList_ridge (s : State) (e : FaultEntry) (n : Nat) : (leaveList s e n).ridge = s.ridge := by simp [leaveList]
@[simp] theorem leaveList_bus (s : State) (e : FaultEntry) (n : Nat) : (leaveList s e n).bus = s.bus := by simp [leaveList]
@[simp] theorem leaveList_th (s : State) (e : FaultEntry) (n : Nat) : (leaveList s e n).th = s.th := by simp [leaveList]
@[simp] theorem leaveList_cairn (s : State) (e : FaultEntry) (n : Nat) : (leaveList s e n).cairn = s.cairn := by simp [leaveList]
@[simp] theorem leaveList_net (s : State) (e : FaultEntry) (n : Nat) : (leaveList s e n).net = s.net := by simp [leaveList]
@[simp] theorem leaveList_can (s : State) (e : FaultEntry) (n : Nat) : (leaveList s e n).can = s.can := by simp [leaveList]
@[simp] theorem leaveList_xsp (s : State) (e : FaultEntry) (n : Nat) : (leaveList s e n).xsp = s.xsp := by simp [leaveList]
@[simp] theorem leaveList_otp (s : State) (e : FaultEntry) (n : Nat) : (leaveList s e n).otp = s.otp := by simp [leaveList]
@[simp] theorem leaveList_boot (s : State) (e : FaultEntry) (n : Nat) : (leaveList s e n).boot = s.boot := by simp [leaveList]
@[simp] theorem leaveList_par (s : State) (e : FaultEntry) (n : Nat) : (leaveList s e n).par = s.par := by simp [leaveList]
@[simp] theorem leaveList_inForce (s : State) (e : FaultEntry) (n : Nat) : (leaveList s e n).inForce = s.inForce := by simp [leaveList]
@[simp] theorem leaveList_pending (s : State) (e : FaultEntry) (n : Nat) : (leaveList s e n).pending = s.pending := by simp [leaveList]

/-! A cause that ends. -/
@[simp] theorem endCause_clk (s : State) (c : BitVec 16) (sc d : BitVec 8) : (endCause s c sc d).clk = s.clk := by simp only [endCause]; (try split) <;> (try split) <;> (try split) <;> simp
@[simp] theorem endCause_sum (s : State) (c : BitVec 16) (sc d : BitVec 8) : (endCause s c sc d).sum = s.sum := by simp only [endCause]; (try split) <;> (try split) <;> (try split) <;> simp
@[simp] theorem endCause_pwr (s : State) (c : BitVec 16) (sc d : BitVec 8) : (endCause s c sc d).pwr = s.pwr := by simp only [endCause]; (try split) <;> (try split) <;> (try split) <;> simp
@[simp] theorem endCause_sto (s : State) (c : BitVec 16) (sc d : BitVec 8) : (endCause s c sc d).sto = s.sto := by simp only [endCause]; (try split) <;> (try split) <;> (try split) <;> simp
@[simp] theorem endCause_scarp (s : State) (c : BitVec 16) (sc d : BitVec 8) : (endCause s c sc d).scarp = s.scarp := by simp only [endCause]; (try split) <;> (try split) <;> (try split) <;> simp
@[simp] theorem endCause_axes (s : State) (c : BitVec 16) (sc d : BitVec 8) : (endCause s c sc d).axes = s.axes := by simp only [endCause]; (try split) <;> (try split) <;> (try split) <;> simp
@[simp] theorem endCause_conv (s : State) (c : BitVec 16) (sc d : BitVec 8) : (endCause s c sc d).conv = s.conv := by simp only [endCause]; (try split) <;> (try split) <;> (try split) <;> simp
@[simp] theorem endCause_ridge (s : State) (c : BitVec 16) (sc d : BitVec 8) : (endCause s c sc d).ridge = s.ridge := by simp only [endCause]; (try split) <;> (try split) <;> (try split) <;> simp
@[simp] theorem endCause_bus (s : State) (c : BitVec 16) (sc d : BitVec 8) : (endCause s c sc d).bus = s.bus := by simp only [endCause]; (try split) <;> (try split) <;> (try split) <;> simp
@[simp] theorem endCause_th (s : State) (c : BitVec 16) (sc d : BitVec 8) : (endCause s c sc d).th = s.th := by simp only [endCause]; (try split) <;> (try split) <;> (try split) <;> simp
@[simp] theorem endCause_cairn (s : State) (c : BitVec 16) (sc d : BitVec 8) : (endCause s c sc d).cairn = s.cairn := by simp only [endCause]; (try split) <;> (try split) <;> (try split) <;> simp
@[simp] theorem endCause_net (s : State) (c : BitVec 16) (sc d : BitVec 8) : (endCause s c sc d).net = s.net := by simp only [endCause]; (try split) <;> (try split) <;> (try split) <;> simp
@[simp] theorem endCause_can (s : State) (c : BitVec 16) (sc d : BitVec 8) : (endCause s c sc d).can = s.can := by simp only [endCause]; (try split) <;> (try split) <;> (try split) <;> simp
@[simp] theorem endCause_xsp (s : State) (c : BitVec 16) (sc d : BitVec 8) : (endCause s c sc d).xsp = s.xsp := by simp only [endCause]; (try split) <;> (try split) <;> (try split) <;> simp
@[simp] theorem endCause_otp (s : State) (c : BitVec 16) (sc d : BitVec 8) : (endCause s c sc d).otp = s.otp := by simp only [endCause]; (try split) <;> (try split) <;> (try split) <;> simp
@[simp] theorem endCause_boot (s : State) (c : BitVec 16) (sc d : BitVec 8) : (endCause s c sc d).boot = s.boot := by simp only [endCause]; (try split) <;> (try split) <;> (try split) <;> simp
@[simp] theorem endCause_par (s : State) (c : BitVec 16) (sc d : BitVec 8) : (endCause s c sc d).par = s.par := by simp only [endCause]; (try split) <;> (try split) <;> (try split) <;> simp
@[simp] theorem endCause_inForce (s : State) (c : BitVec 16) (sc d : BitVec 8) : (endCause s c sc d).inForce = s.inForce := by simp only [endCause]; (try split) <;> (try split) <;> (try split) <;> simp
@[simp] theorem endCause_pending (s : State) (c : BitVec 16) (sc d : BitVec 8) : (endCause s c sc d).pending = s.pending := by simp only [endCause]; (try split) <;> (try split) <;> (try split) <;> simp

/-! A raise of a class other than STOP is its record alone (12 Table 12.5). -/
theorem raise_record (s : State) (c : BitVec 16) (sc d : BitVec 8) (v : F32) (a : Bool) (h : codeClass c ≠ 4) :
    raise s c sc d v a = record s c sc d v a := by
  simp [raise, h]
theorem raise0_record (s : State) (c : BitVec 16) (sc d : BitVec 8) (h : codeClass c ≠ 4) :
    raise0 s c sc d = record s c sc d fnan false := raise_record s c sc d fnan false h
theorem raise1_record (s : State) (c : BitVec 16) (sc d : BitVec 8) (h : codeClass c ≠ 4) :
    raise1 s c sc d = record s c sc d fnan true := raise_record s c sc d fnan true h


/-! The gates of a measurement that is abandoned. -/
@[simp] theorem dropMotor_clk (s : State) (x : Axis) : (dropMotor s x).clk = s.clk := by simp only [dropMotor]; (try split) <;> (try split) <;> first | rfl | simp
@[simp] theorem dropMotor_sum (s : State) (x : Axis) : (dropMotor s x).sum = s.sum := by simp only [dropMotor]; (try split) <;> (try split) <;> first | rfl | simp
@[simp] theorem dropMotor_pwr (s : State) (x : Axis) : (dropMotor s x).pwr = s.pwr := by simp only [dropMotor]; (try split) <;> (try split) <;> first | rfl | simp
@[simp] theorem dropMotor_sto (s : State) (x : Axis) : (dropMotor s x).sto = s.sto := by simp only [dropMotor]; (try split) <;> (try split) <;> first | rfl | simp
@[simp] theorem dropMotor_scarp (s : State) (x : Axis) : (dropMotor s x).scarp = s.scarp := by simp only [dropMotor]; (try split) <;> (try split) <;> first | rfl | simp
@[simp] theorem dropMotor_conv (s : State) (x : Axis) : (dropMotor s x).conv = s.conv := by simp only [dropMotor]; (try split) <;> (try split) <;> first | rfl | simp
@[simp] theorem dropMotor_ridge (s : State) (x : Axis) : (dropMotor s x).ridge = s.ridge := by simp only [dropMotor]; (try split) <;> (try split) <;> first | rfl | simp
@[simp] theorem dropMotor_bus (s : State) (x : Axis) : (dropMotor s x).bus = s.bus := by simp only [dropMotor]; (try split) <;> (try split) <;> first | rfl | simp
@[simp] theorem dropMotor_flt (s : State) (x : Axis) : (dropMotor s x).flt = s.flt := by simp only [dropMotor]; (try split) <;> (try split) <;> first | rfl | simp
@[simp] theorem dropMotor_th (s : State) (x : Axis) : (dropMotor s x).th = s.th := by simp only [dropMotor]; (try split) <;> (try split) <;> first | rfl | simp
@[simp] theorem dropMotor_cairn (s : State) (x : Axis) : (dropMotor s x).cairn = s.cairn := by simp only [dropMotor]; (try split) <;> (try split) <;> first | rfl | simp
@[simp] theorem dropMotor_hsp (s : State) (x : Axis) : (dropMotor s x).hsp = s.hsp := by simp only [dropMotor]; (try split) <;> (try split) <;> first | rfl | simp
@[simp] theorem dropMotor_mbx (s : State) (x : Axis) : (dropMotor s x).mbx = s.mbx := by simp only [dropMotor]; (try split) <;> (try split) <;> first | rfl | simp
@[simp] theorem dropMotor_net (s : State) (x : Axis) : (dropMotor s x).net = s.net := by simp only [dropMotor]; (try split) <;> (try split) <;> first | rfl | simp
@[simp] theorem dropMotor_can (s : State) (x : Axis) : (dropMotor s x).can = s.can := by simp only [dropMotor]; (try split) <;> (try split) <;> first | rfl | simp
@[simp] theorem dropMotor_xsp (s : State) (x : Axis) : (dropMotor s x).xsp = s.xsp := by simp only [dropMotor]; (try split) <;> (try split) <;> first | rfl | simp
@[simp] theorem dropMotor_nv (s : State) (x : Axis) : (dropMotor s x).nv = s.nv := by simp only [dropMotor]; (try split) <;> (try split) <;> first | rfl | simp
@[simp] theorem dropMotor_otp (s : State) (x : Axis) : (dropMotor s x).otp = s.otp := by simp only [dropMotor]; (try split) <;> (try split) <;> first | rfl | simp
@[simp] theorem dropMotor_boot (s : State) (x : Axis) : (dropMotor s x).boot = s.boot := by simp only [dropMotor]; (try split) <;> (try split) <;> first | rfl | simp
@[simp] theorem dropMotor_par (s : State) (x : Axis) : (dropMotor s x).par = s.par := by simp only [dropMotor]; (try split) <;> (try split) <;> first | rfl | simp
@[simp] theorem dropMotor_inForce (s : State) (x : Axis) : (dropMotor s x).inForce = s.inForce := by simp only [dropMotor]; (try split) <;> (try split) <;> first | rfl | simp
@[simp] theorem dropMotor_pending (s : State) (x : Axis) : (dropMotor s x).pending = s.pending := by simp only [dropMotor]; (try split) <;> (try split) <;> first | rfl | simp

/-! The end of a measurement that is abandoned. -/
@[simp] theorem endMotor_clk (s : State) (x : Axis) : (endMotor s x).clk = s.clk := by simp only [endMotor]; (try split) <;> (try split) <;> first | rfl | simp
@[simp] theorem endMotor_sum (s : State) (x : Axis) : (endMotor s x).sum = s.sum := by simp only [endMotor]; (try split) <;> (try split) <;> first | rfl | simp
@[simp] theorem endMotor_pwr (s : State) (x : Axis) : (endMotor s x).pwr = s.pwr := by simp only [endMotor]; (try split) <;> (try split) <;> first | rfl | simp
@[simp] theorem endMotor_sto (s : State) (x : Axis) : (endMotor s x).sto = s.sto := by simp only [endMotor]; (try split) <;> (try split) <;> first | rfl | simp
@[simp] theorem endMotor_scarp (s : State) (x : Axis) : (endMotor s x).scarp = s.scarp := by simp only [endMotor]; (try split) <;> (try split) <;> first | rfl | simp
@[simp] theorem endMotor_conv (s : State) (x : Axis) : (endMotor s x).conv = s.conv := by simp only [endMotor]; (try split) <;> (try split) <;> first | rfl | simp
@[simp] theorem endMotor_ridge (s : State) (x : Axis) : (endMotor s x).ridge = s.ridge := by simp only [endMotor]; (try split) <;> (try split) <;> first | rfl | simp
@[simp] theorem endMotor_bus (s : State) (x : Axis) : (endMotor s x).bus = s.bus := by simp only [endMotor]; (try split) <;> (try split) <;> first | rfl | simp
@[simp] theorem endMotor_th (s : State) (x : Axis) : (endMotor s x).th = s.th := by simp only [endMotor]; (try split) <;> (try split) <;> first | rfl | simp
@[simp] theorem endMotor_cairn (s : State) (x : Axis) : (endMotor s x).cairn = s.cairn := by simp only [endMotor]; (try split) <;> (try split) <;> first | rfl | simp
@[simp] theorem endMotor_net (s : State) (x : Axis) : (endMotor s x).net = s.net := by simp only [endMotor]; (try split) <;> (try split) <;> first | rfl | simp
@[simp] theorem endMotor_xsp (s : State) (x : Axis) : (endMotor s x).xsp = s.xsp := by simp only [endMotor]; (try split) <;> (try split) <;> first | rfl | simp
@[simp] theorem endMotor_otp (s : State) (x : Axis) : (endMotor s x).otp = s.otp := by simp only [endMotor]; (try split) <;> (try split) <;> first | rfl | simp
@[simp] theorem endMotor_boot (s : State) (x : Axis) : (endMotor s x).boot = s.boot := by simp only [endMotor]; (try split) <;> (try split) <;> first | rfl | simp
@[simp] theorem endMotor_par (s : State) (x : Axis) : (endMotor s x).par = s.par := by simp only [endMotor]; (try split) <;> (try split) <;> first | rfl | simp
@[simp] theorem endMotor_inForce (s : State) (x : Axis) : (endMotor s x).inForce = s.inForce := by simp only [endMotor]; (try split) <;> (try split) <;> first | rfl | simp
@[simp] theorem endMotor_pending (s : State) (x : Axis) : (endMotor s x).pending = s.pending := by simp only [endMotor]; (try split) <;> (try split) <;> first | rfl | simp

/-! A measurement that is abandoned. -/
@[simp] theorem abandonMotor_clk (s : State) (x : Axis) : (abandonMotor s x).clk = s.clk := by simp [abandonMotor]
@[simp] theorem abandonMotor_sum (s : State) (x : Axis) : (abandonMotor s x).sum = s.sum := by simp [abandonMotor]
@[simp] theorem abandonMotor_pwr (s : State) (x : Axis) : (abandonMotor s x).pwr = s.pwr := by simp [abandonMotor]
@[simp] theorem abandonMotor_sto (s : State) (x : Axis) : (abandonMotor s x).sto = s.sto := by simp [abandonMotor]
@[simp] theorem abandonMotor_scarp (s : State) (x : Axis) : (abandonMotor s x).scarp = s.scarp := by simp [abandonMotor]
@[simp] theorem abandonMotor_conv (s : State) (x : Axis) : (abandonMotor s x).conv = s.conv := by simp [abandonMotor]
@[simp] theorem abandonMotor_ridge (s : State) (x : Axis) : (abandonMotor s x).ridge = s.ridge := by simp [abandonMotor]
@[simp] theorem abandonMotor_bus (s : State) (x : Axis) : (abandonMotor s x).bus = s.bus := by simp [abandonMotor]
@[simp] theorem abandonMotor_th (s : State) (x : Axis) : (abandonMotor s x).th = s.th := by simp [abandonMotor]
@[simp] theorem abandonMotor_cairn (s : State) (x : Axis) : (abandonMotor s x).cairn = s.cairn := by simp [abandonMotor]
@[simp] theorem abandonMotor_net (s : State) (x : Axis) : (abandonMotor s x).net = s.net := by simp [abandonMotor]
@[simp] theorem abandonMotor_xsp (s : State) (x : Axis) : (abandonMotor s x).xsp = s.xsp := by simp [abandonMotor]
@[simp] theorem abandonMotor_otp (s : State) (x : Axis) : (abandonMotor s x).otp = s.otp := by simp [abandonMotor]
@[simp] theorem abandonMotor_boot (s : State) (x : Axis) : (abandonMotor s x).boot = s.boot := by simp [abandonMotor]
@[simp] theorem abandonMotor_par (s : State) (x : Axis) : (abandonMotor s x).par = s.par := by simp [abandonMotor]
@[simp] theorem abandonMotor_inForce (s : State) (x : Axis) : (abandonMotor s x).inForce = s.inForce := by simp [abandonMotor]
@[simp] theorem abandonMotor_pending (s : State) (x : Axis) : (abandonMotor s x).pending = s.pending := by simp [abandonMotor]

/-! A stop that begins. -/
@[simp] theorem beginStop_clk (s : State) (x : Axis) (k : StopKind) : (beginStop s x k).clk = s.clk := by 
  simp only [beginStop]
  repeat' split
  all_goals simp
@[simp] theorem beginStop_sum (s : State) (x : Axis) (k : StopKind) : (beginStop s x k).sum = s.sum := by 
  simp only [beginStop]
  repeat' split
  all_goals simp
@[simp] theorem beginStop_pwr (s : State) (x : Axis) (k : StopKind) : (beginStop s x k).pwr = s.pwr := by 
  simp only [beginStop]
  repeat' split
  all_goals simp
@[simp] theorem beginStop_sto (s : State) (x : Axis) (k : StopKind) : (beginStop s x k).sto = s.sto := by 
  simp only [beginStop]
  repeat' split
  all_goals simp
@[simp] theorem beginStop_scarp (s : State) (x : Axis) (k : StopKind) : (beginStop s x k).scarp = s.scarp := by 
  simp only [beginStop]
  repeat' split
  all_goals simp
@[simp] theorem beginStop_conv (s : State) (x : Axis) (k : StopKind) : (beginStop s x k).conv = s.conv := by 
  simp only [beginStop]
  repeat' split
  all_goals simp
@[simp] theorem beginStop_ridge (s : State) (x : Axis) (k : StopKind) : (beginStop s x k).ridge = s.ridge := by 
  simp only [beginStop]
  repeat' split
  all_goals simp
@[simp] theorem beginStop_bus (s : State) (x : Axis) (k : StopKind) : (beginStop s x k).bus = s.bus := by 
  simp only [beginStop]
  repeat' split
  all_goals simp
@[simp] theorem beginStop_flt (s : State) (x : Axis) (k : StopKind) : (beginStop s x k).flt = s.flt := by 
  simp only [beginStop]
  repeat' split
  all_goals simp
@[simp] theorem beginStop_th (s : State) (x : Axis) (k : StopKind) : (beginStop s x k).th = s.th := by 
  simp only [beginStop]
  repeat' split
  all_goals simp
@[simp] theorem beginStop_cairn (s : State) (x : Axis) (k : StopKind) : (beginStop s x k).cairn = s.cairn := by 
  simp only [beginStop]
  repeat' split
  all_goals simp
@[simp] theorem beginStop_hsp (s : State) (x : Axis) (k : StopKind) : (beginStop s x k).hsp = s.hsp := by 
  simp only [beginStop]
  repeat' split
  all_goals simp
@[simp] theorem beginStop_mbx (s : State) (x : Axis) (k : StopKind) : (beginStop s x k).mbx = s.mbx := by 
  simp only [beginStop]
  repeat' split
  all_goals simp
@[simp] theorem beginStop_net (s : State) (x : Axis) (k : StopKind) : (beginStop s x k).net = s.net := by 
  simp only [beginStop]
  repeat' split
  all_goals simp
@[simp] theorem beginStop_can (s : State) (x : Axis) (k : StopKind) : (beginStop s x k).can = s.can := by 
  simp only [beginStop]
  repeat' split
  all_goals simp
@[simp] theorem beginStop_xsp (s : State) (x : Axis) (k : StopKind) : (beginStop s x k).xsp = s.xsp := by 
  simp only [beginStop]
  repeat' split
  all_goals simp
@[simp] theorem beginStop_nv (s : State) (x : Axis) (k : StopKind) : (beginStop s x k).nv = s.nv := by 
  simp only [beginStop]
  repeat' split
  all_goals simp
@[simp] theorem beginStop_otp (s : State) (x : Axis) (k : StopKind) : (beginStop s x k).otp = s.otp := by 
  simp only [beginStop]
  repeat' split
  all_goals simp
@[simp] theorem beginStop_boot (s : State) (x : Axis) (k : StopKind) : (beginStop s x k).boot = s.boot := by 
  simp only [beginStop]
  repeat' split
  all_goals simp
@[simp] theorem beginStop_par (s : State) (x : Axis) (k : StopKind) : (beginStop s x k).par = s.par := by 
  simp only [beginStop]
  repeat' split
  all_goals simp
@[simp] theorem beginStop_inForce (s : State) (x : Axis) (k : StopKind) : (beginStop s x k).inForce = s.inForce := by 
  simp only [beginStop]
  repeat' split
  all_goals simp
@[simp] theorem beginStop_pending (s : State) (x : Axis) (k : StopKind) : (beginStop s x k).pending = s.pending := by 
  simp only [beginStop]
  repeat' split
  all_goals simp

/-! A stop request. -/
@[simp] theorem requestStop_clk (s : State) (x : Axis) (k : StopKind) : (requestStop s x k).clk = s.clk := by simp [requestStop]
@[simp] theorem requestStop_sum (s : State) (x : Axis) (k : StopKind) : (requestStop s x k).sum = s.sum := by simp [requestStop]
@[simp] theorem requestStop_pwr (s : State) (x : Axis) (k : StopKind) : (requestStop s x k).pwr = s.pwr := by simp [requestStop]
@[simp] theorem requestStop_sto (s : State) (x : Axis) (k : StopKind) : (requestStop s x k).sto = s.sto := by simp [requestStop]
@[simp] theorem requestStop_scarp (s : State) (x : Axis) (k : StopKind) : (requestStop s x k).scarp = s.scarp := by simp [requestStop]
@[simp] theorem requestStop_conv (s : State) (x : Axis) (k : StopKind) : (requestStop s x k).conv = s.conv := by simp [requestStop]
@[simp] theorem requestStop_ridge (s : State) (x : Axis) (k : StopKind) : (requestStop s x k).ridge = s.ridge := by simp [requestStop]
@[simp] theorem requestStop_bus (s : State) (x : Axis) (k : StopKind) : (requestStop s x k).bus = s.bus := by simp [requestStop]
@[simp] theorem requestStop_th (s : State) (x : Axis) (k : StopKind) : (requestStop s x k).th = s.th := by simp [requestStop]
@[simp] theorem requestStop_cairn (s : State) (x : Axis) (k : StopKind) : (requestStop s x k).cairn = s.cairn := by simp [requestStop]
@[simp] theorem requestStop_net (s : State) (x : Axis) (k : StopKind) : (requestStop s x k).net = s.net := by simp [requestStop]
@[simp] theorem requestStop_xsp (s : State) (x : Axis) (k : StopKind) : (requestStop s x k).xsp = s.xsp := by simp [requestStop]
@[simp] theorem requestStop_otp (s : State) (x : Axis) (k : StopKind) : (requestStop s x k).otp = s.otp := by simp [requestStop]
@[simp] theorem requestStop_boot (s : State) (x : Axis) (k : StopKind) : (requestStop s x k).boot = s.boot := by simp [requestStop]
@[simp] theorem requestStop_par (s : State) (x : Axis) (k : StopKind) : (requestStop s x k).par = s.par := by simp [requestStop]
@[simp] theorem requestStop_inForce (s : State) (x : Axis) (k : StopKind) : (requestStop s x k).inForce = s.inForce := by simp [requestStop]
@[simp] theorem requestStop_pending (s : State) (x : Axis) (k : StopKind) : (requestStop s x k).pending = s.pending := by simp [requestStop]

/-! A raise of any class. -/
@[simp] theorem raise_clk (s : State) (c : BitVec 16) (sc d : BitVec 8) (v : F32) (a : Bool) : (raise s c sc d v a).clk = s.clk := by
  simp only [raise]; split
  · rw [foldl_keeps (p := State.clk)]; · simp
    intro g x; simp
  · simp
@[simp] theorem raise_sum (s : State) (c : BitVec 16) (sc d : BitVec 8) (v : F32) (a : Bool) : (raise s c sc d v a).sum = s.sum := by
  simp only [raise]; split
  · rw [foldl_keeps (p := State.sum)]; · simp
    intro g x; simp
  · simp
@[simp] theorem raise_pwr (s : State) (c : BitVec 16) (sc d : BitVec 8) (v : F32) (a : Bool) : (raise s c sc d v a).pwr = s.pwr := by
  simp only [raise]; split
  · rw [foldl_keeps (p := State.pwr)]; · simp
    intro g x; simp
  · simp
@[simp] theorem raise_sto (s : State) (c : BitVec 16) (sc d : BitVec 8) (v : F32) (a : Bool) : (raise s c sc d v a).sto = s.sto := by
  simp only [raise]; split
  · rw [foldl_keeps (p := State.sto)]; · simp
    intro g x; simp
  · simp
@[simp] theorem raise_scarp (s : State) (c : BitVec 16) (sc d : BitVec 8) (v : F32) (a : Bool) : (raise s c sc d v a).scarp = s.scarp := by
  simp only [raise]; split
  · rw [foldl_keeps (p := State.scarp)]; · simp
    intro g x; simp
  · simp
@[simp] theorem raise_conv (s : State) (c : BitVec 16) (sc d : BitVec 8) (v : F32) (a : Bool) : (raise s c sc d v a).conv = s.conv := by
  simp only [raise]; split
  · rw [foldl_keeps (p := State.conv)]; · simp
    intro g x; simp
  · simp
@[simp] theorem raise_ridge (s : State) (c : BitVec 16) (sc d : BitVec 8) (v : F32) (a : Bool) : (raise s c sc d v a).ridge = s.ridge := by
  simp only [raise]; split
  · rw [foldl_keeps (p := State.ridge)]; · simp
    intro g x; simp
  · simp
@[simp] theorem raise_bus (s : State) (c : BitVec 16) (sc d : BitVec 8) (v : F32) (a : Bool) : (raise s c sc d v a).bus = s.bus := by
  simp only [raise]; split
  · rw [foldl_keeps (p := State.bus)]; · simp
    intro g x; simp
  · simp
@[simp] theorem raise_th (s : State) (c : BitVec 16) (sc d : BitVec 8) (v : F32) (a : Bool) : (raise s c sc d v a).th = s.th := by
  simp only [raise]; split
  · rw [foldl_keeps (p := State.th)]; · simp
    intro g x; simp
  · simp
@[simp] theorem raise_cairn (s : State) (c : BitVec 16) (sc d : BitVec 8) (v : F32) (a : Bool) : (raise s c sc d v a).cairn = s.cairn := by
  simp only [raise]; split
  · rw [foldl_keeps (p := State.cairn)]; · simp
    intro g x; simp
  · simp
@[simp] theorem raise_net (s : State) (c : BitVec 16) (sc d : BitVec 8) (v : F32) (a : Bool) : (raise s c sc d v a).net = s.net := by
  simp only [raise]; split
  · rw [foldl_keeps (p := State.net)]; · simp
    intro g x; simp
  · simp
@[simp] theorem raise_xsp (s : State) (c : BitVec 16) (sc d : BitVec 8) (v : F32) (a : Bool) : (raise s c sc d v a).xsp = s.xsp := by
  simp only [raise]; split
  · rw [foldl_keeps (p := State.xsp)]; · simp
    intro g x; simp
  · simp
@[simp] theorem raise_otp (s : State) (c : BitVec 16) (sc d : BitVec 8) (v : F32) (a : Bool) : (raise s c sc d v a).otp = s.otp := by
  simp only [raise]; split
  · rw [foldl_keeps (p := State.otp)]; · simp
    intro g x; simp
  · simp
@[simp] theorem raise_boot (s : State) (c : BitVec 16) (sc d : BitVec 8) (v : F32) (a : Bool) : (raise s c sc d v a).boot = s.boot := by
  simp only [raise]; split
  · rw [foldl_keeps (p := State.boot)]; · simp
    intro g x; simp
  · simp
@[simp] theorem raise_par (s : State) (c : BitVec 16) (sc d : BitVec 8) (v : F32) (a : Bool) : (raise s c sc d v a).par = s.par := by
  simp only [raise]; split
  · rw [foldl_keeps (p := State.par)]; · simp
    intro g x; simp
  · simp
@[simp] theorem raise_inForce (s : State) (c : BitVec 16) (sc d : BitVec 8) (v : F32) (a : Bool) : (raise s c sc d v a).inForce = s.inForce := by
  simp only [raise]; split
  · rw [foldl_keeps (p := State.inForce)]; · simp
    intro g x; simp
  · simp
@[simp] theorem raise_pending (s : State) (c : BitVec 16) (sc d : BitVec 8) (v : F32) (a : Bool) : (raise s c sc d v a).pending = s.pending := by
  simp only [raise]; split
  · rw [foldl_keeps (p := State.pending)]; · simp
    intro g x; simp
  · simp

/-! A momentary raise. -/
@[simp] theorem raise0_clk (s : State) (c : BitVec 16) (sc d : BitVec 8) : (raise0 s c sc d).clk = s.clk := by simp [raise0]
@[simp] theorem raise0_sum (s : State) (c : BitVec 16) (sc d : BitVec 8) : (raise0 s c sc d).sum = s.sum := by simp [raise0]
@[simp] theorem raise0_pwr (s : State) (c : BitVec 16) (sc d : BitVec 8) : (raise0 s c sc d).pwr = s.pwr := by simp [raise0]
@[simp] theorem raise0_sto (s : State) (c : BitVec 16) (sc d : BitVec 8) : (raise0 s c sc d).sto = s.sto := by simp [raise0]
@[simp] theorem raise0_scarp (s : State) (c : BitVec 16) (sc d : BitVec 8) : (raise0 s c sc d).scarp = s.scarp := by simp [raise0]
@[simp] theorem raise0_conv (s : State) (c : BitVec 16) (sc d : BitVec 8) : (raise0 s c sc d).conv = s.conv := by simp [raise0]
@[simp] theorem raise0_ridge (s : State) (c : BitVec 16) (sc d : BitVec 8) : (raise0 s c sc d).ridge = s.ridge := by simp [raise0]
@[simp] theorem raise0_bus (s : State) (c : BitVec 16) (sc d : BitVec 8) : (raise0 s c sc d).bus = s.bus := by simp [raise0]
@[simp] theorem raise0_th (s : State) (c : BitVec 16) (sc d : BitVec 8) : (raise0 s c sc d).th = s.th := by simp [raise0]
@[simp] theorem raise0_cairn (s : State) (c : BitVec 16) (sc d : BitVec 8) : (raise0 s c sc d).cairn = s.cairn := by simp [raise0]
@[simp] theorem raise0_net (s : State) (c : BitVec 16) (sc d : BitVec 8) : (raise0 s c sc d).net = s.net := by simp [raise0]
@[simp] theorem raise0_xsp (s : State) (c : BitVec 16) (sc d : BitVec 8) : (raise0 s c sc d).xsp = s.xsp := by simp [raise0]
@[simp] theorem raise0_otp (s : State) (c : BitVec 16) (sc d : BitVec 8) : (raise0 s c sc d).otp = s.otp := by simp [raise0]
@[simp] theorem raise0_boot (s : State) (c : BitVec 16) (sc d : BitVec 8) : (raise0 s c sc d).boot = s.boot := by simp [raise0]
@[simp] theorem raise0_par (s : State) (c : BitVec 16) (sc d : BitVec 8) : (raise0 s c sc d).par = s.par := by simp [raise0]
@[simp] theorem raise0_inForce (s : State) (c : BitVec 16) (sc d : BitVec 8) : (raise0 s c sc d).inForce = s.inForce := by simp [raise0]
@[simp] theorem raise0_pending (s : State) (c : BitVec 16) (sc d : BitVec 8) : (raise0 s c sc d).pending = s.pending := by simp [raise0]

/-! A raise whose cause holds. -/
@[simp] theorem raise1_clk (s : State) (c : BitVec 16) (sc d : BitVec 8) : (raise1 s c sc d).clk = s.clk := by simp [raise1]
@[simp] theorem raise1_sum (s : State) (c : BitVec 16) (sc d : BitVec 8) : (raise1 s c sc d).sum = s.sum := by simp [raise1]
@[simp] theorem raise1_pwr (s : State) (c : BitVec 16) (sc d : BitVec 8) : (raise1 s c sc d).pwr = s.pwr := by simp [raise1]
@[simp] theorem raise1_sto (s : State) (c : BitVec 16) (sc d : BitVec 8) : (raise1 s c sc d).sto = s.sto := by simp [raise1]
@[simp] theorem raise1_scarp (s : State) (c : BitVec 16) (sc d : BitVec 8) : (raise1 s c sc d).scarp = s.scarp := by simp [raise1]
@[simp] theorem raise1_conv (s : State) (c : BitVec 16) (sc d : BitVec 8) : (raise1 s c sc d).conv = s.conv := by simp [raise1]
@[simp] theorem raise1_ridge (s : State) (c : BitVec 16) (sc d : BitVec 8) : (raise1 s c sc d).ridge = s.ridge := by simp [raise1]
@[simp] theorem raise1_bus (s : State) (c : BitVec 16) (sc d : BitVec 8) : (raise1 s c sc d).bus = s.bus := by simp [raise1]
@[simp] theorem raise1_th (s : State) (c : BitVec 16) (sc d : BitVec 8) : (raise1 s c sc d).th = s.th := by simp [raise1]
@[simp] theorem raise1_cairn (s : State) (c : BitVec 16) (sc d : BitVec 8) : (raise1 s c sc d).cairn = s.cairn := by simp [raise1]
@[simp] theorem raise1_net (s : State) (c : BitVec 16) (sc d : BitVec 8) : (raise1 s c sc d).net = s.net := by simp [raise1]
@[simp] theorem raise1_xsp (s : State) (c : BitVec 16) (sc d : BitVec 8) : (raise1 s c sc d).xsp = s.xsp := by simp [raise1]
@[simp] theorem raise1_otp (s : State) (c : BitVec 16) (sc d : BitVec 8) : (raise1 s c sc d).otp = s.otp := by simp [raise1]
@[simp] theorem raise1_boot (s : State) (c : BitVec 16) (sc d : BitVec 8) : (raise1 s c sc d).boot = s.boot := by simp [raise1]
@[simp] theorem raise1_par (s : State) (c : BitVec 16) (sc d : BitVec 8) : (raise1 s c sc d).par = s.par := by simp [raise1]
@[simp] theorem raise1_inForce (s : State) (c : BitVec 16) (sc d : BitVec 8) : (raise1 s c sc d).inForce = s.inForce := by simp [raise1]
@[simp] theorem raise1_pending (s : State) (c : BitVec 16) (sc d : BitVec 8) : (raise1 s c sc d).pending = s.pending := by simp [raise1]

/-! What follows a change of state. -/
@[simp] theorem settle_clk (z s : State) : (settle z s).clk = s.clk := by simp only [settle]; (try split) <;> (try split) <;> (try split) <;> simp
@[simp] theorem settle_sum (z s : State) : (settle z s).sum = s.sum := by simp only [settle]; (try split) <;> (try split) <;> (try split) <;> simp
@[simp] theorem settle_pwr (z s : State) : (settle z s).pwr = s.pwr := by simp only [settle]; (try split) <;> (try split) <;> (try split) <;> simp
@[simp] theorem settle_sto (z s : State) : (settle z s).sto = s.sto := by simp only [settle]; (try split) <;> (try split) <;> (try split) <;> simp
@[simp] theorem settle_scarp (z s : State) : (settle z s).scarp = s.scarp := by simp only [settle]; (try split) <;> (try split) <;> (try split) <;> simp
@[simp] theorem settle_axes (z s : State) : (settle z s).axes = s.axes := by simp only [settle]; (try split) <;> (try split) <;> (try split) <;> simp
@[simp] theorem settle_conv (z s : State) : (settle z s).conv = s.conv := by simp only [settle]; (try split) <;> (try split) <;> (try split) <;> simp
@[simp] theorem settle_ridge (z s : State) : (settle z s).ridge = s.ridge := by simp only [settle]; (try split) <;> (try split) <;> (try split) <;> simp
@[simp] theorem settle_bus (z s : State) : (settle z s).bus = s.bus := by simp only [settle]; (try split) <;> (try split) <;> (try split) <;> simp
@[simp] theorem settle_flt (z s : State) : (settle z s).flt = s.flt := by simp only [settle]; (try split) <;> (try split) <;> (try split) <;> simp
@[simp] theorem settle_th (z s : State) : (settle z s).th = s.th := by simp only [settle]; (try split) <;> (try split) <;> (try split) <;> simp
@[simp] theorem settle_cairn (z s : State) : (settle z s).cairn = s.cairn := by simp only [settle]; (try split) <;> (try split) <;> (try split) <;> simp
@[simp] theorem settle_net (z s : State) : (settle z s).net = s.net := by simp only [settle]; (try split) <;> (try split) <;> (try split) <;> simp
@[simp] theorem settle_can (z s : State) : (settle z s).can = s.can := by simp only [settle]; (try split) <;> (try split) <;> (try split) <;> simp
@[simp] theorem settle_xsp (z s : State) : (settle z s).xsp = s.xsp := by simp only [settle]; (try split) <;> (try split) <;> (try split) <;> simp
@[simp] theorem settle_nv (z s : State) : (settle z s).nv = s.nv := by simp only [settle]; (try split) <;> (try split) <;> (try split) <;> simp
@[simp] theorem settle_otp (z s : State) : (settle z s).otp = s.otp := by simp only [settle]; (try split) <;> (try split) <;> (try split) <;> simp
@[simp] theorem settle_boot (z s : State) : (settle z s).boot = s.boot := by simp only [settle]; (try split) <;> (try split) <;> (try split) <;> simp
@[simp] theorem settle_par (z s : State) : (settle z s).par = s.par := by simp only [settle]; (try split) <;> (try split) <;> (try split) <;> simp
@[simp] theorem settle_inForce (z s : State) : (settle z s).inForce = s.inForce := by simp only [settle]; (try split) <;> (try split) <;> (try split) <;> simp
@[simp] theorem settle_pending (z s : State) : (settle z s).pending = s.pending := by simp only [settle]; (try split) <;> (try split) <;> (try split) <;> simp

/-! The end of stage E2. -/
@[simp] theorem endE2_clk (s : State) : (endE2 s).clk = s.clk := by simp only [endE2]; split <;> rfl
@[simp] theorem endE2_sum (s : State) : (endE2 s).sum = s.sum := by simp only [endE2]; split <;> rfl
@[simp] theorem endE2_pwr (s : State) : (endE2 s).pwr = s.pwr := by simp only [endE2]; split <;> rfl
@[simp] theorem endE2_sto (s : State) : (endE2 s).sto = s.sto := by simp only [endE2]; split <;> rfl
@[simp] theorem endE2_scarp (s : State) : (endE2 s).scarp = s.scarp := by simp only [endE2]; split <;> rfl
@[simp] theorem endE2_axes (s : State) : (endE2 s).axes = s.axes := by simp only [endE2]; split <;> rfl
@[simp] theorem endE2_conv (s : State) : (endE2 s).conv = s.conv := by simp only [endE2]; split <;> rfl
@[simp] theorem endE2_ridge (s : State) : (endE2 s).ridge = s.ridge := by simp only [endE2]; split <;> rfl
@[simp] theorem endE2_flt (s : State) : (endE2 s).flt = s.flt := by simp only [endE2]; split <;> rfl
@[simp] theorem endE2_th (s : State) : (endE2 s).th = s.th := by simp only [endE2]; split <;> rfl
@[simp] theorem endE2_cairn (s : State) : (endE2 s).cairn = s.cairn := by simp only [endE2]; split <;> rfl
@[simp] theorem endE2_hsp (s : State) : (endE2 s).hsp = s.hsp := by simp only [endE2]; split <;> rfl
@[simp] theorem endE2_mbx (s : State) : (endE2 s).mbx = s.mbx := by simp only [endE2]; split <;> rfl
@[simp] theorem endE2_net (s : State) : (endE2 s).net = s.net := by simp only [endE2]; split <;> rfl
@[simp] theorem endE2_can (s : State) : (endE2 s).can = s.can := by simp only [endE2]; split <;> rfl
@[simp] theorem endE2_xsp (s : State) : (endE2 s).xsp = s.xsp := by simp only [endE2]; split <;> rfl
@[simp] theorem endE2_nv (s : State) : (endE2 s).nv = s.nv := by simp only [endE2]; split <;> rfl
@[simp] theorem endE2_otp (s : State) : (endE2 s).otp = s.otp := by simp only [endE2]; split <;> rfl
@[simp] theorem endE2_boot (s : State) : (endE2 s).boot = s.boot := by simp only [endE2]; split <;> rfl
@[simp] theorem endE2_par (s : State) : (endE2 s).par = s.par := by simp only [endE2]; split <;> rfl
@[simp] theorem endE2_inForce (s : State) : (endE2 s).inForce = s.inForce := by simp only [endE2]; split <;> rfl
@[simp] theorem endE2_pending (s : State) : (endE2 s).pending = s.pending := by simp only [endE2]; split <;> rfl

/-! The integer root. -/

/-- Each bit keeps the root at or below and within the bits left. -/
theorem isqrtGo_spec (k n : Nat) : ∀ r, r * r ≤ n → n < (r + 2 ^ k) * (r + 2 ^ k) →
    isqrtGo k n r * isqrtGo k n r ≤ n ∧ n < (isqrtGo k n r + 1) * (isqrtGo k n r + 1) := by
  induction k with
  | zero => intro r h1 h2; exact ⟨h1, h2⟩
  | succ k ih =>
    intro r h1 h2
    unfold isqrtGo
    by_cases h : (r + 2 ^ k) * (r + 2 ^ k) ≤ n
    · rw [if_pos h]
      refine ih _ h ?_
      rwa [Nat.add_assoc, ← Nat.two_mul, ← Nat.pow_succ']
    · rw [if_neg h]
      exact ih _ h1 (Nat.lt_of_not_le h)
/-- `isqrt` is the integer root, rounded down. -/
theorem isqrt_spec (n : Nat) : isqrt n * isqrt n ≤ n ∧ n < (isqrt n + 1) * (isqrt n + 1) := by
  refine isqrtGo_spec _ n 0 (Nat.zero_le _) ?_
  have h : n < 2 ^ (n.log2 + 1) := Nat.lt_log2_self
  refine Nat.lt_of_lt_of_le h ?_
  rw [Nat.zero_add, ← Nat.pow_add]
  exact Nat.pow_le_pow_right (by decide) (by omega)

end Sys2Proof.Machine
end

