-- ==== Sys2Proof/Laws/Frame.lean ====
section
/-!
SUPPORT. What the shared operations leave of the parts they touch: the registers behind the messages, the log's MRAM, the CAN
registers; and the outcome of a command in a calm state.
-/

namespace Sys2Proof.Machine
open Sys2Proof
set_option Elab.async false

/-! The registers of the host port. -/
@[simp] theorem placeHost_hspCore (s : State) (m : Msg) : hspCore (placeHost s m).hsp = hspCore s.hsp := by unfold placeHost; split <;> rfl
@[simp] theorem sendMsg_hspCore (s : State) (tr : Transport) (m : Msg) : hspCore (sendMsg s tr m).hsp = hspCore s.hsp := by unfold sendMsg; split <;> first | rfl | (simp; done) | (simp; rfl)
@[simp] theorem postHost_hspCore (s : State) (m : Msg) : hspCore (postHost s m).hsp = hspCore s.hsp := by simp only [postHost]; (try split) <;> (try split) <;> (try split) <;> first | rfl | (simp; done) | (simp; rfl)
@[simp] theorem postEvent_hspCore (s : State) (n : Nat) (op : BitVec 16) (p : List Byte) : hspCore (postEvent s n op p).hsp = hspCore s.hsp := by simp only [postEvent]; (try split) <;> (try split) <;> (try split) <;> (try split) <;> (try split) <;> first | rfl | (simp; done) | (simp; rfl)
@[simp] theorem flushHeld_hspCore (s : State) : hspCore (flushHeld s).hsp = hspCore s.hsp := by
  simp only [flushHeld]
  refine (foldl_keeps (p := fun (g : State) => hspCore g.hsp) _ ?_ _ _).trans ?_
  · intro g a; simp
  · first | rfl | simp
@[simp] theorem placeAhead_hspCore (s : State) (m : Msg) : hspCore (placeAhead s m).hsp = hspCore s.hsp := by unfold placeAhead; split <;> first | rfl | (simp; done) | (simp; rfl)
@[simp] theorem endLong_hspCore (s : State) (op : BitVec 16) (h : Hdr) (r d : Nat) (p : List Byte) : hspCore (endLong s op h r d p).hsp = hspCore s.hsp := by simp only [endLong]; split <;> first | rfl | (simp; done) | (simp; rfl)
@[simp] theorem enterList_hspCore (s : State) (c : BitVec 16) (sc d : BitVec 8) (a : Bool) : hspCore (enterList s c sc d a).hsp = hspCore s.hsp := by simp only [enterList]; (try split) <;> (try split) <;> (try split) <;> first | rfl | (simp; done) | (simp; rfl)
@[simp] theorem faultEvent_hspCore (s : State) (c : BitVec 16) (sc d : BitVec 8) (n : Nat) : hspCore (faultEvent s c sc d n).hsp = hspCore s.hsp := by simp only [faultEvent]; split <;> first | rfl | (simp; done) | (simp; rfl)
@[simp] theorem record_hspCore (s : State) (c : BitVec 16) (sc d : BitVec 8) (v : F32) (a : Bool) : hspCore (record s c sc d v a).hsp = hspCore s.hsp := by simp only [record]; split <;> first | rfl | (simp; done) | (simp; rfl)
@[simp] theorem leaveList_hspCore (s : State) (e : FaultEntry) (n : Nat) : hspCore (leaveList s e n).hsp = hspCore s.hsp := by simp [leaveList]
@[simp] theorem endCause_hspCore (s : State) (c : BitVec 16) (sc d : BitVec 8) : hspCore (endCause s c sc d).hsp = hspCore s.hsp := by simp only [endCause]; (try split) <;> (try split) <;> (try split) <;> first | rfl | (simp; done) | (simp; rfl)
@[simp] theorem endMotor_hspCore (s : State) (x : Axis) : hspCore (endMotor s x).hsp = hspCore s.hsp := by simp only [endMotor]; (try split) <;> (try split) <;> first | rfl | (simp; done) | (simp; rfl)
@[simp] theorem abandonMotor_hspCore (s : State) (x : Axis) : hspCore (abandonMotor s x).hsp = hspCore s.hsp := by simp [abandonMotor]
@[simp] theorem requestStop_hspCore (s : State) (x : Axis) (k : StopKind) : hspCore (requestStop s x k).hsp = hspCore s.hsp := by simp [requestStop]
@[simp] theorem raise_hspCore (s : State) (c : BitVec 16) (sc d : BitVec 8) (v : F32) (a : Bool) : hspCore (raise s c sc d v a).hsp = hspCore s.hsp := by
  simp only [raise]; split
  · refine (foldl_keeps (p := fun (g : State) => hspCore g.hsp) _ ?_ _ _).trans ?_
    · intro g x; simp
    · simp
  · simp
@[simp] theorem raise0_hspCore (s : State) (c : BitVec 16) (sc d : BitVec 8) : hspCore (raise0 s c sc d).hsp = hspCore s.hsp := by simp [raise0]
@[simp] theorem raise1_hspCore (s : State) (c : BitVec 16) (sc d : BitVec 8) : hspCore (raise1 s c sc d).hsp = hspCore s.hsp := by simp [raise1]
@[simp] theorem settle_hspCore (z s : State) : hspCore (settle z s).hsp = hspCore s.hsp := by simp only [settle]; (try split) <;> (try split) <;> (try split) <;> first | rfl | (simp; done) | (simp; rfl)
/-! Sessions and long operation behind the messages. -/
@[simp] theorem sendMsg_mbxCore (s : State) (tr : Transport) (m : Msg) : mbxCore (sendMsg s tr m).mbx = mbxCore s.mbx := by unfold sendMsg; split <;> first | rfl | (simp; done) | (simp; rfl)
@[simp] theorem postEvent_mbxCore (s : State) (n : Nat) (op : BitVec 16) (p : List Byte) : mbxCore (postEvent s n op p).mbx = mbxCore s.mbx := by simp only [postEvent]; (try split) <;> (try split) <;> (try split) <;> (try split) <;> (try split) <;> first | rfl | (simp; done) | (simp; rfl)
@[simp] theorem flushHeld_mbxCore (s : State) : mbxCore (flushHeld s).mbx = mbxCore s.mbx := by
  simp only [flushHeld]
  refine (foldl_keeps (p := fun (g : State) => mbxCore g.mbx) _ ?_ _ _).trans ?_
  · intro g a; simp
  · first | rfl | simp
@[simp] theorem faultEvent_mbxCore (s : State) (c : BitVec 16) (sc d : BitVec 8) (n : Nat) : mbxCore (faultEvent s c sc d n).mbx = mbxCore s.mbx := by simp only [faultEvent]; split <;> first | rfl | (simp; done) | (simp; rfl)
@[simp] theorem record_mbxCore (s : State) (c : BitVec 16) (sc d : BitVec 8) (v : F32) (a : Bool) : mbxCore (record s c sc d v a).mbx = mbxCore s.mbx := by simp only [record]; split <;> first | rfl | (simp; done) | (simp; rfl)
@[simp] theorem leaveList_mbxCore (s : State) (e : FaultEntry) (n : Nat) : mbxCore (leaveList s e n).mbx = mbxCore s.mbx := by simp [leaveList]
@[simp] theorem endCause_mbxCore (s : State) (c : BitVec 16) (sc d : BitVec 8) : mbxCore (endCause s c sc d).mbx = mbxCore s.mbx := by simp only [endCause]; (try split) <;> (try split) <;> (try split) <;> first | rfl | (simp; done) | (simp; rfl)
@[simp] theorem settle_mbxCore (z s : State) : mbxCore (settle z s).mbx = mbxCore s.mbx := by simp only [settle]; (try split) <;> (try split) <;> (try split) <;> first | rfl | (simp; done) | (simp; rfl)
/-! A commanded reset waits as before. -/
@[simp] theorem sendMsg_reboot (s : State) (tr : Transport) (m : Msg) : (sendMsg s tr m).mbx.rebootAt = s.mbx.rebootAt := by unfold sendMsg; split <;> first | rfl | (simp; done) | (simp; rfl)
@[simp] theorem postEvent_reboot (s : State) (n : Nat) (op : BitVec 16) (p : List Byte) : (postEvent s n op p).mbx.rebootAt = s.mbx.rebootAt := by simp only [postEvent]; (try split) <;> (try split) <;> (try split) <;> (try split) <;> (try split) <;> first | rfl | (simp; done) | (simp; rfl)
@[simp] theorem flushHeld_reboot (s : State) : (flushHeld s).mbx.rebootAt = s.mbx.rebootAt := by
  simp only [flushHeld]
  refine (foldl_keeps (p := fun (g : State) => g.mbx.rebootAt) _ ?_ _ _).trans ?_
  · intro g a; simp
  · first | rfl | simp
@[simp] theorem keepReply_reboot (s : State) (op : BitVec 16) (h : Hdr) (m : Msg) : (keepReply s op h m).mbx.rebootAt = s.mbx.rebootAt := by rfl
@[simp] theorem endLong_reboot (s : State) (op : BitVec 16) (h : Hdr) (r d : Nat) (p : List Byte) : (endLong s op h r d p).mbx.rebootAt = s.mbx.rebootAt := by simp only [endLong]; split <;> first | rfl | (simp; done) | (simp; rfl)
@[simp] theorem faultEvent_reboot (s : State) (c : BitVec 16) (sc d : BitVec 8) (n : Nat) : (faultEvent s c sc d n).mbx.rebootAt = s.mbx.rebootAt := by simp only [faultEvent]; split <;> first | rfl | (simp; done) | (simp; rfl)
@[simp] theorem record_reboot (s : State) (c : BitVec 16) (sc d : BitVec 8) (v : F32) (a : Bool) : (record s c sc d v a).mbx.rebootAt = s.mbx.rebootAt := by simp only [record]; split <;> first | rfl | (simp; done) | (simp; rfl)
@[simp] theorem leaveList_reboot (s : State) (e : FaultEntry) (n : Nat) : (leaveList s e n).mbx.rebootAt = s.mbx.rebootAt := by simp [leaveList]
@[simp] theorem endCause_reboot (s : State) (c : BitVec 16) (sc d : BitVec 8) : (endCause s c sc d).mbx.rebootAt = s.mbx.rebootAt := by simp only [endCause]; (try split) <;> (try split) <;> (try split) <;> first | rfl | (simp; done) | (simp; rfl)
@[simp] theorem endMotor_reboot (s : State) (x : Axis) : (endMotor s x).mbx.rebootAt = s.mbx.rebootAt := by simp only [endMotor]; (try split) <;> (try split) <;> first | rfl | (simp; done) | (simp; rfl)
@[simp] theorem abandonMotor_reboot (s : State) (x : Axis) : (abandonMotor s x).mbx.rebootAt = s.mbx.rebootAt := by simp [abandonMotor]
@[simp] theorem requestStop_reboot (s : State) (x : Axis) (k : StopKind) : (requestStop s x k).mbx.rebootAt = s.mbx.rebootAt := by simp [requestStop]
@[simp] theorem raise_reboot (s : State) (c : BitVec 16) (sc d : BitVec 8) (v : F32) (a : Bool) : (raise s c sc d v a).mbx.rebootAt = s.mbx.rebootAt := by
  simp only [raise]; split
  · refine (foldl_keeps (p := fun (g : State) => g.mbx.rebootAt) _ ?_ _ _).trans ?_
    · intro g x; simp
    · simp
  · simp
@[simp] theorem raise0_reboot (s : State) (c : BitVec 16) (sc d : BitVec 8) : (raise0 s c sc d).mbx.rebootAt = s.mbx.rebootAt := by simp [raise0]
@[simp] theorem raise1_reboot (s : State) (c : BitVec 16) (sc d : BitVec 8) : (raise1 s c sc d).mbx.rebootAt = s.mbx.rebootAt := by simp [raise1]
@[simp] theorem settle_reboot (z s : State) : (settle z s).mbx.rebootAt = s.mbx.rebootAt := by simp only [settle]; (try split) <;> (try split) <;> (try split) <;> first | rfl | (simp; done) | (simp; rfl)
/-! MRAM behind the log. -/
@[simp] theorem logIt_nvCore (s : State) (e : LogEntry) : nvCore (logIt s e).nv = nvCore s.nv := by rfl
@[simp] theorem logRaise_nvCore (s : State) (c : BitVec 16) (sc d : BitVec 8) (v : F32) : nvCore (logRaise s c sc d v).nv = nvCore s.nv := by simp only [logRaise]; split <;> first | rfl | (simp; done) | (simp; rfl)
@[simp] theorem enterList_nvCore (s : State) (c : BitVec 16) (sc d : BitVec 8) (a : Bool) : nvCore (enterList s c sc d a).nv = nvCore s.nv := by simp only [enterList]; (try split) <;> (try split) <;> (try split) <;> first | rfl | (simp; done) | (simp; rfl)
@[simp] theorem record_nvCore (s : State) (c : BitVec 16) (sc d : BitVec 8) (v : F32) (a : Bool) : nvCore (record s c sc d v a).nv = nvCore s.nv := by simp only [record]; split <;> first | rfl | (simp; done) | (simp; rfl)
@[simp] theorem leaveList_nvCore (s : State) (e : FaultEntry) (n : Nat) : nvCore (leaveList s e n).nv = nvCore s.nv := by simp [leaveList]
@[simp] theorem endCause_nvCore (s : State) (c : BitVec 16) (sc d : BitVec 8) : nvCore (endCause s c sc d).nv = nvCore s.nv := by simp only [endCause]; (try split) <;> (try split) <;> (try split) <;> first | rfl | (simp; done) | (simp; rfl)
@[simp] theorem endMotor_nvCore (s : State) (x : Axis) : nvCore (endMotor s x).nv = nvCore s.nv := by simp only [endMotor]; (try split) <;> (try split) <;> first | rfl | (simp; done) | (simp; rfl)
@[simp] theorem abandonMotor_nvCore (s : State) (x : Axis) : nvCore (abandonMotor s x).nv = nvCore s.nv := by simp [abandonMotor]
@[simp] theorem requestStop_nvCore (s : State) (x : Axis) (k : StopKind) : nvCore (requestStop s x k).nv = nvCore s.nv := by simp [requestStop]
@[simp] theorem raise_nvCore (s : State) (c : BitVec 16) (sc d : BitVec 8) (v : F32) (a : Bool) : nvCore (raise s c sc d v a).nv = nvCore s.nv := by
  simp only [raise]; split
  · refine (foldl_keeps (p := fun (g : State) => nvCore g.nv) _ ?_ _ _).trans ?_
    · intro g x; simp
    · simp
  · simp
@[simp] theorem raise0_nvCore (s : State) (c : BitVec 16) (sc d : BitVec 8) : nvCore (raise0 s c sc d).nv = nvCore s.nv := by simp [raise0]
@[simp] theorem raise1_nvCore (s : State) (c : BitVec 16) (sc d : BitVec 8) : nvCore (raise1 s c sc d).nv = nvCore s.nv := by simp [raise1]
/-! CAN registers behind the frames. -/
@[simp] theorem canSend_canCore (s : State) (id : Nat) (p : List Byte) : canCore (canSend s id p).can = canCore s.can := by rfl
@[simp] theorem sendEmcy_canCore (s : State) (c : BitVec 16) (sc d : BitVec 8) : canCore (sendEmcy s c sc d).can = canCore s.can := by simp only [sendEmcy]; split <;> first | rfl | (simp; done) | (simp; rfl)
@[simp] theorem record_canCore (s : State) (c : BitVec 16) (sc d : BitVec 8) (v : F32) (a : Bool) : canCore (record s c sc d v a).can = canCore s.can := by simp only [record]; split <;> first | rfl | (simp; done) | (simp; rfl)
@[simp] theorem endMotor_canCore (s : State) (x : Axis) : canCore (endMotor s x).can = canCore s.can := by simp only [endMotor]; (try split) <;> (try split) <;> first | rfl | (simp; done) | (simp; rfl)
@[simp] theorem abandonMotor_canCore (s : State) (x : Axis) : canCore (abandonMotor s x).can = canCore s.can := by simp [abandonMotor]
@[simp] theorem requestStop_canCore (s : State) (x : Axis) (k : StopKind) : canCore (requestStop s x k).can = canCore s.can := by simp [requestStop]
@[simp] theorem raise_canCore (s : State) (c : BitVec 16) (sc d : BitVec 8) (v : F32) (a : Bool) : canCore (raise s c sc d v a).can = canCore s.can := by
  simp only [raise]; split
  · refine (foldl_keeps (p := fun (g : State) => canCore g.can) _ ?_ _ _).trans ?_
    · intro g x; simp
    · simp
  · simp
@[simp] theorem raise0_canCore (s : State) (c : BitVec 16) (sc d : BitVec 8) : canCore (raise0 s c sc d).can = canCore s.can := by simp [raise0]
@[simp] theorem raise1_canCore (s : State) (c : BitVec 16) (sc d : BitVec 8) : canCore (raise1 s c sc d).can = canCore s.can := by simp [raise1]
/-! What a message does not touch of the sessions. -/
@[simp] theorem sendMsg_sessions (s : State) (tr : Transport) (m : Msg) : (sendMsg s tr m).mbx.sessions = s.mbx.sessions := by unfold sendMsg; split <;> first | rfl | (simp; done) | (simp; rfl)
@[simp] theorem postEvent_sessions (s : State) (n : Nat) (op : BitVec 16) (p : List Byte) : (postEvent s n op p).mbx.sessions = s.mbx.sessions := by simp only [postEvent]; (try split) <;> (try split) <;> (try split) <;> (try split) <;> (try split) <;> first | rfl | (simp; done) | (simp; rfl)
@[simp] theorem flushHeld_sessions (s : State) : (flushHeld s).mbx.sessions = s.mbx.sessions := by
  simp only [flushHeld]
  refine (foldl_keeps (p := fun (g : State) => g.mbx.sessions) _ ?_ _ _).trans ?_
  · intro g a; simp
  · first | rfl | simp
@[simp] theorem faultEvent_sessions (s : State) (c : BitVec 16) (sc d : BitVec 8) (n : Nat) : (faultEvent s c sc d n).mbx.sessions = s.mbx.sessions := by simp only [faultEvent]; split <;> first | rfl | (simp; done) | (simp; rfl)
@[simp] theorem record_sessions (s : State) (c : BitVec 16) (sc d : BitVec 8) (v : F32) (a : Bool) : (record s c sc d v a).mbx.sessions = s.mbx.sessions := by simp only [record]; split <;> first | rfl | (simp; done) | (simp; rfl)
@[simp] theorem leaveList_sessions (s : State) (e : FaultEntry) (n : Nat) : (leaveList s e n).mbx.sessions = s.mbx.sessions := by simp [leaveList]
@[simp] theorem endCause_sessions (s : State) (c : BitVec 16) (sc d : BitVec 8) : (endCause s c sc d).mbx.sessions = s.mbx.sessions := by simp only [endCause]; (try split) <;> (try split) <;> (try split) <;> first | rfl | (simp; done) | (simp; rfl)
@[simp] theorem settle_sessions (z s : State) : (settle z s).mbx.sessions = s.mbx.sessions := by simp only [settle]; (try split) <;> (try split) <;> (try split) <;> first | rfl | (simp; done) | (simp; rfl)
/-! The running long operation. -/
@[simp] theorem sendMsg_long (s : State) (tr : Transport) (m : Msg) : (sendMsg s tr m).mbx.long = s.mbx.long := by unfold sendMsg; split <;> first | rfl | (simp; done) | (simp; rfl)
@[simp] theorem postEvent_long (s : State) (n : Nat) (op : BitVec 16) (p : List Byte) : (postEvent s n op p).mbx.long = s.mbx.long := by simp only [postEvent]; (try split) <;> (try split) <;> (try split) <;> (try split) <;> (try split) <;> first | rfl | (simp; done) | (simp; rfl)
@[simp] theorem flushHeld_long (s : State) : (flushHeld s).mbx.long = s.mbx.long := by
  simp only [flushHeld]
  refine (foldl_keeps (p := fun (g : State) => g.mbx.long) _ ?_ _ _).trans ?_
  · intro g a; simp
  · first | rfl | simp
@[simp] theorem keepReply_long (s : State) (op : BitVec 16) (h : Hdr) (m : Msg) : (keepReply s op h m).mbx.long = s.mbx.long := by rfl
@[simp] theorem faultEvent_long (s : State) (c : BitVec 16) (sc d : BitVec 8) (n : Nat) : (faultEvent s c sc d n).mbx.long = s.mbx.long := by simp only [faultEvent]; split <;> first | rfl | (simp; done) | (simp; rfl)
@[simp] theorem record_long (s : State) (c : BitVec 16) (sc d : BitVec 8) (v : F32) (a : Bool) : (record s c sc d v a).mbx.long = s.mbx.long := by simp only [record]; split <;> first | rfl | (simp; done) | (simp; rfl)
@[simp] theorem leaveList_long (s : State) (e : FaultEntry) (n : Nat) : (leaveList s e n).mbx.long = s.mbx.long := by simp [leaveList]
@[simp] theorem endCause_long (s : State) (c : BitVec 16) (sc d : BitVec 8) : (endCause s c sc d).mbx.long = s.mbx.long := by simp only [endCause]; (try split) <;> (try split) <;> (try split) <;> first | rfl | (simp; done) | (simp; rfl)
@[simp] theorem settle_long (z s : State) : (settle z s).mbx.long = s.mbx.long := by simp only [settle]; (try split) <;> (try split) <;> (try split) <;> first | rfl | (simp; done) | (simp; rfl)
/-! MRAM: banks -/
@[simp] theorem logIt_nv_banks (s : State) (e : LogEntry) : (logIt s e).nv.banks = s.nv.banks := by rfl
@[simp] theorem logRaise_nv_banks (s : State) (c : BitVec 16) (sc d : BitVec 8) (v : F32) : (logRaise s c sc d v).nv.banks = s.nv.banks := by simp only [logRaise]; split <;> first | rfl | (simp; done) | (simp; rfl)
@[simp] theorem enterList_nv_banks (s : State) (c : BitVec 16) (sc d : BitVec 8) (a : Bool) : (enterList s c sc d a).nv.banks = s.nv.banks := by simp only [enterList]; (try split) <;> (try split) <;> (try split) <;> first | rfl | (simp; done) | (simp; rfl)
@[simp] theorem record_nv_banks (s : State) (c : BitVec 16) (sc d : BitVec 8) (v : F32) (a : Bool) : (record s c sc d v a).nv.banks = s.nv.banks := by simp only [record]; split <;> first | rfl | (simp; done) | (simp; rfl)
@[simp] theorem leaveList_nv_banks (s : State) (e : FaultEntry) (n : Nat) : (leaveList s e n).nv.banks = s.nv.banks := by simp [leaveList]
@[simp] theorem endCause_nv_banks (s : State) (c : BitVec 16) (sc d : BitVec 8) : (endCause s c sc d).nv.banks = s.nv.banks := by simp only [endCause]; (try split) <;> (try split) <;> (try split) <;> first | rfl | (simp; done) | (simp; rfl)
@[simp] theorem endMotor_nv_banks (s : State) (x : Axis) : (endMotor s x).nv.banks = s.nv.banks := by simp only [endMotor]; (try split) <;> (try split) <;> first | rfl | (simp; done) | (simp; rfl)
@[simp] theorem abandonMotor_nv_banks (s : State) (x : Axis) : (abandonMotor s x).nv.banks = s.nv.banks := by simp [abandonMotor]
@[simp] theorem requestStop_nv_banks (s : State) (x : Axis) (k : StopKind) : (requestStop s x k).nv.banks = s.nv.banks := by simp [requestStop]
@[simp] theorem raise_nv_banks (s : State) (c : BitVec 16) (sc d : BitVec 8) (v : F32) (a : Bool) : (raise s c sc d v a).nv.banks = s.nv.banks := by
  simp only [raise]; split
  · refine (foldl_keeps (p := fun (g : State) => g.nv.banks) _ ?_ _ _).trans ?_
    · intro g x; simp
    · simp
  · simp
@[simp] theorem raise0_nv_banks (s : State) (c : BitVec 16) (sc d : BitVec 8) : (raise0 s c sc d).nv.banks = s.nv.banks := by simp [raise0]
@[simp] theorem raise1_nv_banks (s : State) (c : BitVec 16) (sc d : BitVec 8) : (raise1 s c sc d).nv.banks = s.nv.banks := by simp [raise1]
/-! MRAM: place -/
@[simp] theorem logIt_nv_place (s : State) (e : LogEntry) : (logIt s e).nv.place = s.nv.place := by rfl
@[simp] theorem logRaise_nv_place (s : State) (c : BitVec 16) (sc d : BitVec 8) (v : F32) : (logRaise s c sc d v).nv.place = s.nv.place := by simp only [logRaise]; split <;> first | rfl | (simp; done) | (simp; rfl)
@[simp] theorem enterList_nv_place (s : State) (c : BitVec 16) (sc d : BitVec 8) (a : Bool) : (enterList s c sc d a).nv.place = s.nv.place := by simp only [enterList]; (try split) <;> (try split) <;> (try split) <;> first | rfl | (simp; done) | (simp; rfl)
@[simp] theorem record_nv_place (s : State) (c : BitVec 16) (sc d : BitVec 8) (v : F32) (a : Bool) : (record s c sc d v a).nv.place = s.nv.place := by simp only [record]; split <;> first | rfl | (simp; done) | (simp; rfl)
@[simp] theorem leaveList_nv_place (s : State) (e : FaultEntry) (n : Nat) : (leaveList s e n).nv.place = s.nv.place := by simp [leaveList]
@[simp] theorem endCause_nv_place (s : State) (c : BitVec 16) (sc d : BitVec 8) : (endCause s c sc d).nv.place = s.nv.place := by simp only [endCause]; (try split) <;> (try split) <;> (try split) <;> first | rfl | (simp; done) | (simp; rfl)
@[simp] theorem endMotor_nv_place (s : State) (x : Axis) : (endMotor s x).nv.place = s.nv.place := by simp only [endMotor]; (try split) <;> (try split) <;> first | rfl | (simp; done) | (simp; rfl)
@[simp] theorem abandonMotor_nv_place (s : State) (x : Axis) : (abandonMotor s x).nv.place = s.nv.place := by simp [abandonMotor]
@[simp] theorem requestStop_nv_place (s : State) (x : Axis) (k : StopKind) : (requestStop s x k).nv.place = s.nv.place := by simp [requestStop]
@[simp] theorem raise_nv_place (s : State) (c : BitVec 16) (sc d : BitVec 8) (v : F32) (a : Bool) : (raise s c sc d v a).nv.place = s.nv.place := by
  simp only [raise]; split
  · refine (foldl_keeps (p := fun (g : State) => g.nv.place) _ ?_ _ _).trans ?_
    · intro g x; simp
    · simp
  · simp
@[simp] theorem raise0_nv_place (s : State) (c : BitVec 16) (sc d : BitVec 8) : (raise0 s c sc d).nv.place = s.nv.place := by simp [raise0]
@[simp] theorem raise1_nv_place (s : State) (c : BitVec 16) (sc d : BitVec 8) : (raise1 s c sc d).nv.place = s.nv.place := by simp [raise1]
/-! MRAM: segs -/
@[simp] theorem logIt_nv_segs (s : State) (e : LogEntry) : (logIt s e).nv.segs = s.nv.segs := by rfl
@[simp] theorem logRaise_nv_segs (s : State) (c : BitVec 16) (sc d : BitVec 8) (v : F32) : (logRaise s c sc d v).nv.segs = s.nv.segs := by simp only [logRaise]; split <;> first | rfl | (simp; done) | (simp; rfl)
@[simp] theorem enterList_nv_segs (s : State) (c : BitVec 16) (sc d : BitVec 8) (a : Bool) : (enterList s c sc d a).nv.segs = s.nv.segs := by simp only [enterList]; (try split) <;> (try split) <;> (try split) <;> first | rfl | (simp; done) | (simp; rfl)
@[simp] theorem record_nv_segs (s : State) (c : BitVec 16) (sc d : BitVec 8) (v : F32) (a : Bool) : (record s c sc d v a).nv.segs = s.nv.segs := by simp only [record]; split <;> first | rfl | (simp; done) | (simp; rfl)
@[simp] theorem leaveList_nv_segs (s : State) (e : FaultEntry) (n : Nat) : (leaveList s e n).nv.segs = s.nv.segs := by simp [leaveList]
@[simp] theorem endCause_nv_segs (s : State) (c : BitVec 16) (sc d : BitVec 8) : (endCause s c sc d).nv.segs = s.nv.segs := by simp only [endCause]; (try split) <;> (try split) <;> (try split) <;> first | rfl | (simp; done) | (simp; rfl)
@[simp] theorem endMotor_nv_segs (s : State) (x : Axis) : (endMotor s x).nv.segs = s.nv.segs := by simp only [endMotor]; (try split) <;> (try split) <;> first | rfl | (simp; done) | (simp; rfl)
@[simp] theorem abandonMotor_nv_segs (s : State) (x : Axis) : (abandonMotor s x).nv.segs = s.nv.segs := by simp [abandonMotor]
@[simp] theorem requestStop_nv_segs (s : State) (x : Axis) (k : StopKind) : (requestStop s x k).nv.segs = s.nv.segs := by simp [requestStop]
@[simp] theorem raise_nv_segs (s : State) (c : BitVec 16) (sc d : BitVec 8) (v : F32) (a : Bool) : (raise s c sc d v a).nv.segs = s.nv.segs := by
  simp only [raise]; split
  · refine (foldl_keeps (p := fun (g : State) => g.nv.segs) _ ?_ _ _).trans ?_
    · intro g x; simp
    · simp
  · simp
@[simp] theorem raise0_nv_segs (s : State) (c : BitVec 16) (sc d : BitVec 8) : (raise0 s c sc d).nv.segs = s.nv.segs := by simp [raise0]
@[simp] theorem raise1_nv_segs (s : State) (c : BitVec 16) (sc d : BitVec 8) : (raise1 s c sc d).nv.segs = s.nv.segs := by simp [raise1]
/-! MRAM: pfOpen -/
@[simp] theorem logIt_nv_pfOpen (s : State) (e : LogEntry) : (logIt s e).nv.pfOpen = s.nv.pfOpen := by rfl
@[simp] theorem logRaise_nv_pfOpen (s : State) (c : BitVec 16) (sc d : BitVec 8) (v : F32) : (logRaise s c sc d v).nv.pfOpen = s.nv.pfOpen := by simp only [logRaise]; split <;> first | rfl | (simp; done) | (simp; rfl)
@[simp] theorem enterList_nv_pfOpen (s : State) (c : BitVec 16) (sc d : BitVec 8) (a : Bool) : (enterList s c sc d a).nv.pfOpen = s.nv.pfOpen := by simp only [enterList]; (try split) <;> (try split) <;> (try split) <;> first | rfl | (simp; done) | (simp; rfl)
@[simp] theorem record_nv_pfOpen (s : State) (c : BitVec 16) (sc d : BitVec 8) (v : F32) (a : Bool) : (record s c sc d v a).nv.pfOpen = s.nv.pfOpen := by simp only [record]; split <;> first | rfl | (simp; done) | (simp; rfl)
@[simp] theorem leaveList_nv_pfOpen (s : State) (e : FaultEntry) (n : Nat) : (leaveList s e n).nv.pfOpen = s.nv.pfOpen := by simp [leaveList]
@[simp] theorem endCause_nv_pfOpen (s : State) (c : BitVec 16) (sc d : BitVec 8) : (endCause s c sc d).nv.pfOpen = s.nv.pfOpen := by simp only [endCause]; (try split) <;> (try split) <;> (try split) <;> first | rfl | (simp; done) | (simp; rfl)
@[simp] theorem endMotor_nv_pfOpen (s : State) (x : Axis) : (endMotor s x).nv.pfOpen = s.nv.pfOpen := by simp only [endMotor]; (try split) <;> (try split) <;> first | rfl | (simp; done) | (simp; rfl)
@[simp] theorem abandonMotor_nv_pfOpen (s : State) (x : Axis) : (abandonMotor s x).nv.pfOpen = s.nv.pfOpen := by simp [abandonMotor]
@[simp] theorem requestStop_nv_pfOpen (s : State) (x : Axis) (k : StopKind) : (requestStop s x k).nv.pfOpen = s.nv.pfOpen := by simp [requestStop]
@[simp] theorem raise_nv_pfOpen (s : State) (c : BitVec 16) (sc d : BitVec 8) (v : F32) (a : Bool) : (raise s c sc d v a).nv.pfOpen = s.nv.pfOpen := by
  simp only [raise]; split
  · refine (foldl_keeps (p := fun (g : State) => g.nv.pfOpen) _ ?_ _ _).trans ?_
    · intro g x; simp
    · simp
  · simp
@[simp] theorem raise0_nv_pfOpen (s : State) (c : BitVec 16) (sc d : BitVec 8) : (raise0 s c sc d).nv.pfOpen = s.nv.pfOpen := by simp [raise0]
@[simp] theorem raise1_nv_pfOpen (s : State) (c : BitVec 16) (sc d : BitVec 8) : (raise1 s c sc d).nv.pfOpen = s.nv.pfOpen := by simp [raise1]
/-! MRAM: posA -/
@[simp] theorem logIt_nv_posA (s : State) (e : LogEntry) : (logIt s e).nv.posA = s.nv.posA := by rfl
@[simp] theorem logRaise_nv_posA (s : State) (c : BitVec 16) (sc d : BitVec 8) (v : F32) : (logRaise s c sc d v).nv.posA = s.nv.posA := by simp only [logRaise]; split <;> first | rfl | (simp; done) | (simp; rfl)
@[simp] theorem enterList_nv_posA (s : State) (c : BitVec 16) (sc d : BitVec 8) (a : Bool) : (enterList s c sc d a).nv.posA = s.nv.posA := by simp only [enterList]; (try split) <;> (try split) <;> (try split) <;> first | rfl | (simp; done) | (simp; rfl)
@[simp] theorem record_nv_posA (s : State) (c : BitVec 16) (sc d : BitVec 8) (v : F32) (a : Bool) : (record s c sc d v a).nv.posA = s.nv.posA := by simp only [record]; split <;> first | rfl | (simp; done) | (simp; rfl)
@[simp] theorem leaveList_nv_posA (s : State) (e : FaultEntry) (n : Nat) : (leaveList s e n).nv.posA = s.nv.posA := by simp [leaveList]
@[simp] theorem endCause_nv_posA (s : State) (c : BitVec 16) (sc d : BitVec 8) : (endCause s c sc d).nv.posA = s.nv.posA := by simp only [endCause]; (try split) <;> (try split) <;> (try split) <;> first | rfl | (simp; done) | (simp; rfl)
@[simp] theorem endMotor_nv_posA (s : State) (x : Axis) : (endMotor s x).nv.posA = s.nv.posA := by simp only [endMotor]; (try split) <;> (try split) <;> first | rfl | (simp; done) | (simp; rfl)
@[simp] theorem abandonMotor_nv_posA (s : State) (x : Axis) : (abandonMotor s x).nv.posA = s.nv.posA := by simp [abandonMotor]
@[simp] theorem requestStop_nv_posA (s : State) (x : Axis) (k : StopKind) : (requestStop s x k).nv.posA = s.nv.posA := by simp [requestStop]
@[simp] theorem raise_nv_posA (s : State) (c : BitVec 16) (sc d : BitVec 8) (v : F32) (a : Bool) : (raise s c sc d v a).nv.posA = s.nv.posA := by
  simp only [raise]; split
  · refine (foldl_keeps (p := fun (g : State) => g.nv.posA) _ ?_ _ _).trans ?_
    · intro g x; simp
    · simp
  · simp
@[simp] theorem raise0_nv_posA (s : State) (c : BitVec 16) (sc d : BitVec 8) : (raise0 s c sc d).nv.posA = s.nv.posA := by simp [raise0]
@[simp] theorem raise1_nv_posA (s : State) (c : BitVec 16) (sc d : BitVec 8) : (raise1 s c sc d).nv.posA = s.nv.posA := by simp [raise1]
/-! MRAM: posB -/
@[simp] theorem logIt_nv_posB (s : State) (e : LogEntry) : (logIt s e).nv.posB = s.nv.posB := by rfl
@[simp] theorem logRaise_nv_posB (s : State) (c : BitVec 16) (sc d : BitVec 8) (v : F32) : (logRaise s c sc d v).nv.posB = s.nv.posB := by simp only [logRaise]; split <;> first | rfl | (simp; done) | (simp; rfl)
@[simp] theorem enterList_nv_posB (s : State) (c : BitVec 16) (sc d : BitVec 8) (a : Bool) : (enterList s c sc d a).nv.posB = s.nv.posB := by simp only [enterList]; (try split) <;> (try split) <;> (try split) <;> first | rfl | (simp; done) | (simp; rfl)
@[simp] theorem record_nv_posB (s : State) (c : BitVec 16) (sc d : BitVec 8) (v : F32) (a : Bool) : (record s c sc d v a).nv.posB = s.nv.posB := by simp only [record]; split <;> first | rfl | (simp; done) | (simp; rfl)
@[simp] theorem leaveList_nv_posB (s : State) (e : FaultEntry) (n : Nat) : (leaveList s e n).nv.posB = s.nv.posB := by simp [leaveList]
@[simp] theorem endCause_nv_posB (s : State) (c : BitVec 16) (sc d : BitVec 8) : (endCause s c sc d).nv.posB = s.nv.posB := by simp only [endCause]; (try split) <;> (try split) <;> (try split) <;> first | rfl | (simp; done) | (simp; rfl)
@[simp] theorem endMotor_nv_posB (s : State) (x : Axis) : (endMotor s x).nv.posB = s.nv.posB := by simp only [endMotor]; (try split) <;> (try split) <;> first | rfl | (simp; done) | (simp; rfl)
@[simp] theorem abandonMotor_nv_posB (s : State) (x : Axis) : (abandonMotor s x).nv.posB = s.nv.posB := by simp [abandonMotor]
@[simp] theorem requestStop_nv_posB (s : State) (x : Axis) (k : StopKind) : (requestStop s x k).nv.posB = s.nv.posB := by simp [requestStop]
@[simp] theorem raise_nv_posB (s : State) (c : BitVec 16) (sc d : BitVec 8) (v : F32) (a : Bool) : (raise s c sc d v a).nv.posB = s.nv.posB := by
  simp only [raise]; split
  · refine (foldl_keeps (p := fun (g : State) => g.nv.posB) _ ?_ _ _).trans ?_
    · intro g x; simp
    · simp
  · simp
@[simp] theorem raise0_nv_posB (s : State) (c : BitVec 16) (sc d : BitVec 8) : (raise0 s c sc d).nv.posB = s.nv.posB := by simp [raise0]
@[simp] theorem raise1_nv_posB (s : State) (c : BitVec 16) (sc d : BitVec 8) : (raise1 s c sc d).nv.posB = s.nv.posB := by simp [raise1]
/-! MRAM: bootCount -/
@[simp] theorem logIt_nv_bootCount (s : State) (e : LogEntry) : (logIt s e).nv.bootCount = s.nv.bootCount := by rfl
@[simp] theorem logRaise_nv_bootCount (s : State) (c : BitVec 16) (sc d : BitVec 8) (v : F32) : (logRaise s c sc d v).nv.bootCount = s.nv.bootCount := by simp only [logRaise]; split <;> first | rfl | (simp; done) | (simp; rfl)
@[simp] theorem enterList_nv_bootCount (s : State) (c : BitVec 16) (sc d : BitVec 8) (a : Bool) : (enterList s c sc d a).nv.bootCount = s.nv.bootCount := by simp only [enterList]; (try split) <;> (try split) <;> (try split) <;> first | rfl | (simp; done) | (simp; rfl)
@[simp] theorem record_nv_bootCount (s : State) (c : BitVec 16) (sc d : BitVec 8) (v : F32) (a : Bool) : (record s c sc d v a).nv.bootCount = s.nv.bootCount := by simp only [record]; split <;> first | rfl | (simp; done) | (simp; rfl)
@[simp] theorem leaveList_nv_bootCount (s : State) (e : FaultEntry) (n : Nat) : (leaveList s e n).nv.bootCount = s.nv.bootCount := by simp [leaveList]
@[simp] theorem endCause_nv_bootCount (s : State) (c : BitVec 16) (sc d : BitVec 8) : (endCause s c sc d).nv.bootCount = s.nv.bootCount := by simp only [endCause]; (try split) <;> (try split) <;> (try split) <;> first | rfl | (simp; done) | (simp; rfl)
@[simp] theorem endMotor_nv_bootCount (s : State) (x : Axis) : (endMotor s x).nv.bootCount = s.nv.bootCount := by simp only [endMotor]; (try split) <;> (try split) <;> first | rfl | (simp; done) | (simp; rfl)
@[simp] theorem abandonMotor_nv_bootCount (s : State) (x : Axis) : (abandonMotor s x).nv.bootCount = s.nv.bootCount := by simp [abandonMotor]
@[simp] theorem requestStop_nv_bootCount (s : State) (x : Axis) (k : StopKind) : (requestStop s x k).nv.bootCount = s.nv.bootCount := by simp [requestStop]
@[simp] theorem raise_nv_bootCount (s : State) (c : BitVec 16) (sc d : BitVec 8) (v : F32) (a : Bool) : (raise s c sc d v a).nv.bootCount = s.nv.bootCount := by
  simp only [raise]; split
  · refine (foldl_keeps (p := fun (g : State) => g.nv.bootCount) _ ?_ _ _).trans ?_
    · intro g x; simp
    · simp
  · simp
@[simp] theorem raise0_nv_bootCount (s : State) (c : BitVec 16) (sc d : BitVec 8) : (raise0 s c sc d).nv.bootCount = s.nv.bootCount := by simp [raise0]
@[simp] theorem raise1_nv_bootCount (s : State) (c : BitVec 16) (sc d : BitVec 8) : (raise1 s c sc d).nv.bootCount = s.nv.bootCount := by simp [raise1]
/-! MRAM: slotA -/
@[simp] theorem logIt_nv_slotA (s : State) (e : LogEntry) : (logIt s e).nv.slotA = s.nv.slotA := by rfl
@[simp] theorem logRaise_nv_slotA (s : State) (c : BitVec 16) (sc d : BitVec 8) (v : F32) : (logRaise s c sc d v).nv.slotA = s.nv.slotA := by simp only [logRaise]; split <;> first | rfl | (simp; done) | (simp; rfl)
@[simp] theorem enterList_nv_slotA (s : State) (c : BitVec 16) (sc d : BitVec 8) (a : Bool) : (enterList s c sc d a).nv.slotA = s.nv.slotA := by simp only [enterList]; (try split) <;> (try split) <;> (try split) <;> first | rfl | (simp; done) | (simp; rfl)
@[simp] theorem record_nv_slotA (s : State) (c : BitVec 16) (sc d : BitVec 8) (v : F32) (a : Bool) : (record s c sc d v a).nv.slotA = s.nv.slotA := by simp only [record]; split <;> first | rfl | (simp; done) | (simp; rfl)
@[simp] theorem leaveList_nv_slotA (s : State) (e : FaultEntry) (n : Nat) : (leaveList s e n).nv.slotA = s.nv.slotA := by simp [leaveList]
@[simp] theorem endCause_nv_slotA (s : State) (c : BitVec 16) (sc d : BitVec 8) : (endCause s c sc d).nv.slotA = s.nv.slotA := by simp only [endCause]; (try split) <;> (try split) <;> (try split) <;> first | rfl | (simp; done) | (simp; rfl)
@[simp] theorem endMotor_nv_slotA (s : State) (x : Axis) : (endMotor s x).nv.slotA = s.nv.slotA := by simp only [endMotor]; (try split) <;> (try split) <;> first | rfl | (simp; done) | (simp; rfl)
@[simp] theorem abandonMotor_nv_slotA (s : State) (x : Axis) : (abandonMotor s x).nv.slotA = s.nv.slotA := by simp [abandonMotor]
@[simp] theorem requestStop_nv_slotA (s : State) (x : Axis) (k : StopKind) : (requestStop s x k).nv.slotA = s.nv.slotA := by simp [requestStop]
@[simp] theorem raise_nv_slotA (s : State) (c : BitVec 16) (sc d : BitVec 8) (v : F32) (a : Bool) : (raise s c sc d v a).nv.slotA = s.nv.slotA := by
  simp only [raise]; split
  · refine (foldl_keeps (p := fun (g : State) => g.nv.slotA) _ ?_ _ _).trans ?_
    · intro g x; simp
    · simp
  · simp
@[simp] theorem raise0_nv_slotA (s : State) (c : BitVec 16) (sc d : BitVec 8) : (raise0 s c sc d).nv.slotA = s.nv.slotA := by simp [raise0]
@[simp] theorem raise1_nv_slotA (s : State) (c : BitVec 16) (sc d : BitVec 8) : (raise1 s c sc d).nv.slotA = s.nv.slotA := by simp [raise1]
/-! MRAM: slotB -/
@[simp] theorem logIt_nv_slotB (s : State) (e : LogEntry) : (logIt s e).nv.slotB = s.nv.slotB := by rfl
@[simp] theorem logRaise_nv_slotB (s : State) (c : BitVec 16) (sc d : BitVec 8) (v : F32) : (logRaise s c sc d v).nv.slotB = s.nv.slotB := by simp only [logRaise]; split <;> first | rfl | (simp; done) | (simp; rfl)
@[simp] theorem enterList_nv_slotB (s : State) (c : BitVec 16) (sc d : BitVec 8) (a : Bool) : (enterList s c sc d a).nv.slotB = s.nv.slotB := by simp only [enterList]; (try split) <;> (try split) <;> (try split) <;> first | rfl | (simp; done) | (simp; rfl)
@[simp] theorem record_nv_slotB (s : State) (c : BitVec 16) (sc d : BitVec 8) (v : F32) (a : Bool) : (record s c sc d v a).nv.slotB = s.nv.slotB := by simp only [record]; split <;> first | rfl | (simp; done) | (simp; rfl)
@[simp] theorem leaveList_nv_slotB (s : State) (e : FaultEntry) (n : Nat) : (leaveList s e n).nv.slotB = s.nv.slotB := by simp [leaveList]
@[simp] theorem endCause_nv_slotB (s : State) (c : BitVec 16) (sc d : BitVec 8) : (endCause s c sc d).nv.slotB = s.nv.slotB := by simp only [endCause]; (try split) <;> (try split) <;> (try split) <;> first | rfl | (simp; done) | (simp; rfl)
@[simp] theorem endMotor_nv_slotB (s : State) (x : Axis) : (endMotor s x).nv.slotB = s.nv.slotB := by simp only [endMotor]; (try split) <;> (try split) <;> first | rfl | (simp; done) | (simp; rfl)
@[simp] theorem abandonMotor_nv_slotB (s : State) (x : Axis) : (abandonMotor s x).nv.slotB = s.nv.slotB := by simp [abandonMotor]
@[simp] theorem requestStop_nv_slotB (s : State) (x : Axis) (k : StopKind) : (requestStop s x k).nv.slotB = s.nv.slotB := by simp [requestStop]
@[simp] theorem raise_nv_slotB (s : State) (c : BitVec 16) (sc d : BitVec 8) (v : F32) (a : Bool) : (raise s c sc d v a).nv.slotB = s.nv.slotB := by
  simp only [raise]; split
  · refine (foldl_keeps (p := fun (g : State) => g.nv.slotB) _ ?_ _ _).trans ?_
    · intro g x; simp
    · simp
  · simp
@[simp] theorem raise0_nv_slotB (s : State) (c : BitVec 16) (sc d : BitVec 8) : (raise0 s c sc d).nv.slotB = s.nv.slotB := by simp [raise0]
@[simp] theorem raise1_nv_slotB (s : State) (c : BitVec 16) (sc d : BitVec 8) : (raise1 s c sc d).nv.slotB = s.nv.slotB := by simp [raise1]
/-! MRAM: audit -/
@[simp] theorem logIt_nv_audit (s : State) (e : LogEntry) : (logIt s e).nv.audit = s.nv.audit := by rfl
@[simp] theorem logRaise_nv_audit (s : State) (c : BitVec 16) (sc d : BitVec 8) (v : F32) : (logRaise s c sc d v).nv.audit = s.nv.audit := by simp only [logRaise]; split <;> first | rfl | (simp; done) | (simp; rfl)
@[simp] theorem enterList_nv_audit (s : State) (c : BitVec 16) (sc d : BitVec 8) (a : Bool) : (enterList s c sc d a).nv.audit = s.nv.audit := by simp only [enterList]; (try split) <;> (try split) <;> (try split) <;> first | rfl | (simp; done) | (simp; rfl)
@[simp] theorem record_nv_audit (s : State) (c : BitVec 16) (sc d : BitVec 8) (v : F32) (a : Bool) : (record s c sc d v a).nv.audit = s.nv.audit := by simp only [record]; split <;> first | rfl | (simp; done) | (simp; rfl)
@[simp] theorem leaveList_nv_audit (s : State) (e : FaultEntry) (n : Nat) : (leaveList s e n).nv.audit = s.nv.audit := by simp [leaveList]
@[simp] theorem endCause_nv_audit (s : State) (c : BitVec 16) (sc d : BitVec 8) : (endCause s c sc d).nv.audit = s.nv.audit := by simp only [endCause]; (try split) <;> (try split) <;> (try split) <;> first | rfl | (simp; done) | (simp; rfl)
@[simp] theorem endMotor_nv_audit (s : State) (x : Axis) : (endMotor s x).nv.audit = s.nv.audit := by simp only [endMotor]; (try split) <;> (try split) <;> first | rfl | (simp; done) | (simp; rfl)
@[simp] theorem abandonMotor_nv_audit (s : State) (x : Axis) : (abandonMotor s x).nv.audit = s.nv.audit := by simp [abandonMotor]
@[simp] theorem requestStop_nv_audit (s : State) (x : Axis) (k : StopKind) : (requestStop s x k).nv.audit = s.nv.audit := by simp [requestStop]
@[simp] theorem raise_nv_audit (s : State) (c : BitVec 16) (sc d : BitVec 8) (v : F32) (a : Bool) : (raise s c sc d v a).nv.audit = s.nv.audit := by
  simp only [raise]; split
  · refine (foldl_keeps (p := fun (g : State) => g.nv.audit) _ ?_ _ _).trans ?_
    · intro g x; simp
    · simp
  · simp
@[simp] theorem raise0_nv_audit (s : State) (c : BitVec 16) (sc d : BitVec 8) : (raise0 s c sc d).nv.audit = s.nv.audit := by simp [raise0]
@[simp] theorem raise1_nv_audit (s : State) (c : BitVec 16) (sc d : BitVec 8) : (raise1 s c sc d).nv.audit = s.nv.audit := by simp [raise1]
/-! MRAM: auditSeq -/
@[simp] theorem logIt_nv_auditSeq (s : State) (e : LogEntry) : (logIt s e).nv.auditSeq = s.nv.auditSeq := by rfl
@[simp] theorem logRaise_nv_auditSeq (s : State) (c : BitVec 16) (sc d : BitVec 8) (v : F32) : (logRaise s c sc d v).nv.auditSeq = s.nv.auditSeq := by simp only [logRaise]; split <;> first | rfl | (simp; done) | (simp; rfl)
@[simp] theorem enterList_nv_auditSeq (s : State) (c : BitVec 16) (sc d : BitVec 8) (a : Bool) : (enterList s c sc d a).nv.auditSeq = s.nv.auditSeq := by simp only [enterList]; (try split) <;> (try split) <;> (try split) <;> first | rfl | (simp; done) | (simp; rfl)
@[simp] theorem record_nv_auditSeq (s : State) (c : BitVec 16) (sc d : BitVec 8) (v : F32) (a : Bool) : (record s c sc d v a).nv.auditSeq = s.nv.auditSeq := by simp only [record]; split <;> first | rfl | (simp; done) | (simp; rfl)
@[simp] theorem leaveList_nv_auditSeq (s : State) (e : FaultEntry) (n : Nat) : (leaveList s e n).nv.auditSeq = s.nv.auditSeq := by simp [leaveList]
@[simp] theorem endCause_nv_auditSeq (s : State) (c : BitVec 16) (sc d : BitVec 8) : (endCause s c sc d).nv.auditSeq = s.nv.auditSeq := by simp only [endCause]; (try split) <;> (try split) <;> (try split) <;> first | rfl | (simp; done) | (simp; rfl)
@[simp] theorem endMotor_nv_auditSeq (s : State) (x : Axis) : (endMotor s x).nv.auditSeq = s.nv.auditSeq := by simp only [endMotor]; (try split) <;> (try split) <;> first | rfl | (simp; done) | (simp; rfl)
@[simp] theorem abandonMotor_nv_auditSeq (s : State) (x : Axis) : (abandonMotor s x).nv.auditSeq = s.nv.auditSeq := by simp [abandonMotor]
@[simp] theorem requestStop_nv_auditSeq (s : State) (x : Axis) (k : StopKind) : (requestStop s x k).nv.auditSeq = s.nv.auditSeq := by simp [requestStop]
@[simp] theorem raise_nv_auditSeq (s : State) (c : BitVec 16) (sc d : BitVec 8) (v : F32) (a : Bool) : (raise s c sc d v a).nv.auditSeq = s.nv.auditSeq := by
  simp only [raise]; split
  · refine (foldl_keeps (p := fun (g : State) => g.nv.auditSeq) _ ?_ _ _).trans ?_
    · intro g x; simp
    · simp
  · simp
@[simp] theorem raise0_nv_auditSeq (s : State) (c : BitVec 16) (sc d : BitVec 8) : (raise0 s c sc d).nv.auditSeq = s.nv.auditSeq := by simp [raise0]
@[simp] theorem raise1_nv_auditSeq (s : State) (c : BitVec 16) (sc d : BitVec 8) : (raise1 s c sc d).nv.auditSeq = s.nv.auditSeq := by simp [raise1]
/-! MRAM: decl -/
@[simp] theorem logIt_nv_decl (s : State) (e : LogEntry) : (logIt s e).nv.decl = s.nv.decl := by rfl
@[simp] theorem logRaise_nv_decl (s : State) (c : BitVec 16) (sc d : BitVec 8) (v : F32) : (logRaise s c sc d v).nv.decl = s.nv.decl := by simp only [logRaise]; split <;> first | rfl | (simp; done) | (simp; rfl)
@[simp] theorem enterList_nv_decl (s : State) (c : BitVec 16) (sc d : BitVec 8) (a : Bool) : (enterList s c sc d a).nv.decl = s.nv.decl := by simp only [enterList]; (try split) <;> (try split) <;> (try split) <;> first | rfl | (simp; done) | (simp; rfl)
@[simp] theorem record_nv_decl (s : State) (c : BitVec 16) (sc d : BitVec 8) (v : F32) (a : Bool) : (record s c sc d v a).nv.decl = s.nv.decl := by simp only [record]; split <;> first | rfl | (simp; done) | (simp; rfl)
@[simp] theorem leaveList_nv_decl (s : State) (e : FaultEntry) (n : Nat) : (leaveList s e n).nv.decl = s.nv.decl := by simp [leaveList]
@[simp] theorem endCause_nv_decl (s : State) (c : BitVec 16) (sc d : BitVec 8) : (endCause s c sc d).nv.decl = s.nv.decl := by simp only [endCause]; (try split) <;> (try split) <;> (try split) <;> first | rfl | (simp; done) | (simp; rfl)
@[simp] theorem endMotor_nv_decl (s : State) (x : Axis) : (endMotor s x).nv.decl = s.nv.decl := by simp only [endMotor]; (try split) <;> (try split) <;> first | rfl | (simp; done) | (simp; rfl)
@[simp] theorem abandonMotor_nv_decl (s : State) (x : Axis) : (abandonMotor s x).nv.decl = s.nv.decl := by simp [abandonMotor]
@[simp] theorem requestStop_nv_decl (s : State) (x : Axis) (k : StopKind) : (requestStop s x k).nv.decl = s.nv.decl := by simp [requestStop]
@[simp] theorem raise_nv_decl (s : State) (c : BitVec 16) (sc d : BitVec 8) (v : F32) (a : Bool) : (raise s c sc d v a).nv.decl = s.nv.decl := by
  simp only [raise]; split
  · refine (foldl_keeps (p := fun (g : State) => g.nv.decl) _ ?_ _ _).trans ?_
    · intro g x; simp
    · simp
  · simp
@[simp] theorem raise0_nv_decl (s : State) (c : BitVec 16) (sc d : BitVec 8) : (raise0 s c sc d).nv.decl = s.nv.decl := by simp [raise0]
@[simp] theorem raise1_nv_decl (s : State) (c : BitVec 16) (sc d : BitVec 8) : (raise1 s c sc d).nv.decl = s.nv.decl := by simp [raise1]
/-! MRAM: eraseOpen -/
@[simp] theorem logIt_nv_eraseOpen (s : State) (e : LogEntry) : (logIt s e).nv.eraseOpen = s.nv.eraseOpen := by rfl
@[simp] theorem logRaise_nv_eraseOpen (s : State) (c : BitVec 16) (sc d : BitVec 8) (v : F32) : (logRaise s c sc d v).nv.eraseOpen = s.nv.eraseOpen := by simp only [logRaise]; split <;> first | rfl | (simp; done) | (simp; rfl)
@[simp] theorem enterList_nv_eraseOpen (s : State) (c : BitVec 16) (sc d : BitVec 8) (a : Bool) : (enterList s c sc d a).nv.eraseOpen = s.nv.eraseOpen := by simp only [enterList]; (try split) <;> (try split) <;> (try split) <;> first | rfl | (simp; done) | (simp; rfl)
@[simp] theorem record_nv_eraseOpen (s : State) (c : BitVec 16) (sc d : BitVec 8) (v : F32) (a : Bool) : (record s c sc d v a).nv.eraseOpen = s.nv.eraseOpen := by simp only [record]; split <;> first | rfl | (simp; done) | (simp; rfl)
@[simp] theorem leaveList_nv_eraseOpen (s : State) (e : FaultEntry) (n : Nat) : (leaveList s e n).nv.eraseOpen = s.nv.eraseOpen := by simp [leaveList]
@[simp] theorem endCause_nv_eraseOpen (s : State) (c : BitVec 16) (sc d : BitVec 8) : (endCause s c sc d).nv.eraseOpen = s.nv.eraseOpen := by simp only [endCause]; (try split) <;> (try split) <;> (try split) <;> first | rfl | (simp; done) | (simp; rfl)
@[simp] theorem endMotor_nv_eraseOpen (s : State) (x : Axis) : (endMotor s x).nv.eraseOpen = s.nv.eraseOpen := by simp only [endMotor]; (try split) <;> (try split) <;> first | rfl | (simp; done) | (simp; rfl)
@[simp] theorem abandonMotor_nv_eraseOpen (s : State) (x : Axis) : (abandonMotor s x).nv.eraseOpen = s.nv.eraseOpen := by simp [abandonMotor]
@[simp] theorem requestStop_nv_eraseOpen (s : State) (x : Axis) (k : StopKind) : (requestStop s x k).nv.eraseOpen = s.nv.eraseOpen := by simp [requestStop]
@[simp] theorem raise_nv_eraseOpen (s : State) (c : BitVec 16) (sc d : BitVec 8) (v : F32) (a : Bool) : (raise s c sc d v a).nv.eraseOpen = s.nv.eraseOpen := by
  simp only [raise]; split
  · refine (foldl_keeps (p := fun (g : State) => g.nv.eraseOpen) _ ?_ _ _).trans ?_
    · intro g x; simp
    · simp
  · simp
@[simp] theorem raise0_nv_eraseOpen (s : State) (c : BitVec 16) (sc d : BitVec 8) : (raise0 s c sc d).nv.eraseOpen = s.nv.eraseOpen := by simp [raise0]
@[simp] theorem raise1_nv_eraseOpen (s : State) (c : BitVec 16) (sc d : BitVec 8) : (raise1 s c sc d).nv.eraseOpen = s.nv.eraseOpen := by simp [raise1]

/-! The outcome of a command in a calm state. -/

theorem endE2_calm {s : State} (h : s.bus.e2 = false) : endE2 s = s := by simp [endE2, h]
theorem waitingReset_calm {s : State} (h : s.sum.wdogWait = false) (h2 : s.mbx.rebootAt = none) : waitingReset s = s := by
  simp [waitingReset, h, h2]
/-- Nothing visible moves. -/
theorem settle_keep {z s : State} (h1 : pwrState z = pwrState s) (h2 : z.axes = s.axes) : settle z s = s := by
  simp [settle, h1, h2]
/-- A command that leaves power state and axes ends in exactly the state its meaning gives. -/
theorem done_still {z s : State} (e : s.bus.e2 = false) (w : s.sum.wdogWait = false) (r : s.mbx.rebootAt = none)
    (h1 : pwrState z = pwrState s) (h2 : z.axes = s.axes) : done z s = .next s := by
  simp [done, endE2_calm e, waitingReset_calm w r, settle_keep h1 h2]
/-- In a calm state only the observers of power state and axis states follow. -/
theorem done_calm {z s : State} (e : s.bus.e2 = false) (w : s.sum.wdogWait = false) (r : s.mbx.rebootAt = none) :
    done z s = .next (settle z s) := by
  simp [done, endE2_calm e, waitingReset_calm w r]
theorem pwrState_keep {z s : State} (h1 : z.pwr = s.pwr) (h2 : z.boot.service = s.boot.service)
    (h3 : gatesOn z.axes.a = gatesOn s.axes.a) (h4 : gatesOn z.axes.b = gatesOn s.axes.b) : pwrState z = pwrState s := by
  simp [pwrState, pwrCode, anyRun, h1, h2, h3, h4]
@[simp] theorem when_eq (s s' : State) (c : Bool) : when_ s c s' = if c = true then done s s' else skip s := rfl
/-- A guarded effect whose guard holds. -/
theorem when_calm {s t : State} {c : Bool} (hc : c = true) (e : t.bus.e2 = false) (w : t.sum.wdogWait = false) (r : t.mbx.rebootAt = none) :
    when_ s c t = .next (settle s t) := by
  simp [hc, done_calm e w r]
theorem when_still {s t : State} {c : Bool} (hc : c = true) (e : t.bus.e2 = false) (w : t.sum.wdogWait = false) (r : t.mbx.rebootAt = none)
    (h1 : pwrState s = pwrState t) (h2 : s.axes = t.axes) : when_ s c t = .next t := by
  simp [hc, done_still e w r h1 h2]


end Sys2Proof.Machine
end

