-- ==== Sys2Proof/Laws/Maps.lean ====
section
/-!
SUPPORT. Sorted address maps: the canonical form, what every write keeps of it, and what a read after a write gives.
-/

namespace Sys2Proof.Laws
open Sys2Proof Sys2Proof.Machine
set_option Elab.async false

variable {α : Type}

/-- The tail of a rising map is rising. -/
theorem rising_tail {p : Nat × α} {m : List (Nat × α)} (h : Rising (p :: m)) : Rising m := (List.pairwise_cons.mp h).2
/-- The head of a rising map lies below the rest. -/
theorem rising_head {p : Nat × α} {m : List (Nat × α)} (h : Rising (p :: m)) : ∀ q ∈ m, p.1 < q.1 := (List.pairwise_cons.mp h).1

/-- The canonical form is: rising addresses, no entry that reads as an unlisted address. -/
theorem mapWf_iff [DecidableEq α] (d : α) : ∀ m : List (Nat × α), mapWf d m = true ↔ Rising m ∧ ∀ p ∈ m, p.2 ≠ d
  | [] => by simp [mapWf, Rising]
  | [(k, v)] => by simp [mapWf, Rising]
  | (k, v) :: (k', v') :: m => by
    have ih := mapWf_iff d ((k', v') :: m)
    simp only [mapWf, Bool.and_eq_true, decide_eq_true_eq, ih]
    constructor
    · rintro ⟨⟨hv, hk⟩, hr, hn⟩
      refine ⟨List.pairwise_cons.mpr ⟨fun q hq => ?_, hr⟩, fun p hp => ?_⟩
      · rcases List.mem_cons.mp hq with rfl | hq
        · exact hk
        · exact Nat.lt_trans hk (rising_head hr q hq)
      · rcases List.mem_cons.mp hp with rfl | hp
        · exact hv
        · exact hn p hp
    · rintro ⟨hr, hn⟩
      exact ⟨⟨hn _ List.mem_cons_self, rising_head hr _ List.mem_cons_self⟩, rising_tail hr, fun p hp => hn p (List.mem_cons_of_mem _ hp)⟩

/-- An address below every listed one is not listed. -/
theorem mapGet_below {m : List (Nat × α)} {a : Nat} (h : ∀ q ∈ m, a < q.1) : mapGet m a = none := by
  cases m with
  | nil => rfl
  | cons p m =>
    have := h p List.mem_cons_self
    simp only [mapGet]
    rw [if_neg (by omega), if_pos this]

/-- Reading where a value was put. -/
@[simp] theorem mapGet_mapPut_self (m : List (Nat × α)) (a : Nat) (v : α) : mapGet (mapPut m a v) a = some v := by
  induction m with
  | nil => simp [mapPut, mapGet]
  | cons p m ih =>
    obtain ⟨k, w⟩ := p
    simp only [mapPut]
    split
    · simp [mapGet]
    · split
      · simp [mapGet]
      · simp only [mapGet]; rw [if_neg (by omega), if_neg (by omega)]; exact ih

/-- Every entry of a map after a put is the new one or an old one. -/
theorem mem_mapPut {m : List (Nat × α)} {a : Nat} {v : α} {p : Nat × α} (h : p ∈ mapPut m a v) : p = (a, v) ∨ p ∈ m := by
  induction m with
  | nil => simpa [mapPut] using h
  | cons q m ih =>
    obtain ⟨k, w⟩ := q
    simp only [mapPut] at h
    split at h
    · rcases List.mem_cons.mp h with h | h
      · exact .inl h
      · exact .inr (List.mem_cons_of_mem _ h)
    · split at h
      · rcases List.mem_cons.mp h with h | h
        · exact .inl h
        · exact .inr h
      · rcases List.mem_cons.mp h with h | h
        · exact .inr (h ▸ List.mem_cons_self)
        · rcases ih h with h | h
          · exact .inl h
          · exact .inr (List.mem_cons_of_mem _ h)

/-- Every entry of a map after a removal is an old one. -/
theorem mem_mapDel {m : List (Nat × α)} {a : Nat} {p : Nat × α} (h : p ∈ mapDel m a) : p ∈ m := by
  induction m with
  | nil => simp [mapDel] at h
  | cons q m ih =>
    obtain ⟨k, w⟩ := q
    simp only [mapDel] at h
    split at h
    · exact List.mem_cons_of_mem _ h
    · rcases List.mem_cons.mp h with h | h
      · exact h ▸ List.mem_cons_self
      · exact List.mem_cons_of_mem _ (ih h)

/-- A put keeps a map rising. -/
theorem rising_mapPut {m : List (Nat × α)} (a : Nat) (v : α) (h : Rising m) : Rising (mapPut m a v) := by
  induction m with
  | nil => simp [mapPut, Rising]
  | cons p m ih =>
    obtain ⟨k, w⟩ := p
    have ht := rising_tail h; have hh := rising_head h
    simp only [mapPut]
    split
    · next e => subst e; exact List.pairwise_cons.mpr ⟨hh, ht⟩
    · split
      · next l =>
        refine List.pairwise_cons.mpr ⟨fun q hq => ?_, h⟩
        rcases List.mem_cons.mp hq with rfl | hq
        · exact l
        · exact Nat.lt_trans l (hh q hq)
      · next n l =>
        refine List.pairwise_cons.mpr ⟨fun q hq => ?_, ih ht⟩
        rcases mem_mapPut hq with rfl | hq
        · simp only; omega
        · exact hh q hq

/-- A removal keeps a map rising. -/
theorem rising_mapDel {m : List (Nat × α)} (a : Nat) (h : Rising m) : Rising (mapDel m a) := by
  induction m with
  | nil => simp [mapDel, Rising]
  | cons p m ih =>
    obtain ⟨k, w⟩ := p
    have ht := rising_tail h; have hh := rising_head h
    simp only [mapDel]
    split
    · exact ht
    · exact List.pairwise_cons.mpr ⟨fun q hq => hh q (mem_mapDel hq), ih ht⟩

/-- Reading elsewhere than a value was put. -/
theorem mapGet_mapPut_ne {m : List (Nat × α)} {a b : Nat} (v : α) (hr : Rising m) (h : b ≠ a) : mapGet (mapPut m a v) b = mapGet m b := by
  induction m with
  | nil => simp only [mapPut, mapGet]; rw [if_neg h]; split <;> rfl
  | cons p m ih =>
    obtain ⟨k, w⟩ := p
    have ht := rising_tail hr; have hh := rising_head hr
    simp only [mapPut]
    split
    · next e => subst e; simp only [mapGet]; rw [if_neg h, if_neg h]
    · split
      · next l =>
        simp only [mapGet]; rw [if_neg h]
        split
        · next lb => rw [if_neg (by omega), if_pos (by omega)]
        · rfl
      · simp only [mapGet]; split
        · rfl
        · split
          · rfl
          · exact ih ht

/-- Reading a removed address. -/
theorem mapGet_mapDel_self {m : List (Nat × α)} {a : Nat} (hr : Rising m) : mapGet (mapDel m a) a = none := by
  induction m with
  | nil => rfl
  | cons p m ih =>
    obtain ⟨k, w⟩ := p
    have ht := rising_tail hr; have hh := rising_head hr
    simp only [mapDel]
    split
    · next e => subst e; exact mapGet_below hh
    · next n => simp only [mapGet]; rw [if_neg n]; split
                · rfl
                · exact ih ht

/-- Reading another address than the removed one. -/
theorem mapGet_mapDel_ne {m : List (Nat × α)} {a b : Nat} (hr : Rising m) (h : b ≠ a) : mapGet (mapDel m a) b = mapGet m b := by
  induction m with
  | nil => rfl
  | cons p m ih =>
    obtain ⟨k, w⟩ := p
    have ht := rising_tail hr; have hh := rising_head hr
    simp only [mapDel]
    split
    · next e =>
      subst e
      simp only [mapGet]; rw [if_neg h]
      split
      · next l => exact mapGet_below fun q hq => Nat.lt_trans l (hh q hq)
      · rfl
    · simp only [mapGet]; split
      · rfl
      · split
        · rfl
        · exact ih ht

/-- A write keeps the canonical form. -/
theorem mapWf_mapWrite [DecidableEq α] {d : α} {m : List (Nat × α)} (a : Nat) (v : α) (h : mapWf d m = true) :
    mapWf d (mapWrite d m a v) = true := by
  obtain ⟨hr, hn⟩ := (mapWf_iff d m).mp h
  refine (mapWf_iff d _).mpr ?_
  unfold mapWrite
  split
  · exact ⟨rising_mapDel a hr, fun p hp => hn p (mem_mapDel hp)⟩
  · next nv =>
    refine ⟨rising_mapPut a v hr, fun p hp => ?_⟩
    rcases mem_mapPut hp with rfl | hp
    · exact nv
    · exact hn p hp

/-- A run of writes keeps the canonical form. -/
theorem mapWf_mapWriteAll [DecidableEq α] {d : α} {m : List (Nat × α)} (a : Nat) (vs : List α) (h : mapWf d m = true) :
    mapWf d (mapWriteAll d m a vs) = true := by
  induction vs generalizing m a with
  | nil => exact h
  | cons v vs ih => exact ih (a + 1) (mapWf_mapWrite a v h)

/-- A write keeps a map rising. -/
theorem rising_mapWrite [DecidableEq α] {m : List (Nat × α)} (d : α) (a : Nat) (v : α) (h : Rising m) : Rising (mapWrite d m a v) := by
  unfold mapWrite
  split
  · exact rising_mapDel a h
  · exact rising_mapPut a v h

/-- A read after a write to the same address gives the value written. -/
theorem mapRead_mapWrite_self [DecidableEq α] {m : List (Nat × α)} (d : α) (a : Nat) (v : α) (h : Rising m) :
    mapRead d (mapWrite d m a v) a = v := by
  unfold mapRead mapWrite
  split
  · next e => rw [mapGet_mapDel_self h, e]; rfl
  · rw [mapGet_mapPut_self]; rfl

/-- A write leaves every other address alone. -/
theorem mapRead_mapWrite_ne [DecidableEq α] {m : List (Nat × α)} (d : α) {a b : Nat} (v : α) (hr : Rising m) (h : b ≠ a) :
    mapRead d (mapWrite d m a v) b = mapRead d m b := by
  unfold mapRead mapWrite
  split
  · rw [mapGet_mapDel_ne hr h]
  · rw [mapGet_mapPut_ne v hr h]

/-- A range of a canonical memory that is filtered stays canonical: erases keep the form. -/
theorem mapWf_filter [DecidableEq α] {d : α} {m : List (Nat × α)} (f : Nat × α → Bool) (h : mapWf d m = true) : mapWf d (m.filter f) = true := by
  obtain ⟨hr, hn⟩ := (mapWf_iff d m).mp h
  exact (mapWf_iff d _).mpr ⟨List.Pairwise.filter f hr, fun p hp => hn p (List.mem_filter.mp hp).1⟩

/-- A stored value is read back. -/
theorem storedAt_parPut_self (s : State) {m : List (Nat × Word)} (a : Nat) (v : Word) (h : Rising m) :
    storedAt { s with par := parPut m a v } a = v := mapRead_mapWrite_self (parDefault a) a v h

end Sys2Proof.Laws
end

