-- ==== Sys2Proof/Laws/Raise.lean ====
section
/-!
SUPPORT. What a raise leaves in the log and in the active list (12 R276, R282), and what later operations leave of it.
-/

namespace Sys2Proof.Machine
open Sys2Proof
set_option Elab.async false

/-- The stamp depends on the clock, the gPTP state and the boot only. -/
theorem stamp_keep {s t : State} (h1 : t.clk.now = s.clk.now) (h2 : t.net = s.net) (h3 : t.pwr.bootAt = s.pwr.bootAt) :
    stamp t = stamp s := by
  simp [stamp, gptpOk, gptpNow, h1, h2, h3]

/-- A code stays logged while its entry and the time stay. -/
theorem Logged.mono {s t : State} {c : BitVec 16} {sc d : BitVec 8} (h : Logged s c sc d) (hs : stamp t = stamp s)
    (hl : ∀ e ∈ s.nv.log ++ s.flt.logPending, ∃ f ∈ t.nv.log ++ t.flt.logPending,
      f.code = e.code ∧ f.scope = e.scope ∧ f.detail = e.detail ∧ f.event = e.event ∧ f.time = e.time) : Logged t c sc d := by
  obtain ⟨e, he, hr⟩ := h
  obtain ⟨f, hf, h1, h2, h3, h4, h5⟩ := hl e he
  exact ⟨f, hf, by simpa [repeatsEntry, h1, h2, h3, h4, h5, hs] using hr⟩

/-- The entries of one log lie in another, repeats apart. -/
def LogSub (s t : State) : Prop :=
  ∀ e ∈ s.nv.log ++ s.flt.logPending, ∃ f ∈ t.nv.log ++ t.flt.logPending,
    f.code = e.code ∧ f.scope = e.scope ∧ f.detail = e.detail ∧ f.event = e.event ∧ f.time = e.time
theorem LogSub.rfl {s : State} : LogSub s s := fun e he => ⟨e, he, by simp⟩
theorem LogSub.of_eq {s t : State} (h1 : t.nv.log = s.nv.log) (h2 : t.flt.logPending = s.flt.logPending) : LogSub s t :=
  fun e he => ⟨e, by rw [h1, h2]; exact he, by simp⟩
theorem LogSub.trans {s t u : State} (a : LogSub s t) (b : LogSub t u) : LogSub s u := by
  intro e he
  obtain ⟨f, hf, h⟩ := a e he
  obtain ⟨g, hg, k⟩ := b f hf
  exact ⟨g, hg, by simp_all⟩
theorem logSub_logIt (s : State) (e : LogEntry) : LogSub s (logIt s e) := by
  intro f hf
  refine ⟨f, ?_, by simp⟩
  simp only [logIt, List.mem_append] at *
  rcases hf with h | h
  · exact .inl h
  · exact .inr (.inl h)
theorem logSub_bump (s : State) (p : LogEntry → Bool) :
    LogSub s { s with nv := { s.nv with log := bumpRepeat p s.nv.log }, flt := { s.flt with logPending := bumpRepeat p s.flt.logPending } } := by
  intro f hf
  refine ⟨if p f then { f with repeats := sat16 f.repeats } else f, ?_, by split <;> simp⟩
  simp only [List.mem_append, bumpRepeat, List.mem_map] at *
  rcases hf with h | h
  · exact .inl ⟨f, h, rfl⟩
  · exact .inr ⟨f, h, rfl⟩
theorem logSub_logRaise (s : State) (c : BitVec 16) (sc d : BitVec 8) (v : F32) : LogSub s (logRaise s c sc d v) := by
  simp only [logRaise]
  split
  · exact logSub_bump s _
  · exact logSub_logIt s _

/-- What logging a raise leaves: it is logged. -/
theorem logRaise_logged (s : State) (c : BitVec 16) (sc d : BitVec 8) (v : F32) : Logged (logRaise s c sc d v) c sc d := by
  simp only [logRaise]
  split
  · rename_i h
    obtain ⟨e, he, hr⟩ := List.any_eq_true.1 h
    have base : Logged s c sc d := ⟨e, he, hr⟩
    exact base.mono rfl (logSub_bump s _)
  · refine ⟨logEntry s c 1 sc d v, by simp [logIt], ?_⟩
    have hs : stamp (logIt s (logEntry s c 1 sc d v)) = stamp s := rfl
    simp only [repeatsEntry, hs]
    simp [logEntry]

/-- A raise is in the list. -/
theorem enterList_listed (s : State) (c : BitVec 16) (sc d : BitVec 8) (a : Bool) : Listed (enterList s c sc d a) c sc d := by
  simp only [enterList]
  split
  · rename_i h
    obtain ⟨e, he, hr⟩ := List.any_eq_true.1 h
    refine ⟨{ e with active := a }, ?_, by simp_all [sameFault]⟩
    simp only [List.mem_map]
    exact ⟨e, he, by simp [hr]⟩
  · refine ⟨⟨c, sc, d, a, stamp s⟩, ?_, rfl, rfl, rfl⟩
    simp
/-- With room in the list, entries stay (12 R276). -/
theorem enterList_keeps {s : State} {c : BitVec 16} {sc d : BitVec 8} {a : Bool} {n : Nat} (hr : Room s (n + 1)) :
    Room (enterList s c sc d a) n ∧ ∀ c' sc' d', Listed s c' sc' d' → Listed (enterList s c sc d a) c' sc' d' := by
  unfold Room at *
  simp only [enterList]
  split
  · refine ⟨by simpa using by omega, ?_⟩
    rintro c' sc' d' ⟨e, he, h⟩
    refine ⟨if sameFault c sc d e then { e with active := a } else e, ?_, by split <;> simp_all⟩
    simp only [List.mem_map]
    exact ⟨e, he, rfl⟩
  · have : ¬ 32 ≤ s.flt.list.length := by omega
    simp only [this, if_false]
    refine ⟨by simp; omega, ?_⟩
    rintro c' sc' d' ⟨e, he, h⟩
    exact ⟨e, by simp [he], h⟩
theorem enterList_log (s : State) (c : BitVec 16) (sc d : BitVec 8) (a : Bool) : LogSub s (enterList s c sc d a) := by
  simp only [enterList]
  split
  · exact LogSub.of_eq rfl rfl
  · split
    · split
      · exact LogSub.trans (LogSub.of_eq (t := { s with flt := { s.flt with list := s.flt.list.erase _ } }) rfl rfl) (logSub_logIt _ _)
      · exact LogSub.of_eq rfl rfl
    · exact LogSub.of_eq rfl rfl

@[simp] theorem sendEmcy_flt' (s : State) (c : BitVec 16) (sc d : BitVec 8) : (sendEmcy s c sc d).flt = s.flt := by simp
theorem pulseRaise_fltList (s : State) (c : BitVec 16) (w : Bool) : (pulseRaise s c w).flt.list = s.flt.list := by
  simp only [pulseRaise]; (try split) <;> (try split) <;> (try split) <;> rfl
theorem pulseRaise_fltPending (s : State) (c : BitVec 16) (w : Bool) : (pulseRaise s c w).flt.logPending = s.flt.logPending := by
  simp only [pulseRaise]; (try split) <;> (try split) <;> (try split) <;> rfl

theorem record_stamp (s : State) (c : BitVec 16) (sc d : BitVec 8) (v : F32) (a : Bool) : stamp (record s c sc d v a) = stamp s :=
  stamp_keep (by simp) (by simp) (by simp)
theorem record_log (s : State) (c : BitVec 16) (sc d : BitVec 8) (v : F32) (a : Bool) : LogSub s (record s c sc d v a) := by
  simp only [record]
  refine LogSub.trans (logSub_logRaise s c sc d v) ?_
  refine LogSub.trans (t := if 3 ≤ codeClass c then sendEmcy (enterList (logRaise s c sc d v) c sc d a) c sc d else logRaise s c sc d v) ?_ ?_
  · split
    · exact LogSub.trans (enterList_log _ c sc d a) (LogSub.of_eq (by simp) (by simp))
    · exact LogSub.rfl
  · exact LogSub.of_eq (by simp) (by simp [pulseRaise_fltPending])
theorem record_list (s : State) (c : BitVec 16) (sc d : BitVec 8) (v : F32) (a : Bool) :
    (record s c sc d v a).flt.list = if 3 ≤ codeClass c then (enterList (logRaise s c sc d v) c sc d a).flt.list else s.flt.list := by
  simp only [record]
  simp only [faultEvent_flt, pulseRaise_fltList]
  split
  · simp
  · simp only [logRaise]; split <;> rfl
/-- A recorded raise: logged, and listed from class 3 on. -/
theorem record_raised (s : State) (c : BitVec 16) (sc d : BitVec 8) (v : F32) (a : Bool) : Raised (record s c sc d v a) c sc d := by
  constructor
  · have h := logRaise_logged s c sc d v
    refine h.mono (by rw [record_stamp]; exact (stamp_keep (by simp) (by simp) (by simp)).symm) ?_
    simp only [record]
    refine LogSub.trans (t := if 3 ≤ codeClass c then sendEmcy (enterList (logRaise s c sc d v) c sc d a) c sc d else logRaise s c sc d v) ?_ ?_
    · split
      · exact LogSub.trans (enterList_log _ c sc d a) (LogSub.of_eq (by simp) (by simp))
      · exact LogSub.rfl
    · exact LogSub.of_eq (by simp) (by simp [pulseRaise_fltPending])
  · intro h3
    obtain ⟨e, he, h⟩ := enterList_listed (logRaise s c sc d v) c sc d a
    exact ⟨e, by rw [record_list]; simpa [h3] using he, h⟩
theorem logRaise_list (s : State) (c : BitVec 16) (sc d : BitVec 8) (v : F32) : (logRaise s c sc d v).flt.list = s.flt.list := by
  simp only [logRaise]; split <;> rfl
/-- With room in the list a record keeps what is listed. -/
theorem record_keeps {s : State} {c : BitVec 16} {sc d : BitVec 8} {v : F32} {a : Bool} {n : Nat} (hr : Room s (n + 1)) :
    Room (record s c sc d v a) n ∧ ∀ c' sc' d', Listed s c' sc' d' → Listed (record s c sc d v a) c' sc' d' := by
  have hl := logRaise_list s c sc d v
  have hr' : Room (logRaise s c sc d v) (n + 1) := by simpa [Room, hl] using hr
  have k := enterList_keeps (c := c) (sc := sc) (d := d) (a := a) hr'
  have rl := record_list s c sc d v a
  by_cases h3 : 3 ≤ codeClass c
  · simp only [h3, if_true] at rl
    refine ⟨by simpa [Room, rl] using k.1, ?_⟩
    rintro c' sc' d' ⟨e, he, h⟩
    obtain ⟨f, hf, h'⟩ := k.2 c' sc' d' ⟨e, by rw [hl]; exact he, h⟩
    exact ⟨f, by rw [rl]; exact hf, h'⟩
  · simp only [h3, if_false] at rl
    refine ⟨by simp only [Room, rl] at *; omega, ?_⟩
    rintro c' sc' d' ⟨e, he, h⟩
    exact ⟨e, by rw [rl]; exact he, h⟩
/-- A recorded raise stays through a state with the same log, list and time. -/
theorem Raised.keep {s t : State} {c : BitVec 16} {sc d : BitVec 8} (h : Raised s c sc d) (hs : stamp t = stamp s)
    (hl : LogSub s t) (hf : t.flt.list = s.flt.list) : Raised t c sc d :=
  ⟨h.1.mono hs hl, fun h3 => by obtain ⟨e, he, k⟩ := h.2 h3; exact ⟨e, by rw [hf]; exact he, k⟩⟩
theorem settle_raised {z s : State} {c : BitVec 16} {sc d : BitVec 8} (h : Raised s c sc d) : Raised (settle z s) c sc d :=
  h.keep (stamp_keep (by simp) (by simp) (by simp)) (LogSub.of_eq (by simp) (by simp)) (by simp)

end Sys2Proof.Machine
end

