-- ==== Sys2Proof/WellFormed.lean ====
section
/-!
DEFINITION. Which commands are well formed: their operands fit what carries them (a payload of at most 4,088 bytes, 17
R344; six legs of an axis, 01 R12; a frame of the wire).
-/

namespace Sys2Proof

/-- A command whose operands can be carried. -/
def WellFormed : Instr → Bool
  | .summitStart _ _ => true
  | .summitReset _ _ => true
  | .plugWindowEntry _ => true
  | .plugDebounceExpiry _ _ _ => true
  | .plugWindowExit _ => true
  | .powerGood _ _ => true
  | .hswSoaTimeout => true
  | .hswRampFastTrip _ => true
  | .hswRetryDelayExpiry => true
  | .hswCbTrip _ => true
  | .hswCbFastTrip _ => true
  | .powerFail _ => true
  | .powerFailCommitDone _ => true
  | .vmLowTimeout _ => true
  | .vmUvRecoveryTimeout _ => true
  | .outputOverloadTimeout _ => true
  | .wakePadEdge _ => true
  | .hspCsNWake _ => true
  | .vmReturnWake _ => true
  | .resetNAssert _ => true
  | .watchdogExpiry => true
  | .bootComplete _ _ => true
  | .slotBackgroundVerifyDone _ => true
  | .stoRemove _ _ _ => true
  | .stoRestore _ _ => true
  | .stoDiscrepancyTimeout _ _ => true
  | .periodBoundary _ _ => true
  | .chainEnd _ _ => true
  | .commitPoint _ _ => true
  | .bootRefreshPulse _ _ => true
  | .switchNodeEdge _ _ _ _ _ _ => true
  | .edgeMissing _ _ _ _ => true
  | .nlHoldoverExpiry _ => true
  | .scarpTrip _ _ _ => true
  | .scarpDigitalTrip _ _ _ _ => true
  | .blankWindowClose _ _ _ _ => true
  | .cmpSelftestTick _ _ => true
  | .legAutoBypass _ _ => true
  | .legBypassRampEnd _ => true
  | .legImbBlockEnd _ => true
  | .ratingUpdateTick => true
  | .hbPullExpiry _ => true
  | .hbOvercurrent _ _ _ => true
  | .hbOpenTimeout _ _ => true
  | .hbReleaseExpiry _ => true
  | .hbTripHoldExpiry _ => true
  | .tableTrigger _ _ => true
  | .profileSample _ _ codes => decide (codes.length = 6)
  | .conversionResult _ _ _ _ _ => true
  | .urgentRequest _ _ => true
  | .arbitrationDecision _ _ _ _ _ _ => true
  | .vmXchkTimeout _ _ => true
  | .refOkTimeout _ => true
  | .openWireTestStart => true
  | .openWireSettleExpiry _ => true
  | .heartbeatWrite => true
  | .heartbeatTimeout _ => true
  | .bankArmCheck _ => true
  | .handoverCopyDone _ => true
  | .rgSelftestTick => true
  | .rgTestDone _ _ => true
  | .spMbxTimeout _ => true
  | .fwExhaustedTimeout _ => true
  | .overspeedTimeout _ => true
  | .pwmCmdPeriod _ _ => true
  | .pwmCmdTimeout => true
  | .curveFilterValid _ => true
  | .curveCrossing _ _ => true
  | .crestConverged _ => true
  | .crestLoss _ => true
  | .crestClampTimeout _ _ => true
  | .crestXchkTimeout _ => true
  | .restReadEnd _ => true
  | .polarityTestEnd _ => true
  | .measureEnd _ _ => true
  | .blockedWaitRepeat _ _ => true
  | .fsCatchTimeout _ => true
  | .stTimeout _ => true
  | .stRetryDelayExpiry _ => true
  | .alignPhase2 _ => true
  | .alignEnd _ => true
  | .startIdleTimeout _ => true
  | .rampHandoff _ => true
  | .mergeEnd _ => true
  | .rampStall _ => true
  | .standstillReached _ => true
  | .hbEngageExpiry _ => true
  | .stopTmaxExpiry _ => true
  | .stallTimeout _ => true
  | .quadCount _ _ _ _ _ => true
  | .zEdge _ _ _ _ => true
  | .hallEdge _ _ _ _ => true
  | .hallIllegalTimeout _ => true
  | .sincosSampleEvent _ _ _ _ => true
  | .serialFrameRequest _ _ => true
  | .serialFrameEnd _ _ bits _ => decide (bits.length ≤ 640)
  | .fbStandstillTimeout _ => true
  | .compareHit _ _ _ => true
  | .captureEdge _ _ _ _ _ => true
  | .chopSeenTimeout _ => true
  | .chopRetryExpiry => true
  | .chopShortTimeout => true
  | .brakeLoadTick => true
  | .escalationTimeout => true
  | .e1LeaveTimeout => true
  | .activeShortEnd _ _ => true
  | .faultLogWrite => true
  | .faultNPulseExpiry => true
  | .thGraceExpiry _ => true
  | .thermalDerateTick => true
  | .caseEstimateTick => true
  | .replaceTrigger _ _ => true
  | .replaceLate => true
  | .xtalLoss => true
  | .pllLockLoss _ => true
  | .pllRelockTimeout => true
  | .eventCellOverflow _ => true
  | .islandWake _ => true
  | .hspFrame f => decide (f.data.length ≤ 65536)
  | .hspFrameTimeout => true
  | .mbxCopyDone _ => true
  | .ethFrameForward f => decide (f.bytes ≤ 2000)
  | .addressAgeExpiry _ => true
  | .ethRstRelease => true
  | .phyPoll _ _ => true
  | .t1sBeaconLoss => true
  | .gptpSync _ _ _ => true
  | .gptpAnnounce _ => true
  | .gptpPdelay _ _ _ => true
  | .gptpReceiptTimeout => true
  | .gateListInterval _ => true
  | .tvReceiveSet f _ => decide (f.bytes.length ≤ 1500)
  | .tvMailboxRequest f _ _ _ => decide (f.bytes.length ≤ 1500)
  | .tvTransmitWindow _ _ => true
  | .canSync _ => true
  | .canRpdo _ data _ => decide (data.length ≤ 64)
  | .canSdo r => decide (r.size ≤ 4)
  | .canNmt _ node => decide (node.toNat ≤ 127)
  | .canHeartbeatProduce => true
  | .canHeartbeatTimeout => true
  | .canErrorPassive => true
  | .canBusoff => true
  | .canBusoffRecovery => true
  | .xspWindowRead _ => true
  | .xspWindowWrite _ _ => true
  | .xspPageIdle => true
  | .xspPoll _ => true
  | .xspOpTimeout => true
  | .xspIdCheck _ => true
  | .mramScrubTick _ bad => bad.all (fun p => decide (p.1 < 9))
  | .sessionIdleTimeout _ => true
  | .roleLockExpiry _ => true
  | .sessionOpen _ _ => true
  | .sessionAuth _ _ => true
  | .sessionClose _ => true
  | .sessionInfo _ => true
  | .eventMask _ _ => true
  | .parGet _ items => decide (items.length ≤ 2042)
  | .parSet _ items => decide (items.length ≤ 510)
  | .parInfo _ _ => true
  | .parCommit _ _ _ => true
  | .parLoad _ _ => true
  | .parBanks _ => true
  | .parDefaults _ => true
  | .stateGet _ => true
  | .pwrReq _ _ => true
  | .enable _ _ => true
  | .disable _ _ => true
  | .quickStop _ _ => true
  | .faultClear _ _ _ => true
  | .faultList _ => true
  | .legServiceBypass _ _ _ => true
  | .legServiceReturn _ _ _ _ => true
  | .swTrip _ _ => true
  | .spSet _ _ => true
  | .spGet _ _ => true
  | .calConv _ _ => true
  | .calConvDone m => decide (m.length ≤ 12)
  | .ident _ _ => true
  | .identDone => true
  | .angleOfs _ _ => true
  | .angleOfsDone => true
  | .declWrite _ _ _ bytes => decide (bytes.length ≤ 4084)
  | .compile _ _ => true
  | .compileCheckOnly _ _ => true
  | .compileDone _ => true
  | .declRead _ _ _ => true
  | .placeInfo _ _ _ => true
  | .ledger _ => true
  | .segStage _ _ _ _ ops => decide (ops.length ≤ 510)
  | .segCommit _ _ _ _ init => decide (init.length ≤ 510)
  | .segDelete _ _ _ => true
  | .segRead _ _ _ _ _ => true
  | .logRead _ _ _ => true
  | .logErase _ => true
  | .auditRead _ _ _ => true
  | .fifoRead _ _ _ _ => true
  | .streamRead _ _ _ _ => true
  | .cntRead _ ids => decide (ids.length ≤ 2042)
  | .cntClear _ ids => decide (ids.length ≤ 2042)
  | .cmpRaw _ => true
  | .cmpTest _ _ _ => true
  | .chopTest _ _ => true
  | .legTest _ _ _ _ => true
  | .rgTest _ _ => true
  | .colFlags _ _ => true
  | .convOnce _ _ _ _ => true
  | .testAccess _ _ => true
  | .otpRead _ _ _ => true
  | .otpOverride _ _ _ => true
  | .otpBurn _ rows => decide (rows.length ≤ 255)
  | .otpBurnDone senses => decide (senses.length ≤ 16)
  | .otpLock _ _ => true
  | .otpRetire _ _ => true
  | .otpLockDone => true
  | .fwBegin _ _ => true
  | .fwData _ _ bytes => decide (bytes.length ≤ 4084)
  | .fwInstall _ _ => true
  | .fwInstallDone _ => true
  | .fwInfo _ => true
  | .mramErase _ _ => true
  | .mramEraseDone => true
  | .reboot _ => true
  | .netStatus _ => true
  | .mdioRead _ _ _ _ _ => true
  | .mdioWrite _ _ _ _ _ => true
  | .portTest _ _ _ => true
  | .resetNRelease _ => true
  | .watchdogService => true
  | .watchdogResetDelayExpiry => true
  | .pllRelock _ => true
  | .canHeartbeatReceive node => decide (node.toNat ≤ 127)
  | .canErrorActiveReturn => true
  | .plcaBeaconReceived => true
  | .arpIcmpRequest _ _ _ _ => true
  | .gptpTransmitInterval _ => true
  | .streamRecordTick _ _ => true
  | .telemetryDriveUpdate => true
  | .alignRiseEnd _ => true
  | .t1sLineTestDone _ => true
  | .faultNBootPulseDelay => true

end Sys2Proof
end

