-- ==== Sys2Proof/Tests/Slice0.lean ====
section
/-!
SUPPORT. Small tests: an ill-formed term for each check of WellFormed, states and operands that meet the hypotheses of every
statement (each clause by a witness of its own, at a boundary where there is one), and single commands whose result a rule of the
spec states.
-/

namespace Sys2Proof.Tests
open Sys2Proof Sys2Proof.Machine
set_option Elab.async false

/-! States to start from. -/

/-- Axis A changed. -/
def onA (s : State) (f : AxisSt → AxisSt) : State := { s with axes := ⟨f s.axes.a, s.axes.b⟩ }
/-- Axis B changed. -/
def onB (s : State) (f : AxisSt → AxisSt) : State := { s with axes := ⟨s.axes.a, f s.axes.b⟩ }
/-- A parameter stored and in force. -/
def put (s : State) (a : Nat) (v : Word) : State := { s with par := mapPut s.par a v, inForce := mapPut s.inForce a v }
/-- An authenticated session of the host port. -/
def ses : Session := { transport := .host, role := .maker, authed := true, answered := true, challenge := 7, openedAt := 0, lastAt := 0 }
/-- A request of session 1. -/
def hd : Hdr := { session := 1, tag := 9, crc := 0x1234 }
/-- A placement of both axes with one stream, a receive set and a transmit set. -/
def place : Placement :=
  { axisA := some {}, axisB := some { engine := .rgb }, streams := [⟨0, .sram, 0x447A0000, 0x3F800000, [0x0010]⟩],
    cyclic := [⟨0, false, 3, 250000, 136, 0⟩, ⟨1, true, 1, 250000, 136, 100⟩] }
/-- An axis that is placed, its timebase running, gates off. -/
def idleAx (e : Engine) : AxisSt :=
  { stage := { vgdOn := true }, pwm := { running := true, h := 20000 }, seq := { host := some e } }
/-- READY at 48 V with a placement, the backbone, CAN and a flash in service and one session open, 400 s after the start. -/
def up : State :=
  { clk := { now := 400000000000, extRef := true, xtal := true }
    sum := { on := true, inMv := 48000, vmMv := 48000, hsw := .on, hswG := true, buck := true }
    pwr := { base := .ready }, bus := { vmA := 0x42400000, vmB := 0x42400000 }, cairn := { active := some place }
    axes := ⟨idleAx .rga, idleAx .rgb⟩, mbx := { sessions := [some ses, none, none, none] }
    net := { on := true, rstReleased := true, rmii1 := { up := true } }
    can := { on := true, rpdo := List.replicate 8 {}, tpdo := List.replicate 8 {} }
    xsp := { found := true, capacity := 0x100000 } }
/-- The same with the axis switching in RUN. -/
def runs : State :=
  onA up (fun a => { a with
    pwm := { a.pwm with switching := true }
    start := { a.start with ax := .run }
    sp := { a.sp with accepted := true } })
/-- HOLD. -/
def held : State := { up with pwr := { up.pwr with base := .hold } }
/-- STANDBY. -/
def asleep : State := { up with pwr := { up.pwr with base := .standby } }
/-- A boot from source 1 under way. -/
def booting : State := { up with pwr := { up.pwr with base := .off, boot := some 1 } }
/-- Summit in this phase of the hot-swap controller. -/
def plug (p : HswPhase) : State := { sum := { on := true, inMv := 48000, vmMv := 48000, hsw := p } }
/-- A long operation of session 1 runs. -/
def busy (l : LongOp) : State := { up with mbx := { up.mbx with long := some (l, hd) } }
/-- Axis A in this state of the start sequence. -/
def starts (a : AxState) : State := onA up (fun x => { x with start := { x.start with ax := a } })
/-- A frame of the host port. -/
def frame (cmd : BitVec 8) (addr len : BitVec 16) (data : List Byte) : HspFrame := { cmd := cmd, addr := addr, len := len, data := data }

/-- Axis A with this table as TBL2 of its first converter. -/
def tables (t : ConvTable) : State :=
  onA up (fun a => { a with legs := { a.legs with u1 := { a.legs.u1 with cv := { tables := [{}, {}, t, {}] } } } })
/-- The first shared channel is due for arbitration. -/
def due : State := { up with conv := { up.conv with plaus := { arbitrate := true } :: List.replicate 47 {} } }
/-- Ridge A armed with this image in its inactive bank. -/
def armed (i : BankImage) : State := { up with ridge := { rga := { armed := true, bank1 := i } } }
/-- An empty bank image with its right CRC. -/
def goodBank : BankImage := { crc := bankCrc {} }

/-- A message of the inbox waits for its copy. -/
def inbox (m : List Byte) : State := { up with hsp := { inbox := mapWriteAll 0 [] 0 m, submitted := true } }
/-- A type 3 frame with this message. -/
def tvAsks (m : List Byte) : TvFrame := ⟨{}, .rmii1, [1, 3, 0, 0, 0, 0, BitVec.ofNat 8 m.length, 0] ++ List.replicate 8 0 ++ m⟩
/-- A type 1 frame for set 0 at 400 s with a speed for axis A. -/
def tvSet : TvFrame :=
  ⟨{}, .rmii1, [1, 1, 0, 0, 0, 0, 56, 0, 0x00, 0xA0, 0xDB, 0x21, 0x5D, 0, 0, 0] ++ List.replicate 8 0 ++ [8, 0, 1, 0] ++ List.replicate 44 0⟩
/-- What a boot finds: no image, nothing lost. -/
def found (core : Bool) : BootFacts :=
  { xtal := true, coreOk := core, imageA := none, imageB := none, sigA := 0, sigB := 0, chkBad := 0, cmpFail := 0, chopSeen := true,
    bootMs := 0x42480000 }
/-- An image signed by slot 0, whose digest of its key is 1. -/
def image : ImageFacts := ⟨true, true, true, 1, 0, 0x010000, 1024⟩
/-- The fuse row that provisions slot 0 with it. -/
def signed : List (Nat × BitVec 64) := [(80, 1)]
/-- Session 1 waits for the response to its challenge, 10 s after it was opened; the operator's secret is provisioned. -/
def asksAuth : State :=
  { up with
    otp := { fuse := [(132, 1)] }
    mbx := { sessions := [some { ses with role := .operator, authed := false, answered := false, openedAt := 390000000000 }, none, none, none] } }
/-- Session 1 has executed an ENABLE. -/
def again : State :=
  { up with mbx := { sessions := [some { ses with last := some (0x0303, 9, 0x1234, ⟨0x8303, 9, 1, [0, 0, 0, 0]⟩) }, none, none, none] } }
/-- The definition of VM_PF (03 Table 3.2). -/
def vmPfDef : PDef := ⟨0x0104, .f32, .writable, .f 0x41C00000 0x41F00000, 0x41E00000, .installer, .immediate, false⟩
/-- One code is in the active list. -/
def listing (e : FaultEntry) : State := { up with flt := { list := [e] } }
/-- A declaration of one channel, AIN0 at 1 Hz. -/
def chanDecl : List Byte := [2, 12, 0, 0, 22, 0, 0, 0, 0, 0, 0x80, 0x3F]
/-- A compile of this staged declaration runs. -/
def compiles (check : Bool) (d : List Byte) : State :=
  { (busy (.compile check true)) with cairn := { up.cairn with staged := d, stagedTotal := d.length, stagedDirty := true } }
/-- An upload is in progress. -/
def uploads (u : FwUpload) : State := { up with boot := { upload := some u } }
/-- Its install runs, with these fuses burned. -/
def installs (u : FwUpload) (f : List (Nat × BitVec 64)) : State :=
  { (busy (.fwInstall true (if f = [] then 2 else 3))) with boot := { upload := some u }, otp := { fuse := f } }

/-- A sampled position source of axis A is due. -/
def sampling : State := onA (put up Par.fbSrc 3) (fun a => { a with fb := { a.fb with scDue := some 0 } })

/-- The hypotheses of a request, computed. -/
def served (s : State) (h : Hdr) (op : BitVec 16) : Bool :=
  thoevoUp s && !s.sum.pfCommit && decide (s.boot.service = .none) && decide (s.mbx.long = none) && decide (h.bad = none) &&
    decide (replayOf s h op = none)
/-- Nothing acts by itself, computed. -/
def calm (s : State) : Bool := !s.sum.wdogWait && decide (s.mbx.rebootAt = none) && !s.bus.e2
/-- A session with this role asks, computed. -/
def roleHeld (s : State) (h : Hdr) (n : Nat) : Bool :=
  match sessionOf s h with | some se => se.authed && decide (n ≤ roleNo se.role) | none => false

theorem served_of {s : State} {h : Hdr} {op : BitVec 16} (e : served s h op = true) : Served s h op := by
  simp only [served, Bool.and_eq_true, Bool.not_eq_true', decide_eq_true_eq] at e
  exact ⟨⟨e.1.1.1.1.1, e.1.1.1.1.2⟩, e.1.1.1.2, e.1.1.2, e.1.2, e.2⟩

theorem calm_of {s : State} (e : calm s = true) : Calm s := by
  simp only [calm, Bool.and_eq_true, Bool.not_eq_true', decide_eq_true_eq] at e
  exact ⟨e.1.1, e.1.2, e.2⟩

theorem role_of {s : State} {h : Hdr} {n : Nat} (e : roleHeld s h n = true) : HasRole s h n := by
  unfold roleHeld at e
  split at e
  · rename_i se hs
    simp only [Bool.and_eq_true, decide_eq_true_eq] at e
    exact ⟨se, hs, e.1, e.2⟩
  · cases e

theorem asked_of {s : State} {h : Hdr} {op : BitVec 16}
    (e : (calm s && served s h op && (decide (h.session = 0) || (sessionOf s h).isSome)) = true) : Asked s h op := by
  simp only [Bool.and_eq_true, Bool.or_eq_true, decide_eq_true_eq] at e
  exact ⟨calm_of e.1.1, served_of e.1.2, e.2⟩

theorem granted_of {s : State} {h : Hdr} {op : BitVec 16} {n : Nat}
    (e : (calm s && served s h op && roleHeld s h n && s.nv.auditOk) = true) : Granted s h op n := by
  simp only [Bool.and_eq_true] at e
  exact ⟨calm_of e.1.1.1, served_of e.1.1.2, role_of e.1.2, e.2⟩

theorem awake_of {s : State} (e : (thoevoUp s && !s.sum.pfCommit) = true) : Awake s := by
  simp only [Bool.and_eq_true, Bool.not_eq_true'] at e
  exact e

theorem compl_ne (w : BitVec 32) : ~~~w ≠ w := by
  intro h
  have := congrArg (fun v => v.getLsbD 0) h
  simp at this

theorem unsuspected (k : Nat) : (getCv sampling k).suspect = false := by
  show ((sixGet (twoGet sampling.axes (cvLeg k).1).legs (cvLeg k).2).cv).suspect = false
  generalize (cvLeg k).1 = x
  generalize (cvLeg k).2 = l
  cases x <;> cases l <;> rfl

theorem unstored (n : Nat) : (pdoAt (List.replicate 8 ({} : Pdo)) n).stored = none := by
  unfold pdoAt
  rw [List.getElem?_replicate]
  split <;> rfl

theorem disabled (n : Nat) (h : n ≠ 0) :
    (pdoAt ({ cob := 0x180, kind := 1, maps := [0x60410010], n := 1 } :: List.replicate 7 ({} : Pdo)) n).cob.getLsbD 31 = true := by
  obtain ⟨m, rfl⟩ := Nat.exists_eq_succ_of_ne_zero h
  unfold pdoAt
  rw [List.getElem?_cons_succ, List.getElem?_replicate]
  split <;> decide

/-! Hypotheses of the statements. -/

/-- The hypotheses of StepRunsFrontCommand can be met, clause by clause. -/
theorem test_StepRunsFrontCommand_meets :
    (∃ (s : State), s.pending = []) :=
  ⟨{ }, by decide +kernel⟩

/-- The hypotheses of StepLeavesRestOfQueue can be met, clause by clause. -/
theorem test_StepLeavesRestOfQueue_meets :
    (∃ (s t : State), step s = .next t) :=
  ⟨{ pending := [.hswSoaTimeout, .hspFrameTimeout] }, { pending := [.hspFrameTimeout] }, rfl⟩

/-- The hypotheses of MemoriesStayCanonical can be met, clause by clause. -/
theorem test_MemoriesStayCanonical_meets :
    (∃ (s t : State), MemoryWf s ∧ step s = .next t) :=
  ⟨{ pending := [.hswSoaTimeout], xsp := { flash := [(0, 0), (1, 7)] } }, { xsp := { flash := [(0, 0), (1, 7)] } },
    (by unfold MemoryWf; decide +kernel), rfl⟩

/-- The hypotheses of BurnedBitsNeverReturn can be met, clause by clause. -/
theorem test_BurnedBitsNeverReturn_meets :
    (∃ (s t : State) (row k : Nat), step s = .next t ∧ (fuseRow s row).getLsbD k = true) :=
  ⟨{ pending := [.hswSoaTimeout], otp := { fuse := [(64, 1)] } }, { otp := { fuse := [(64, 1)] } }, 64, 0, rfl, by decide +kernel⟩

/-- The hypotheses of SummitAndPlugSequence can be met, clause by clause. -/
theorem test_SummitAndPlugSequence_meets :
    (∃ (s : State) (inMv vmMv : Nat), Calm s ∧ s.sum.on = false ∧ 12000 ≤ max inMv vmMv) ∧
    (∃ (s : State) (inMv vmMv : Nat), s.sum.on = true ∧ max inMv vmMv < 6000) ∧
    (∃ (s : State) (inMv : Nat), Calm s ∧ s.sum.on = true ∧ 36000 ≤ inMv ∧ inMv ≤ 75000 ∧ mayPlug s = true ∧ (s.sum.hsw = .outside
      ∨ (s.sum.hsw = .strapped ∧ s.sum.buck = false))) ∧
    (∃ (s : State) (inMv : Nat), Calm s ∧ s.sum.on = true ∧ s.sum.hsw = .debounce ∧ 36000 ≤ inMv ∧ inMv ≤ 75000 ∧ mayPlug s = true) ∧
    (∃ (s : State) (inMv : Nat), Calm s ∧ s.sum.on = true ∧ (inMv < 36000 ∨ 75000 < inMv) ∧ (s.sum.hsw = .debounce ∨ s.sum.hsw =
      .ramp ∨ s.sum.hsw = .decayWait)) ∧
    (∃ (s : State) (inMv : Nat), Calm s ∧ s.sum.on = true ∧ s.sum.hsw = .retryWait ∧ 36000 ≤ inMv ∧ inMv ≤ 75000) ∧
    (∃ (s : State) (inMv : Nat), Calm s ∧ s.sum.on = true ∧ s.sum.hsw = .retryWait ∧ inMv < 36000) :=
  ⟨⟨{ }, 12000, 0, calm_of (by decide +kernel), by decide +kernel⟩,
   ⟨up, 5999, 0, by decide +kernel⟩,
   ⟨{ sum := { on := true } }, 36000, calm_of (by decide +kernel), by decide +kernel⟩,
   ⟨plug .debounce, 36000, calm_of (by decide +kernel), by decide +kernel⟩,
   ⟨plug .ramp, 35999, calm_of (by decide +kernel), by decide +kernel⟩,
   ⟨plug .retryWait, 75000, calm_of (by decide +kernel), by decide +kernel⟩,
   ⟨plug .retryWait, 35999, calm_of (by decide +kernel), by decide +kernel⟩⟩

/-- The hypotheses of ConnectionAndPowerGood can be met, clause by clause. -/
theorem test_ConnectionAndPowerGood_meets :
    (∃ (s : State) (uv : Nat), Calm s ∧ s.sum.on = true ∧ s.sum.hsw = .ramp ∧ 2 * fval (parD s Par.hswCbThr) * 1000 ≤ (uv : Rat)) ∧
    (∃ (s : State), Calm s ∧ s.sum.on = true ∧ s.sum.hsw = .retryWait) ∧
    (∃ (s : State) (inMv vmMv : Nat), s.sum.on = true ∧ s.sum.buck = false ∧ s.sum.resetLow = false ∧ (s.sum.hsw = .ramp ∨
      s.sum.hsw = .decayWait) ∧ inMv ≤ vmMv + 1000 ∧ vmMv ≤ inMv + 1000 ∧ 36000 ≤ inMv ∧ inMv ≤ 75000 ∧ s.sum.wdogWait = false ∧
      s.sum.pfCommit = false) ∧
    (∃ (s : State) (inMv vmMv : Nat), Calm s ∧ s.sum.on = true ∧ s.sum.buck = true ∧ (s.sum.hsw = .ramp ∨ s.sum.hsw = .decayWait) ∧
      inMv ≤ vmMv + 1000 ∧ vmMv ≤ inMv + 1000 ∧ 36000 ≤ inMv ∧ inMv ≤ 75000) :=
  ⟨⟨plug .ramp, 100000, calm_of (by decide +kernel), by decide +kernel⟩,
   ⟨plug .retryWait, calm_of (by decide +kernel), by decide +kernel⟩,
   ⟨plug .ramp, 48000, 47000, by decide +kernel⟩,
   ⟨{ sum := { on := true, inMv := 48000, vmMv := 48000, hsw := .decayWait, buck := true } }, 48000, 49000, calm_of
     (by decide +kernel), by decide +kernel⟩⟩

/-- The hypotheses of PowerFailAndCommit can be met, clause by clause. -/
theorem test_PowerFailAndCommit_meets :
    (∃ (c : Instr) (s : State) (uv : Nat), Calm s ∧ Awake s ∧ ((c = .hswCbTrip uv ∧ fval (parD s Par.hswCbThr) * 1000 < (uv : Rat))
      ∨ (c = .hswCbFastTrip uv ∧ 2 * fval (parD s Par.hswCbThr) * 1000 < (uv : Rat))) ∧ s.sum.on = true ∧ s.sum.hsw = .on) ∧
    (∃ (s : State) (inMv : Nat), Calm s ∧ Awake s ∧ s.sum.on = true ∧ (inMv : Rat) < fval (parD s Par.vmPf) * 1000) ∧
    (∃ (s : State), s.sum.pfCommit = true ∧ s.sum.wdogWait = false ∧ s.sum.resetPending = false ∧ s.sum.wakeLatched = 0) ∧
    (∃ (s : State), s.sum.pfCommit = true ∧ s.sum.wdogWait = false ∧ s.sum.resetPending = true ∧ s.sum.resetReleased = false) ∧
    (∃ (s : State), s.sum.pfCommit = true ∧ s.sum.wdogWait = false ∧ s.sum.resetPending = false ∧ s.sum.wakeLatched &&& 3 ≠ 0 ∧
      buckCan s = true ∧ s.sum.hsw ≠ .strapped) ∧
    (∃ (s : State), s.sum.pfCommit = true ∧ s.sum.wdogWait = false ∧ s.sum.resetPending = false ∧ s.sum.wakeLatched = 4 ∧ s.sum.hsw
      = .outside ∧ 36000 ≤ s.sum.inMv ∧ s.sum.inMv ≤ 75000) :=
  ⟨⟨.hswCbTrip 50001, up, 50001, calm_of (by decide +kernel), awake_of (by decide +kernel), Or.inl ⟨rfl, by decide +kernel⟩,
     by decide +kernel⟩,
   ⟨up, 27999, calm_of (by decide +kernel), awake_of (by decide +kernel), by decide +kernel⟩,
   ⟨{ sum := { on := true, pfCommit := true } }, by decide +kernel⟩,
   ⟨{ sum := { on := true, pfCommit := true, resetPending := true } }, by decide +kernel⟩,
   ⟨{ sum := { on := true, pfCommit := true, wakeLatched := 2, vmMv := 12000 } }, by decide +kernel⟩,
   ⟨{ sum := { on := true, pfCommit := true, wakeLatched := 4, inMv := 36000 } }, by decide +kernel⟩⟩

/-- The hypotheses of SupplyAndWakeEvents can be met, clause by clause. -/
theorem test_SupplyAndWakeEvents_meets :
    (∃ (s : State) (vmMv : Nat), Calm s ∧ thoevoUp s = true ∧ vmMv < 36000 ∧ 12000 ≤ vmMv) ∧
    (∃ (s : State) (vmMv : Nat), Calm s ∧ thoevoUp s = true ∧ vmMv < 12000) ∧
    (∃ (s : State) (vmMv : Nat), Calm s ∧ (fval (parD s Par.vmUv) + fval (parD s Par.vmUvHyst)) * 1000 < (vmMv : Rat)) ∧
    (∃ (s : State), Calm s ∧ s.sum.out5.on = true) ∧
    (∃ (s : State), Calm s ∧ s.sum.out3.on = true) ∧
    (∃ (s : State) (c : Instr) (w : WakeSource) (stableNs : Nat), ((c = .wakePadEdge stableNs ∧ w = .wakePad ∧ filtPass (parD s
      Par.wakeFilt) stableNs = true) ∨ (c = .hspCsNWake stableNs ∧ w = .csN ∧ filtPass (parD s Par.csFilt) stableNs = true)) ∧
      s.sum.on = true ∧ buckCan s = true ∧ s.pwr.base = .standby ∧ s.pwr.boot = none ∧ s.sum.pfCommit = false ∧ s.sum.wdogWait =
      false ∧ (w = .wakePad → (parD s Par.wakeEn).getLsbD 0 = true) ∧ (w = .csN → (parD s Par.wakeEn).getLsbD 1 = true)) ∧
    (∃ (s : State) (c : Instr) (w : WakeSource) (stableNs : Nat), ((c = .wakePadEdge stableNs ∧ w = .wakePad ∧ filtPass (parD s
      Par.wakeFilt) stableNs = true) ∨ (c = .hspCsNWake stableNs ∧ w = .csN ∧ filtPass (parD s Par.csFilt) stableNs = true)) ∧ Calm
      s ∧ s.sum.on = true ∧ s.sum.pfCommit = true ∧ (w = .wakePad → (parD s Par.wakeEn).getLsbD 0 = true) ∧ (w = .csN → (parD s
      Par.wakeEn).getLsbD 1 = true)) ∧
    (∃ (s : State) (stableNs : Nat), Calm s ∧ s.sum.on = true ∧ s.pwr.base = .hold ∧ s.pwr.boot = none ∧ s.sum.pfCommit = false ∧
      s.pwr.noPlacement = false ∧ s.boot.service = .none ∧ filtPass (parD s Par.wakeFilt) stableNs = true) ∧
    (∃ (s : State) (inMv : Nat), Calm s ∧ s.sum.on = true ∧ (parD s Par.wakeEn).getLsbD 2 = true ∧ 36000 ≤ inMv ∧ inMv ≤ 75000 ∧
      s.sum.pfCommit = false ∧ s.pwr.base = .standby ∧ s.pwr.boot = none ∧ s.sum.pfStandby = true ∧ s.sum.fellBelowPf = true ∧
      (s.sum.hsw = .ramp ∨ s.sum.hsw = .decayWait ∨ s.sum.hsw = .strapped)) :=
  ⟨⟨up, 12000, calm_of (by decide +kernel), by decide +kernel⟩,
   ⟨up, 11999, calm_of (by decide +kernel), by decide +kernel⟩,
   ⟨up, 36001, calm_of (by decide +kernel), by decide +kernel⟩,
   ⟨{ sum := { on := true, out5 := ⟨true, false⟩ } }, calm_of (by decide +kernel), by decide +kernel⟩,
   ⟨{ sum := { on := true, out3 := ⟨true, false⟩ } }, calm_of (by decide +kernel), by decide +kernel⟩,
   ⟨asleep, .wakePadEdge 100000000, .wakePad, 100000000, Or.inl ⟨rfl, rfl, by decide +kernel⟩, by decide +kernel⟩,
   ⟨{ up with sum := { up.sum with pfCommit := true } }, .hspCsNWake 100000000, .csN, 100000000, Or.inr ⟨rfl, rfl,
     by decide +kernel⟩, calm_of (by decide +kernel), by decide +kernel⟩,
   ⟨held, 100000000, calm_of (by decide +kernel), by decide +kernel⟩,
   ⟨{ asleep with sum := { asleep.sum with pfStandby := true, fellBelowPf := true, hsw := .ramp } }, 36000, calm_of
     (by decide +kernel), by decide +kernel⟩⟩

/-- The hypotheses of ResetPinAndWatchdog can be met, clause by clause. -/
theorem test_ResetPinAndWatchdog_meets :
    (∃ (s : State) (stableNs : Nat), s.sum.on = true ∧ s.sum.resetLow = false ∧ s.sum.pfCommit = false ∧ filtPass (parD s
      Par.resetFilt) stableNs = true) ∧
    (∃ (s : State) (stableNs : Nat), Calm s ∧ s.sum.on = true ∧ s.sum.resetLow = false ∧ s.sum.pfCommit = true ∧ filtPass (parD s
      Par.resetFilt) stableNs = true) ∧
    (∃ (s : State) (stableNs : Nat), s.sum.on = true ∧ s.sum.resetLow = true ∧ (s.sum.buck = true ∨ buckCan s = true) ∧
      s.sum.wdogWait = false ∧ s.sum.pfCommit = false ∧ filtPass (parD s Par.resetFilt) stableNs = true) ∧
    (∃ (s : State) (stableNs : Nat), Calm s ∧ s.sum.on = true ∧ s.sum.resetLow = true ∧ s.sum.buck = false ∧ buckCan s = false ∧
      filtPass (parD s Par.resetFilt) stableNs = true) ∧
    (∃ (s : State), Calm s ∧ s.sum.on = true ∧ thoevoUp s = true) ∧
    (∃ (s : State), s.sum.on = true ∧ thoevoUp s = true ∧ s.sum.pfCommit = false ∧ anyRun s = false) ∧
    (∃ (s : State), s.sum.on = true ∧ thoevoUp s = true ∧ s.sum.pfCommit = false ∧ anyRun s = true ∧ s.bus.e2 = false) ∧
    (∃ (s : State), s.sum.wdogWait = true ∧ s.sum.pfCommit = false) :=
  ⟨⟨up, 100000000, by decide +kernel⟩,
   ⟨{ up with sum := { up.sum with pfCommit := true } }, 100000000, calm_of (by decide +kernel), by decide +kernel⟩,
   ⟨{ up with sum := { up.sum with resetLow := true } }, 100000000, by decide +kernel⟩,
   ⟨{ sum := { on := true, resetLow := true } }, 100000000, calm_of (by decide +kernel), by decide +kernel⟩,
   ⟨up, calm_of (by decide +kernel), by decide +kernel⟩,
   ⟨up, by decide +kernel⟩,
   ⟨runs, by decide +kernel⟩,
   ⟨{ runs with sum := { runs.sum with wdogWait := true } }, by decide +kernel⟩⟩

/-- The hypotheses of SafeTorqueOff can be met, clause by clause. -/
theorem test_SafeTorqueOff_meets :
    (∃ (s : State) (a b : Bool) (us : Nat), Calm s ∧ s.sum.on = true ∧ thoevoUp s = true ∧ (a || b) = true ∧ 1000 ≤ us) ∧
    (∃ (us : Nat), us < 500) ∧
    (∃ (s : State) (us : Nat) (back : Bool), Calm s ∧ s.sum.on = true ∧ 1000 ≤ us ∧ (isReady s = true → (hosted s .a = true ∨
      hosted s .b = true) → back = true)) ∧
    (∃ (s : State) (a b : Bool), Calm s ∧ thoevoUp s = true ∧ a ≠ b) :=
  ⟨⟨up, true, false, 1000, calm_of (by decide +kernel), by decide +kernel⟩,
   ⟨499, by decide +kernel⟩,
   ⟨up, 1000, true, calm_of (by decide +kernel), by decide +kernel⟩,
   ⟨up, true, false, calm_of (by decide +kernel), by decide +kernel⟩⟩

/-- The hypotheses of ScarpTrips can be met, clause by clause. -/
theorem test_ScarpTrips_meets :
    (∃ (s : State) (c : Fin 24) (tick : Nat), Calm s ∧ Awake s ∧ s.boot.service = .none ∧ c.val ≠ 17 ∧ s.scarp.latch.getLsbD c.val
      = false ∧ windowOpen s c.val tick = false) ∧
    (∃ (s : State) (tick : Nat), Calm s ∧ Awake s ∧ s.boot.service = .none ∧ windowOpen s 17 tick = false) ∧
    (∃ (s : State) (c : Fin 24) (tick : Nat), windowOpen s c.val tick = true) ∧
    (∃ (s : State), Calm s ∧ Awake s ∧ s.boot.service = .none ∧ s.sto.in1Low = false ∧ s.sto.in2Low = false) :=
  ⟨⟨up, 16, 0, calm_of (by decide +kernel), awake_of (by decide +kernel), by decide +kernel⟩,
   ⟨up, 0, calm_of (by decide +kernel), awake_of (by decide +kernel), by decide +kernel⟩,
   ⟨{ up with bus := { up.bus with chopTrans := [0] } }, 16, 0, by decide +kernel⟩,
   ⟨up, calm_of (by decide +kernel), awake_of (by decide +kernel), by decide +kernel⟩⟩

/-- The hypotheses of BlankingAndSelfTest can be met, clause by clause. -/
theorem test_BlankingAndSelfTest_meets :
    (∃ (s : State) (c : Fin 24) (tick : Nat), Calm s ∧ Awake s ∧ s.boot.service = .none ∧ windowCloses s c.val tick = true) ∧
    (∃ (s : State) (during after : Bool), Calm s ∧ Awake s ∧ s.boot.service = .none ∧ parD s Par.cmpTestPeriod ≠ 0 ∧ (during &&
      after) = false) :=
  ⟨⟨{ up with bus := { up.bus with chopTrans := [0] } }, 16, nsTicks (parD up Par.blankChop), calm_of (by decide +kernel), awake_of
     (by decide +kernel), by decide +kernel⟩,
   ⟨up, true, false, calm_of (by decide +kernel), awake_of (by decide +kernel), by decide +kernel⟩⟩

/-- The hypotheses of LegEdges can be met, clause by clause. -/
theorem test_LegEdges_meets :
    (∃ (s : State) (x : Axis) (l : Leg), Calm s ∧ (getAx s x).pwm.switching = true ∧ l ∉ heldLegs s x ∧ (getLeg s x l).hi = true) :=
  ⟨onA runs (fun a => { a with legs := { a.legs with u1 := { a.legs.u1 with hi := true } } }), .a, .u1, calm_of
    (by decide +kernel), by decide +kernel⟩

/-- The hypotheses of LegBypassAndRatings can be met, clause by clause. -/
theorem test_LegBypassAndRatings_meets :
    (∃ (s : State) (x : Axis) (k ma : Nat), Calm s ∧ isReady s = true ∧ hosted s x = true ∧ parX s x Par.legAutoBypass = 1 ∧
      (dualStar s x = true ∨ parX s x Par.phaseSatOk = 1) ∧ (getAx s x).stage.bypassMask = 0 ∧ k < 6 ∧ (getAx s x).pwm.scarpFirst =
      BitVec.ofNat 8 (axisNo x * 6 + k) ∧ s.scarp.latch.getLsbD (axisNo x * 6 + k) = true ∧ 10000 < ma) ∧
    (∃ (s : State) (x : Axis) (k ma : Nat), Calm s ∧ isReady s = true ∧ hosted s x = true ∧ parX s x Par.legAutoBypass = 1 ∧
      (dualStar s x = true ∨ parX s x Par.phaseSatOk = 1) ∧ (getAx s x).stage.bypassMask = 0 ∧ k < 6 ∧ (getAx s x).pwm.scarpFirst =
      BitVec.ofNat 8 (axisNo x * 6 + k) ∧ s.scarp.latch.getLsbD (axisNo x * 6 + k) = true ∧ s.scarp.raw.getLsbD (axisNo x * 6 + k)
      = false ∧ (getAx s x).stage.autoBypass = false ∧ ma ≤ 10000) ∧
    (∃ (s : State) (x : Axis) (l : Leg), Calm s ∧ (getAx s x).stage.bypass = .ramp l) ∧
    (∃ (s : State) (x : Axis), Calm s ∧ dualStar s x = false ∧ 0 < (getAx s x).stage.imbN) ∧
    (∃ (s : State), Calm s ∧ thoevoUp s = true) :=
  ⟨⟨put (put (onA { up with scarp := { latch := 32, raw := 0 } } (fun a => { a with pwm := { a.pwm with scarpFirst := 5 } }))
     Par.legAutoBypass 1) Par.phaseSatOk 1, .a, 5, 10001, calm_of (by decide +kernel), by decide +kernel⟩,
   ⟨put (put (onA { up with scarp := { latch := 32, raw := 0 } } (fun a => { a with pwm := { a.pwm with scarpFirst := 5 } }))
     Par.legAutoBypass 1) Par.phaseSatOk 1, .a, 5, 10000, calm_of (by decide +kernel), by decide +kernel⟩,
   ⟨onA up (fun a => { a with stage := { a.stage with bypass := .ramp .v2 } }), .a, .v2, calm_of (by decide +kernel),
     by decide +kernel⟩,
   ⟨onA up (fun a => { a with stage := { a.stage with imbN := 1 } }), .a, calm_of (by decide +kernel), by decide +kernel⟩,
   ⟨up, calm_of (by decide +kernel), by decide +kernel⟩⟩

/-- The hypotheses of ConversionTriggers can be met, clause by clause. -/
theorem test_ConversionTriggers_meets :
    (∃ (s : State) (cv : Fin 12) (n : Fin 4) (tb : ConvTable) (k : Nat), Calm s ∧ Awake s ∧ (getCv s cv.val).tables[n.val]? = some
      tb ∧ trigDue s tb = some k ∧ tb.entries ≠ [] ∧ tb.div.toNat ≤ tb.divCount ∧ tb.todo = [] ∧ tb.pendingRun = false ∧
      (s.conv.foothill = true → (getCv s cv.val).tables.any tblRuns = false ∧ (getCv s cv.val).urgent = none)) ∧
    (∃ (s : State) (cv : Fin 12) (n : Fin 4) (tb : ConvTable) (k : Nat), Calm s ∧ Awake s ∧ (getCv s cv.val).tables[n.val]? = some
      tb ∧ trigDue s tb = some k ∧ tb.entries ≠ [] ∧ tb.divCount < tb.div.toNat) ∧
    (∃ (s : State) (cv : Fin 12) (n : Fin 4) (tb : ConvTable) (k : Nat), Calm s ∧ Awake s ∧ (getCv s cv.val).tables[n.val]? = some
      tb ∧ trigDue s tb = some k ∧ tb.entries ≠ [] ∧ tb.div.toNat ≤ tb.divCount ∧ (tb.todo ≠ [] ∨ tb.pendingRun = true ∨
      (s.conv.foothill = true ∧ ((getCv s cv.val).tables.any tblRuns = true ∨ (getCv s cv.val).urgent ≠ none)))) ∧
    (∃ (s : State) (cv : Fin 12), Calm s ∧ Awake s ∧ (getCv (calTurn s) cv.val).outOfService = false ∧ (getCv s cv.val).urgent =
      none) ∧
    (∃ (s : State) (cv : Fin 12), Calm s ∧ Awake s ∧ ((getCv (calTurn s) cv.val).outOfService = true ∨ (getCv s cv.val).urgent ≠
      none)) :=
  ⟨⟨tables { trig := 1, entries := [0x100] }, 0, 2, { trig := 1, entries := [0x100] }, 0, calm_of (by decide +kernel), awake_of
     (by decide +kernel), by decide +kernel⟩,
   ⟨tables { trig := 1, div := 1, entries := [0x100] }, 0, 2, { trig := 1, div := 1, entries := [0x100] }, 0, calm_of
     (by decide +kernel), awake_of (by decide +kernel), by decide +kernel⟩,
   ⟨tables { trig := 1, entries := [0x100], todo := [0x100] }, 0, 2, { trig := 1, entries := [0x100], todo := [0x100] }, 0, calm_of
     (by decide +kernel), awake_of (by decide +kernel), by decide +kernel⟩,
   ⟨up, 11, calm_of (by decide +kernel), awake_of (by decide +kernel), by decide +kernel⟩,
   ⟨onA up (fun a => { a with legs := { a.legs with u1 := { a.legs.u1 with cv := { urgent := some 0 } } } }), 0, calm_of
     (by decide +kernel), awake_of (by decide +kernel), by decide +kernel⟩⟩

/-- The hypotheses of ProfilesAndResults can be met, clause by clause. -/
theorem test_ProfilesAndResults_meets :
    (∃ (s : State) (x : Axis) (i : Fin 16) (codes : List (BitVec 16)), Calm s ∧ (∃ e, (getAx s x).pwm.exts.head? = some e ∧ (getAx
      s x).conv.profAt + profD s x + i.val * profS s x < e.1) ∧ isReady s = true ∧ s.sum.pfCommit = false ∧ hosted s x = true ∧
      (getAx s x).pwm.running = true ∧ i.val < profN s x ∧ codes.length = 6 ∧ ((getAx s x).conv.profNow.map (·.1)).Pairwise (· <
      ·)) ∧
    (∃ (s : State) (cv : Fin 12), Calm s ∧ Awake s ∧ (getCv s cv.val).urgent = some 0 ∧ s.conv.calNext = 0 ∧ s.conv.calWait.getLsbD
      cv.val = false) ∧
    (∃ (s : State) (cv : Fin 12), Calm s ∧ Awake s ∧ (getCv s cv.val).urgent = some 0 ∧ s.conv.calNext = 0 ∧ s.conv.calWait.getLsbD
      cv.val = true) ∧
    (∃ (s : State) (cv : Fin 12) (n : Nat) (tb : ConvTable) (e : Word), Calm s ∧ Awake s ∧ (getCv s cv.val).urgent ≠ some 0 ∧
      s.conv.calNext = 0 ∧ taking none (getCv s cv.val) 0 = some n ∧ (getCv s cv.val).tables[n]? = some tb ∧ tb.trig ≠ 9 ∧
      tb.todo.head? = some e ∧ owChan s cv.val = none ∧ mapWf 0 (getCv s cv.val).results = true) ∧
    (∃ (s : State), Calm s ∧ Awake s ∧ s.axes.a.conv.refSel = 0) :=
  ⟨⟨onA up (fun a => { a with pwm := { a.pwm with exts := [(100000, true)] } }), .a, 7, List.replicate 6 5, calm_of
     (by decide +kernel), ⟨_, rfl, by decide +kernel⟩, by decide +kernel⟩,
   ⟨onA up (fun a => { a with legs := { a.legs with u1 := { a.legs.u1 with cv := { urgent := some 0 } } } }), 0, calm_of
     (by decide +kernel), awake_of (by decide +kernel), by decide +kernel⟩,
   ⟨onA { up with conv := { calWait := 1 } } (fun a =>
     { a with legs := { a.legs with u1 := { a.legs.u1 with cv := { urgent := some 0 } } } }), 0, calm_of (by decide +kernel),
     awake_of (by decide +kernel), by decide +kernel⟩,
   ⟨tables { trig := 1, entries := [0x0], todo := [0x0] }, 0, 2, { trig := 1, entries := [0x0], todo := [0x0] }, 0, calm_of
     (by decide +kernel), awake_of (by decide +kernel), by decide +kernel⟩,
   ⟨up, calm_of (by decide +kernel), awake_of (by decide +kernel), by decide +kernel⟩⟩

/-- The hypotheses of PlausibilityAndOpenWire can be met, clause by clause. -/
theorem test_PlausibilityAndOpenWire_meets :
    (∃ (s : State) (pair : Fin 6) (ch : Fin 9) (lk hk lp hp : BitVec 16), Calm s ∧ Awake s ∧ 1 ≤ ch.val ∧ (getPlaus s (pair.val * 8
      + (ch.val - 1))).arbitrate = true ∧ (chkOff s pair.val 16384 lk = true ∨ chkOff s pair.val 49152 hk = true) ∧ chkOff s
      (pair.val + 6) 16384 lp = false ∧ chkOff s (pair.val + 6) 49152 hp = false) ∧
    (∃ (s : State) (pair : Fin 6) (ch : Fin 9) (lk hp : BitVec 16), Calm s ∧ Awake s ∧ 1 ≤ ch.val ∧ (getPlaus s (pair.val * 8 +
      (ch.val - 1))).arbitrate = true ∧ chkOff s pair.val 16384 lk = true ∧ chkOff s (pair.val + 6) 49152 hp = true) ∧
    (∃ (s : State) (pair : Fin 6) (ch : Fin 9) (lk hk lp hp : BitVec 16), Calm s ∧ Awake s ∧ 1 ≤ ch.val ∧ (getPlaus s (pair.val * 8
      + (ch.val - 1))).arbitrate = true ∧ (getPlaus s (pair.val * 8 + (ch.val - 1))).warnedAt = none ∧ chkOff s pair.val 16384 lk =
      false ∧ chkOff s pair.val 49152 hk = false ∧ chkOff s (pair.val + 6) 16384 lp = false ∧ chkOff s (pair.val + 6) 49152 hp =
      false) ∧
    (∃ (s : State) (a b : Nat), Calm s ∧ thoevoUp s = true ∧ fval (parD s Par.vmXchk) < absR (milli a - milli b)) ∧
    (∃ (s : State) (x : Axis), Calm s ∧ (getAx s x).conv.refWait = true ∧ (getAx s x).conv.refOk = false) ∧
    (∃ (s : State), Calm s ∧ isReady s = true ∧ s.sum.pfCommit = false ∧ parD s Par.owPeriod ≠ 0 ∧ s.conv.ow = .idle ∧ owInputs s ≠
      []) ∧
    (∃ (s : State) (i : ExtIn), Calm s ∧ s.conv.ow = .first i) ∧
    (∃ (s : State) (i : ExtIn) (up : Int), Calm s ∧ s.conv.ow = .second i up ∧ s.conv.ext.length = 11) ∧
    (∃ (s : State) (i : ExtIn), Calm s ∧ s.conv.ow = .rest i) :=
  ⟨⟨due, 0, 1, 0, 0xC000, 0x4000, 0xC000, calm_of (by decide +kernel), awake_of (by decide +kernel), by decide +kernel⟩,
   ⟨due, 0, 1, 0, 0, calm_of (by decide +kernel), awake_of (by decide +kernel), by decide +kernel⟩,
   ⟨due, 0, 1, 0x4000, 0xC000, 0x4000, 0xC000, calm_of (by decide +kernel), awake_of (by decide +kernel), by decide +kernel⟩,
   ⟨up, 48000, 45999, calm_of (by decide +kernel), by decide +kernel⟩,
   ⟨onA up (fun a => { a with conv := { a.conv with refWait := true, refOk := false } }), .a, calm_of (by decide +kernel),
     by decide +kernel⟩,
   ⟨put (put up Par.twSrc 1) Par.owPeriod 0x3F800000, calm_of (by decide +kernel), by decide +kernel⟩,
   ⟨{ up with conv := { up.conv with ow := .first .ain0 } }, .ain0, calm_of (by decide +kernel), by decide +kernel⟩,
   ⟨{ up with conv := { up.conv with ow := .second .sinA 1000 } }, .sinA, 1000, calm_of (by decide +kernel), by decide +kernel⟩,
   ⟨{ up with conv := { up.conv with ow := .rest .refExt } }, .refExt, calm_of (by decide +kernel), by decide +kernel⟩⟩

/-- The hypotheses of HeartbeatAndArming can be met, clause by clause. -/
theorem test_HeartbeatAndArming_meets :
    (∃ (s : State), Calm s ∧ thoevoUp s = true) ∧
    (∃ (s : State) (e : Engine), Calm s ∧ Room s 2 ∧ anyRun s = true ∧ hostedOn s e ≠ []) ∧
    (∃ (s : State) (e : Engine), Calm s ∧ (getEng s e).armed = true ∧ bankOk (inactiveBank s e) = false) ∧
    (∃ (s : State) (e : Engine), Calm s ∧ (getEng s e).armed = true ∧ bankOk (inactiveBank s e) = true ∧ (getAx s (leadAxis s
      e)).pwm.running = true) ∧
    (∃ (s : State) (e : Engine), Calm s ∧ (getEng s e).armed = true ∧ bankOk (inactiveBank s e) = true ∧ (getAx s (leadAxis s
      e)).pwm.running = false ∧ s.cairn.arming = none) :=
  ⟨⟨up, calm_of (by decide +kernel), by decide +kernel⟩,
   ⟨runs, .rga, calm_of (by decide +kernel), (by unfold Room; decide +kernel), by decide +kernel⟩,
   ⟨armed { crc := 1 }, .rga, calm_of (by decide +kernel), by decide +kernel⟩,
   ⟨armed goodBank, .rga, calm_of (by decide +kernel), by decide +kernel⟩,
   ⟨onA (armed goodBank) (fun a => { a with pwm := { a.pwm with running := false } }), .rga, calm_of (by decide +kernel),
     by decide +kernel⟩⟩

/-- The hypotheses of HandoverAndEngineTest can be met, clause by clause. -/
theorem test_HandoverAndEngineTest_meets :
    (∃ (s : State) (x : Axis) (e : Engine), Calm s ∧ s.ridge.copyPending = true ∧ s.ridge.handover = some x ∧ (getAx s x).seq.host
      = some e) ∧
    (∃ (s : State), Calm s ∧ isReady s = true ∧ parD s Par.rgTestPeriod ≠ 0 ∧ swapBusy s = false ∧ s.ridge.rga.underTest = false ∧
      s.ridge.rgb.underTest = false) ∧
    (∃ (s : State) (e : Engine) (sig : BitVec 32), Calm s ∧ sig = Config.rgSignature ∧ (getEng s e).underTest = true ∧ hostedOn s e
      = []) ∧
    (∃ (s : State) (e : Engine) (sig : BitVec 32), Calm s ∧ sig ≠ Config.rgSignature ∧ (getEng s e).underTest = true ∧ hostedOn s e
      = []) :=
  ⟨⟨{ up with ridge := { up.ridge with copyPending := true, handover := some .a } }, .a, .rga, calm_of (by decide +kernel),
     by decide +kernel⟩,
   ⟨put up Par.rgTestPeriod 0x41200000, calm_of (by decide +kernel), by decide +kernel⟩,
   ⟨{ (onA up (fun a => { a with seq := { a.seq with host := some .rgb } })) with ridge := { rga := { underTest := true } } },
     .rga, Config.rgSignature, calm_of (by decide +kernel), rfl, by decide +kernel⟩,
   ⟨{ (onA up (fun a => { a with seq := { a.seq with host := some .rgb } })) with ridge := { rga := { underTest := true } } },
     .rga, Complement.complement Config.rgSignature, calm_of (by decide +kernel), compl_ne _, by decide +kernel⟩⟩

/-- The hypotheses of BoundaryOfADisabledAxis can be met, clause by clause. -/
theorem test_BoundaryOfADisabledAxis_meets :
    (∃ (s : State) (x : Axis) (e : Engine) (sense : BoundarySense), Calm s ∧ isReady s = true ∧ s.sum.pfCommit = false ∧ (getAx s
      x).pwm.running = true ∧ (getAx s x).pwm.boundaryDue = true ∧ (getAx s x).seq.host = some e ∧ (getAx s x).start.ax = .disabled
      ∧ (getAx s x).start.gateOffNext = false ∧ (getAx s x).start.stop = none ∧ (getAx s x).start.seeded = false ∧ (getAx s
      x).stage.bypass = .none ∧ (getAx s x).seq.written = .idle ∧ (getAx s x).seq.chainBusy = false ∧ (getAx s x).seq.chainQueued =
      false ∧ (getAx s x).seq.dead = false ∧ (getAx s (otherAxis x)).seq.chainBusy = false ∧ swapBusy s = false ∧ s.cairn.arming =
      none ∧ s.ridge.copyPending = false ∧ sense.ecc = .none) :=
  ⟨onA up (fun a => { a with pwm := { a.pwm with boundaryDue := true } }), .a, .rga, { }, calm_of (by decide +kernel),
    by decide +kernel⟩

/-- The hypotheses of DutiesReachTheGates can be met, clause by clause. -/
theorem test_DutiesReachTheGates_meets :
    (∃ (s : State) (x : Axis), Calm s ∧ (getAx s x).seq.chainBusy = true) ∧
    (∃ (s : State) (x : Axis) (peak : Bool) (p : AxisPlace) (ds : List F32) (tk : Nat), Calm s ∧ isReady s = true ∧ (getAx s
      x).pwm.running = true ∧ placedAx s x = some p ∧ (getAx s x).pwm.exts.head? = some (tk, peak) ∧ (getAx s x).pwm.carAt < tk ∧
      (getAx s x).pwm.crossed = some ds ∧ ds.length = 6 ∧ ((getAx s x).pwm.crossedHeld = true ∨ ((reachCommit p.n (getAx s
      x).pwm).boundaryDue = true ∧ (getAx s x).pwm.crossedLate = false))) ∧
    (∃ (s : State) (x : Axis) (peak : Bool) (p : AxisPlace) (ds : List F32) (tk : Nat), Calm s ∧ isReady s = true ∧ (getAx s
      x).pwm.running = true ∧ placedAx s x = some p ∧ (getAx s x).pwm.exts.head? = some (tk, peak) ∧ (getAx s x).pwm.carAt < tk ∧
      (getAx s x).pwm.crossed = some ds ∧ (getAx s x).pwm.crossedHeld = false ∧ (reachCommit p.n (getAx s x).pwm).boundaryDue =
      true ∧ (getAx s x).pwm.crossedLate = true) ∧
    (∃ (s : State) (x : Axis) (peak : Bool) (p : AxisPlace) (tk : Nat), Calm s ∧ isReady s = true ∧ (getAx s x).pwm.running = true
      ∧ placedAx s x = some p ∧ (getAx s x).pwm.exts.head? = some (tk, peak) ∧ (getAx s x).pwm.carAt < tk ∧ (getAx s
      x).pwm.crossedHeld = false ∧ (reachCommit p.n (getAx s x).pwm).boundaryDue = false) :=
  ⟨⟨onA up (fun a => { a with seq := { a.seq with chainBusy := true, duty := some (List.replicate 6 0x3F800000) } }), .a, calm_of
     (by decide +kernel), by decide +kernel⟩,
   ⟨onA up (fun a =>
     { a with pwm := { a.pwm with exts := [(80000, false)], crossed := some (List.replicate 6 0x3F800000), crossedHeld := true } }),
     .a, false, { }, List.replicate 6 0x3F800000, 80000, calm_of (by decide +kernel), by decide +kernel⟩,
   ⟨onA up (fun a => { a with pwm := { a.pwm with exts := [(80000, true)], crossed := some [0], crossedLate := true } }), .a, true,
     { }, [0], 80000, calm_of (by decide +kernel), by decide +kernel⟩,
   ⟨onA up (fun a => { a with pwm := { a.pwm with exts := [(80000, true)], counting := true } }), .a, true, { }, 80000, calm_of
     (by decide +kernel), by decide +kernel⟩⟩

/-- The hypotheses of ControlTimeouts can be met, clause by clause. -/
theorem test_ControlTimeouts_meets :
    (∃ (s : State) (x : Axis), Calm s ∧ (getAx s x).sp.accepted = true ∧ (getAx s x).sp.src = 0 ∧ parX s x Par.spMbxTimeout ≠ 0) ∧
    (∃ (s : State) (x : Axis), Calm s ∧ (getAx s x).ctl.status.getLsbD 2 = true ∧ (getAx s x).ctl.fwBound = none) ∧
    (∃ (s : State) (x : Axis), Calm s ∧ (getAx s x).ctl.status.getLsbD 2 = false ∧ (getAx s x).ctl.fwBound ≠ none) ∧
    (∃ (s : State) (x : Axis), Calm s ∧ gatesOn (getAx s x) = true ∧ (speedFb s x).2 = true ∧ fval (parX s x Par.overspeed) < absR
      (speedFb s x).1) :=
  ⟨⟨put runs Par.spMbxTimeout 0x3F800000, .a, calm_of (by decide +kernel), by decide +kernel⟩,
   ⟨onA up (fun a => { a with ctl := { a.ctl with status := 4 } }), .a, calm_of (by decide +kernel), by decide +kernel⟩,
   ⟨onA up (fun a => { a with ctl := { a.ctl with fwBound := some 0x43480000 } }), .a, calm_of (by decide +kernel),
     by decide +kernel⟩,
   ⟨onA runs (fun a => { a with fb := { a.fb with speedValid := true, speed := 0xC3A50001 } }), .a, calm_of (by decide +kernel),
     by decide +kernel⟩⟩

/-- The hypotheses of CrestConvergence can be met, clause by clause. -/
theorem test_CrestConvergence_meets :
    (∃ (s : State) (x : Axis), Calm s ∧ (getAx s x).pwm.switching = true ∧ (getAx s x).crest.conv = false ∧ ((getAx s
      x).crest.polarity = true ∨ openLoop (getAx s x) = true) ∧ parX s x Par.crestMode ≠ 0 ∧ fle (fabs (getAx s x).crest.err) (fdeg
      (parX s x Par.crestConvErr)) = true ∧ partsMeet s x = true) ∧
    (∃ (s : State) (x : Axis), Calm s ∧ (getAx s x).crest.conv = true ∧ (parX s x Par.crestMode ≠ 0 ∨ identing (getAx s x) = true)
      ∧ lossSeen s x = true) ∧
    (∃ (s : State) (x : Axis) (flux : Bool), Calm s ∧ parX s x Par.crestMode ≠ 0 ∧ (if flux then atClamp (psiRange s x) (getAx s
      x).crest.psiEst = true ∧ (getAx s x).crest.psiClamp = false else atClamp (rsRange s x) (getAx s x).crest.rsEst = true ∧
      (getAx s x).crest.rsClamp = false)) ∧
    (∃ (s : State) (x : Axis), Calm s ∧ parX s x Par.crestMode = 2 ∧ (getAx s x).crest.conv = true ∧ (getAx s x).crest.xchkOver =
      true ∧ (getAx s x).crest.xchk = false) ∧
    (∃ (s : State) (x : Axis), Calm s ∧ parX s x Par.crestMode = 2 ∧ (getAx s x).crest.conv = true ∧ (getAx s x).crest.xchkOver =
      false ∧ (getAx s x).crest.xchk = true) :=
  ⟨⟨onA (put runs Par.crestMode 1) (fun a => { a with crest := { a.crest with polarity := true, hold := true, w := 0 } }), .a,
     calm_of (by decide +kernel), by decide +kernel⟩,
   ⟨onA (put runs Par.crestMode 1) (fun a => { a with crest := { a.crest with conv := true, err := 0x40000000 } }), .a, calm_of
     (by decide +kernel), by decide +kernel⟩,
   ⟨onA (put runs Par.crestMode 1) (fun a => { a with crest := { a.crest with psiEst := (psiRange up .a).2 } }), .a, true, calm_of
     (by decide +kernel), by decide +kernel⟩,
   ⟨onA (put runs Par.crestMode 2) (fun a => { a with crest := { a.crest with conv := true, xchkOver := true } }), .a, calm_of
     (by decide +kernel), by decide +kernel⟩,
   ⟨onA (put runs Par.crestMode 2) (fun a => { a with crest := { a.crest with conv := true, xchk := true } }), .a, calm_of
     (by decide +kernel), by decide +kernel⟩⟩

/-- The hypotheses of MeasurementOutcomes can be met, clause by clause. -/
theorem test_MeasurementOutcomes_meets :
    (∃ (s : State) (x : Axis) (l : List LandSample) (m : Measurement) (c : Instr), Calm s ∧ m = evalLands s x l ∧ ((c = .measureEnd
      x l ∧ (getAx s x).start.ax = .measure) ∨ (c = .blockedWaitRepeat x l ∧ (getAx s x).start.ax = .blockedWait)) ∧ fisZero (parX
      s x Par.fsMeasT) = false ∧ m.flagged = true ∧ (getAx s x).pwm.switching = false ∧ (getAx s x).start.retry < (parX s x
      Par.stRetries).toNat) ∧
    (∃ (s : State) (x : Axis) (l : List LandSample) (m : Measurement) (c : Instr), Calm s ∧ m = evalLands s x l ∧ ((c = .measureEnd
      x l ∧ (getAx s x).start.ax = .measure) ∨ (c = .blockedWaitRepeat x l ∧ (getAx s x).start.ax = .blockedWait)) ∧ fisZero (parX
      s x Par.fsMeasT) = false ∧ m.flagged = true ∧ (getAx s x).pwm.switching = false ∧ (parX s x Par.stRetries).toNat ≤ (getAx s
      x).start.retry) ∧
    (∃ (s : State) (x : Axis) (l : List LandSample) (m : Measurement) (c : Instr), Calm s ∧ m = evalLands s x l ∧ ((c = .measureEnd
      x l ∧ (getAx s x).start.ax = .measure) ∨ (c = .blockedWaitRepeat x l ∧ (getAx s x).start.ax = .blockedWait)) ∧ fisZero (parX
      s x Par.fsMeasT) = false ∧ m.flagged = false ∧ fval m.u < mkRat 1 10) ∧
    (∃ (s : State) (x : Axis) (l : List LandSample) (m : Measurement) (c : Instr), Calm s ∧ m = evalLands s x l ∧ ((c = .measureEnd
      x l ∧ (getAx s x).start.ax = .measure) ∨ (c = .blockedWaitRepeat x l ∧ (getAx s x).start.ax = .blockedWait)) ∧ fisZero (parX
      s x Par.fsMeasT) = false ∧ m.flagged = false ∧ mkRat 1 10 ≤ fval m.u ∧ absR (fval m.we) * pf s x Par.motPsi * mkRat 7 10 ≤
      fval m.u ∧ fval m.u ≤ absR (fval m.we) * pf s x Par.motPsi * mkRat 13 10 ∧ wCatch s x ≤ absR (fval m.we / polePairs s x) ∧
      ((getAx s x).start.anyDir = true ∨ (getAx s x).start.dirNeg = decide (fval m.we / polePairs s x < 0))) ∧
    (∃ (s : State) (x : Axis) (l : List LandSample) (m : Measurement) (c : Instr), Calm s ∧ m = evalLands s x l ∧ ((c = .measureEnd
      x l ∧ (getAx s x).start.ax = .measure) ∨ (c = .blockedWaitRepeat x l ∧ (getAx s x).start.ax = .blockedWait)) ∧ fisZero (parX
      s x Par.fsMeasT) = false ∧ m.flagged = false ∧ mkRat 1 10 ≤ fval m.u ∧ absR (fval m.we) * pf s x Par.motPsi * mkRat 7 10 ≤
      fval m.u ∧ fval m.u ≤ absR (fval m.we) * pf s x Par.motPsi * mkRat 13 10 ∧ wCatch s x ≤ absR (fval m.we / polePairs s x) ∧
      parX s x Par.fsRevEn ≠ 1 ∧ (getAx s x).start.anyDir = false ∧ (getAx s x).start.dirNeg ≠ decide (fval m.we / polePairs s x <
      0)) ∧
    (∃ (s : State) (x : Axis) (l : List LandSample) (c : Instr), Calm s ∧ ((c = .measureEnd x l ∧ (getAx s x).start.ax = .measure)
      ∨ (c = .blockedWaitRepeat x l ∧ (getAx s x).start.ax = .blockedWait)) ∧ fisZero (parX s x Par.fsMeasT) = true ∧ ((speedFb s
      x).2 = false ∨ absR (speedFb s x).1 < wCatch s x)) ∧
    (∃ (s : State) (x : Axis) (l : List LandSample) (c : Instr), Calm s ∧ ((c = .measureEnd x l ∧ (getAx s x).start.ax = .measure)
      ∨ (c = .blockedWaitRepeat x l ∧ (getAx s x).start.ax = .blockedWait)) ∧ fisZero (parX s x Par.fsMeasT) = true ∧ (speedFb s
      x).2 = true ∧ wCatch s x ≤ absR (speedFb s x).1 ∧ ((getAx s x).start.anyDir = true ∨ (getAx s x).start.dirNeg = decide
      ((speedFb s x).1 < 0))) :=
  ⟨⟨onA (starts .measure) (fun a => { a with legs := { a.legs with u1 := { a.legs.u1 with cv := { suspect := true } } } }), .a, [],
     _, .measureEnd .a [], calm_of (by decide +kernel), rfl, Or.inl ⟨rfl, rfl⟩, by decide +kernel⟩,
   ⟨onA (starts .blockedWait) (fun a =>
     { a with start := { a.start with retry := 3 }, legs := { a.legs with u1 := { a.legs.u1 with cv := { suspect := true } } } }),
     .a, [], _, .blockedWaitRepeat .a [], calm_of (by decide +kernel), rfl, Or.inr ⟨rfl, rfl⟩, by decide +kernel⟩,
   ⟨starts .measure, .a, [], _, .measureEnd .a [], calm_of (by decide +kernel), rfl, Or.inl ⟨rfl, rfl⟩, by decide +kernel⟩,
   ⟨starts .measure, .a, [⟨0, 160, 0xFFB0, 0xFFB0⟩, ⟨1000000, 159, 0xFFBE, 0xFFA3⟩], _, .measureEnd .a [⟨0, 160, 0xFFB0, 0xFFB0⟩,
     ⟨1000000, 159, 0xFFBE, 0xFFA3⟩], calm_of (by decide +kernel), rfl, Or.inl ⟨rfl, rfl⟩, by decide +kernel⟩,
   ⟨onA (put (starts .measure) Par.fsRevEn 0) (fun a => { a with start := { a.start with anyDir := false } }), .a, [⟨0, 160,
     0xFFB0, 0xFFB0⟩, ⟨1000000, 159, 0xFFA3, 0xFFBE⟩], _, .measureEnd .a [⟨0, 160, 0xFFB0, 0xFFB0⟩, ⟨1000000, 159, 0xFFA3,
     0xFFBE⟩], calm_of (by decide +kernel), rfl, Or.inl ⟨rfl, rfl⟩, by decide +kernel⟩,
   ⟨put (starts .measure) Par.fsMeasT 0, .a, [], .measureEnd .a [], calm_of (by decide +kernel), Or.inl ⟨rfl, rfl⟩,
     by decide +kernel⟩,
   ⟨onA (put (put (starts .measure) Par.fsMeasT 0) Par.crestMode 0) (fun a =>
     { a with fb := { a.fb with speedValid := true, speed := 0x42C80000 } }), .a, [], .measureEnd .a [], calm_of
     (by decide +kernel), Or.inl ⟨rfl, rfl⟩, by decide +kernel⟩⟩

/-- The hypotheses of RestReadAndPolarity can be met, clause by clause. -/
theorem test_RestReadAndPolarity_meets :
    (∃ (s : State) (x : Axis), Calm s ∧ (getAx s x).start.ax = .read ∧ (getAx s x).start.gateOffNext = false ∧ readLen (readPeriods
      s x (parX s x Par.crestReadT)) ≤ (getAx s x).start.readPos ∧ flt (getAx s x).crest.saliency (parX s x Par.crestSalMin) =
      false) ∧
    (∃ (s : State) (x : Axis), Calm s ∧ (getAx s x).start.ax = .read ∧ (getAx s x).start.gateOffNext = false ∧ readLen (readPeriods
      s x (parX s x Par.crestReadT)) ≤ (getAx s x).start.readPos ∧ flt (getAx s x).crest.saliency (parX s x Par.crestSalMin) = true
      ∧ parX s x Par.stMethod ≠ 1) ∧
    (∃ (s : State) (x : Axis) (k : Rat), Calm s ∧ k = polarityK (getAx s x).crest.gPlus (getAx s x).crest.gMinus ∧ (getAx s
      x).start.ax = .polarity ∧ (getAx s x).start.gateOffNext = false ∧ mkRat 5 1000 ≤ ((getAx s x).start.readPos : Rat) *
      periodSec s x ∧ pf s x Par.crestPolMin / 100 ≤ k) ∧
    (∃ (s : State) (x : Axis) (k : Rat), Calm s ∧ k = polarityK (getAx s x).crest.gPlus (getAx s x).crest.gMinus ∧ (getAx s
      x).start.ax = .polarity ∧ (getAx s x).start.gateOffNext = false ∧ mkRat 5 1000 ≤ ((getAx s x).start.readPos : Rat) *
      periodSec s x ∧ k < pf s x Par.crestPolMin / 100 ∧ k ≤ -(pf s x Par.crestPolMin / 100)) ∧
    (∃ (s : State) (x : Axis) (k : Rat), Calm s ∧ k = polarityK (getAx s x).crest.gPlus (getAx s x).crest.gMinus ∧ (getAx s
      x).start.ax = .polarity ∧ (getAx s x).start.gateOffNext = false ∧ mkRat 5 1000 ≤ ((getAx s x).start.readPos : Rat) *
      periodSec s x ∧ (getAx s x).pwm.switching = true ∧ k < pf s x Par.crestPolMin / 100 ∧ -(pf s x Par.crestPolMin / 100) < k) ∧
    (∃ (s : State) (x : Axis), Calm s ∧ (getAx s x).start.ax = .blockedWait) ∧
    (∃ (s : State) (x : Axis), Calm s ∧ (getAx s x).start.ax = .converge ∧ (getAx s x).start.gateOffNext = false ∧ (getAx s
      x).start.crossing = false ∧ (getAx s x).pwm.switching = true) ∧
    (∃ (s : State) (x : Axis), Calm s ∧ (getAx s x).start.ax = .retryWait ∧ fisZero (parX s x Par.fsMeasT) = false) :=
  ⟨⟨onA (starts .read) (fun a =>
     { a with start := { a.start with readPos := 10000 }, crest := { a.crest with saliency := 0x3F866666 } }), .a, calm_of
     (by decide +kernel), by decide +kernel⟩,
   ⟨onA (starts .read) (fun a => { a with start := { a.start with readPos := 10000 } }), .a, calm_of (by decide +kernel),
     by decide +kernel⟩,
   ⟨onA (starts .polarity) (fun a =>
     { a with start := { a.start with readPos := 10000 }, crest := { a.crest with gPlus := 0x3F800000, gMinus := 0x3F000000 } }),
     .a, _, calm_of (by decide +kernel), rfl, by decide +kernel⟩,
   ⟨onA (starts .polarity) (fun a =>
     { a with start := { a.start with readPos := 10000 }, crest := { a.crest with gPlus := 0x3F000000, gMinus := 0x3F800000 } }),
     .a, _, calm_of (by decide +kernel), rfl, by decide +kernel⟩,
   ⟨onA (starts .polarity) (fun a =>
     { a with start := { a.start with readPos := 10000 }, pwm := { a.pwm with switching := true }, crest := { a.crest with gPlus := 0x3F800000, gMinus := 0x3F800000 } }),
     .a, _, calm_of (by decide +kernel), rfl, by decide +kernel⟩,
   ⟨starts .blockedWait, .a, calm_of (by decide +kernel), by decide +kernel⟩,
   ⟨onA (starts .converge) (fun a => { a with pwm := { a.pwm with switching := true } }), .a, calm_of (by decide +kernel),
     by decide +kernel⟩,
   ⟨starts .retryWait, .a, calm_of (by decide +kernel), by decide +kernel⟩⟩

/-- The hypotheses of AlignmentAndRamp can be met, clause by clause. -/
theorem test_AlignmentAndRamp_meets :
    (∃ (s : State) (x : Axis), Calm s ∧ (getAx s x).start.ax = .align ∧ (getAx s x).start.risen = false) ∧
    (∃ (s : State) (x : Axis), Calm s ∧ (getAx s x).start.ax = .align ∧ (getAx s x).start.phase2 = false ∧ (getAx s
      x).start.alignDone = false) ∧
    (∃ (s : State) (x : Axis), Calm s ∧ (getAx s x).start.ax = .align ∧ (getAx s x).start.alignDone = false ∧ (getAx s
      x).stage.releaseWait = false ∧ (getAx s x).start.gateOffNext = false) ∧
    (∃ (s : State) (x : Axis), Calm s ∧ (getAx s x).start.ax = .align ∧ (getAx s x).start.alignDone = true ∧ startTarget s x = 0) ∧
    (∃ (s : State) (x : Axis), Calm s ∧ openLoop (getAx s x) = true ∧ wHandoff s x ≤ fval (getAx s x).start.wRamp ∧ (getAx s
      x).crest.conv = true ∧ (getAx s x).start.gateOffNext = false) ∧
    (∃ (s : State) (x : Axis), Calm s ∧ (getAx s x).start.merge ≠ none) ∧
    (∃ (s : State) (x : Axis), Calm s ∧ openLoop (getAx s x) = true ∧ wRated s x * mkRat 2 100 ≤ absR (fval (getAx s
      x).start.wRamp) ∧ mkRat 3 10 * absR (fval (getAx s x).start.wRamp) < absR (crestWm s x - dirS (getAx s x) * fval (getAx s
      x).start.wRamp) ∧ (getAx s x).start.gateOffNext = false ∧ (getAx s x).start.crossing = false ∧ (getAx s x).pwm.switching =
      true) :=
  ⟨⟨starts .align, .a, calm_of (by decide +kernel), by decide +kernel⟩,
   ⟨starts .align, .a, calm_of (by decide +kernel), by decide +kernel⟩,
   ⟨starts .align, .a, calm_of (by decide +kernel), by decide +kernel⟩,
   ⟨onA (starts .align) (fun a => { a with start := { a.start with alignDone := true } }), .a, calm_of (by decide +kernel),
     by decide +kernel⟩,
   ⟨onA (starts .ramp) (fun a => { a with start := { a.start with wRamp := 0x41F00000 }, crest := { a.crest with conv := true } }),
     .a, calm_of (by decide +kernel), by decide +kernel⟩,
   ⟨onA up (fun a => { a with start := { a.start with merge := some 0 } }), .a, calm_of (by decide +kernel), by decide +kernel⟩,
   ⟨onA (starts .ramp) (fun a =>
     { a with start := { a.start with wRamp := 0x40C00000 }, pwm := { a.pwm with switching := true } }), .a, calm_of
     (by decide +kernel), by decide +kernel⟩⟩

/-- The hypotheses of StopsAndHoldingBrake can be met, clause by clause. -/
theorem test_StopsAndHoldingBrake_meets :
    (∃ (s : State) (x : Axis), Calm s ∧ (getAx s x).start.ax = .stopping ∧ ((getAx s x).start.stop = some .ramp ∨ (getAx s
      x).start.stop = some .quick) ∧ (getAx s x).stage.engageWait = false ∧ standsStill s x = true) ∧
    (∃ (s : State) (x : Axis), Calm s ∧ (getAx s x).start.ax = .stopping ∧ ((getAx s x).start.stop = some .ramp ∨ (getAx s
      x).start.stop = some .quick) ∧ (getAx s x).stage.engageWait = false ∧ (getAx s x).pwm.switching = true) ∧
    (∃ (s : State) (x : Axis), Calm s ∧ (getAx s x).start.ax = .run ∧ (speedFb s x).2 = true ∧ absR (speedFb s x).1 < pf s x
      Par.stallW ∧ pf s x Par.stallIFrac * iLim s x / 100 ≤ absR (fval (getAx s x).ctl.iqRef) ∧ ((getAx s x).sp.mode = 1 → pf s x
      Par.stallW < absR (fval (getAx s x).ctl.wRef)) ∧ ((getAx s x).sp.mode = 2 → (getAx s x).ctl.errGrows = true)) ∧
    (∃ (s : State) (x : Axis), Calm s ∧ (getAx s x).stage.brake = .pull) ∧
    (∃ (s : State) (x : Axis) (ma us : Nat), Calm s ∧ (getAx s x).stage.brake ≠ .off ∧ (1800 < ma ∧ 50 ≤ us ∨ 3000 < ma)) ∧
    (∃ (s : State) (x : Axis) (ma : Nat), Calm s ∧ (getAx s x).stage.brake = .hold ∧ (ma : Rat) < fval (parX s x Par.hbOpenThr)) ∧
    (∃ (s : State) (x : Axis), Calm s ∧ (getAx s x).stage.releaseWait = true ∧ (getAx s x).start.ax = .release) ∧
    (∃ (s : State) (x : Axis), Calm s ∧ (getAx s x).stage.tripHold = true) ∧
    (∃ (s : State) (x : Axis), Calm s ∧ (getAx s x).stage.engageWait = true ∧ (getAx s x).start.ax = .stopping) :=
  ⟨⟨onA (starts .stopping) (fun a => { a with start := { a.start with stop := some .quick } }), .a, calm_of (by decide +kernel),
     by decide +kernel⟩,
   ⟨onA (starts .stopping) (fun a =>
     { a with start := { a.start with stop := some .ramp }, pwm := { a.pwm with switching := true } }), .a, calm_of
     (by decide +kernel), by decide +kernel⟩,
   ⟨onA (put runs Par.crestMode 0) (fun a =>
     { a with fb := { a.fb with speedValid := true }, ctl := { a.ctl with iqRef := 0x43480000, wRef := 0x42C80000 } }), .a, calm_of
     (by decide +kernel), by decide +kernel⟩,
   ⟨onA up (fun a => { a with stage := { a.stage with brake := .pull } }), .a, calm_of (by decide +kernel), by decide +kernel⟩,
   ⟨onA up (fun a => { a with stage := { a.stage with brake := .hold } }), .a, 1801, 50, calm_of (by decide +kernel),
     by decide +kernel⟩,
   ⟨onA up (fun a => { a with stage := { a.stage with brake := .hold } }), .a, 49, calm_of (by decide +kernel), by decide +kernel⟩,
   ⟨onA (starts .release) (fun a => { a with stage := { a.stage with releaseWait := true } }), .a, calm_of (by decide +kernel),
     by decide +kernel⟩,
   ⟨onA up (fun a => { a with stage := { a.stage with tripHold := true } }), .a, calm_of (by decide +kernel), by decide +kernel⟩,
   ⟨onA (starts .stopping) (fun a => { a with stage := { a.stage with engageWait := true } }), .a, calm_of (by decide +kernel),
     by decide +kernel⟩⟩

/-- The hypotheses of LocalCurve can be met, clause by clause. -/
theorem test_LocalCurve_meets :
    (∃ (s : State) (x : Axis) (p h : Nat), Calm s ∧ isReady s = true ∧ curveUsed s x = true ∧ curvePar s x Par.curveIn = 1 ∧ 40000
      ≤ p ∧ p ≤ 20000000 ∧ h ≤ p ∧ filtPass (parD s Par.pwmCmdFilt) h = true ∧ filtPass (parD s Par.pwmCmdFilt) (p - h) = true) ∧
    (∃ (s : State) (x : Axis) (c : Instr), Calm s ∧ (c = .pwmCmdTimeout ∨ ∃ p h, c = .pwmCmdPeriod p h ∧ filtPass (parD s
      Par.pwmCmdFilt) h = true ∧ filtPass (parD s Par.pwmCmdFilt) (p - h) = true ∧ (p < 40000 ∨ 20000000 < p)) ∧ isReady s = true ∧
      curveUsed s x = true ∧ curvePar s x Par.curveIn = 1 ∧ (getAx s x).sp.curveFault = false) ∧
    (∃ (s : State) (x : Axis), Calm s ∧ (getAx s x).sp.curveSeen = true ∧ (getAx s x).sp.curveValid = false) ∧
    (∃ (s : State) (x : Axis) (v : F32), Calm s ∧ isReady s = true ∧ curveUsed s x = true ∧ (getAx s x).sp.curveValid = true ∧
      (getAx s x).sp.curveFault = false ∧ fle (curvePar s x Par.curveOn) v = true ∧ (getAx s x).sp.curveOn = false ∧ (getAx s
      x).sp.curveArmed = true ∧ curvePar s x Par.curveAuto ≠ 1) ∧
    (∃ (s : State) (x : Axis) (v : F32), Calm s ∧ isReady s = true ∧ curveUsed s x = true ∧ (getAx s x).sp.curveValid = true ∧
      (getAx s x).sp.curveFault = false ∧ fle (curvePar s x Par.curveOn) v = false ∧ flt v (curvePar s x Par.curveOff) = true ∧
      (getAx s x).sp.curveOn = true) :=
  ⟨⟨put (put up Par.spSrc 3) Par.curveIn 1, .a, 40000, 20000, calm_of (by decide +kernel), by decide +kernel⟩,
   ⟨put (put up Par.spSrc 3) Par.curveIn 1, .a, .pwmCmdTimeout, calm_of (by decide +kernel), Or.inl rfl, by decide +kernel⟩,
   ⟨onA up (fun a => { a with sp := { a.sp with curveSeen := true } }), .a, calm_of (by decide +kernel), by decide +kernel⟩,
   ⟨onA (put up Par.spSrc 3) (fun a => { a with sp := { a.sp with curveValid := true, curveArmed := true } }), .a, 0x3F800000,
     calm_of (by decide +kernel), by decide +kernel⟩,
   ⟨onA (put up Par.spSrc 3) (fun a => { a with sp := { a.sp with curveValid := true, curveOn := true } }), .a, 0x3F4CCCCC, calm_of
     (by decide +kernel), by decide +kernel⟩⟩

/-- The hypotheses of EncoderAndHallInputs can be met, clause by clause. -/
theorem test_EncoderAndHallInputs_meets :
    (∃ (s : State) (x : Axis) (a b : Bool) (ns : Nat), Calm s ∧ fbRuns s x = true ∧ parX s x Par.fbSrc = 1 ∧ filtPass (parX s x
      Par.fbQepFilt) ns = true ∧ ((quadPhase (a, b) + 4 - quadPhase (getAx s x).fb.ab) % 4 = 1 ∨ (quadPhase (a, b) + 4 - quadPhase
      (getAx s x).fb.ab) % 4 = 3)) ∧
    (∃ (s : State) (x : Axis) (a b : Bool) (ns : Nat), Calm s ∧ fbRuns s x = true ∧ parX s x Par.fbSrc = 1 ∧ filtPass (parX s x
      Par.fbQepFilt) ns = true ∧ (quadPhase (a, b) + 4 - quadPhase (getAx s x).fb.ab) % 4 = 2 ∧ s.flt.list.any (sameFault 0x4910
      (scopeOf x) 0xFF) = false) ∧
    (∃ (s : State) (x : Axis) (ns : Nat), Calm s ∧ fbRuns s x = true ∧ parX s x Par.fbZMode = 1 ∧ filtPass (parX s x Par.fbQepFilt)
      ns = true ∧ (parX s x Par.fbSrc = 1 ∨ parX s x Par.fbSrc = 3) ∧ (getAx s x).fb.referenced = false) ∧
    (∃ (s : State) (x : Axis) (ns : Nat), Calm s ∧ fbRuns s x = true ∧ parX s x Par.fbZMode = 1 ∧ filtPass (parX s x Par.fbQepFilt)
      ns = true ∧ (parX s x Par.fbSrc = 1 ∨ parX s x Par.fbSrc = 3) ∧ (getAx s x).fb.referenced = true ∧ min (countOf (countsPerRev
      s x) (getAx s x).fb.pos) (countsPerRev s x - countOf (countsPerRev s x) (getAx s x).fb.pos) ≤ ((parX s x Par.fbZTol).toNat :
      Int)) ∧
    (∃ (s : State) (x : Axis) (ns : Nat), Calm s ∧ fbRuns s x = true ∧ parX s x Par.fbZMode = 1 ∧ filtPass (parX s x Par.fbQepFilt)
      ns = true ∧ (parX s x Par.fbSrc = 1 ∨ parX s x Par.fbSrc = 3) ∧ (getAx s x).fb.referenced = true ∧ ((parX s x
      Par.fbZTol).toNat : Int) < min (countOf (countsPerRev s x) (getAx s x).fb.pos) (countsPerRev s x - countOf (countsPerRev s x)
      (getAx s x).fb.pos)) ∧
    (∃ (s : State) (x : Axis) (h : BitVec 3) (ns k : Nat), Calm s ∧ fbRuns s x = true ∧ parX s x Par.fbSrc = 2 ∧ filtPass (parX s x
      Par.fbHallFilt) ns = true ∧ hallIdx h = some k ∧ ((k + 6 - (hallIdx (getAx s x).fb.hall).getD 0) % 6 = 1 ∨ (k + 6 - (hallIdx
      (getAx s x).fb.hall).getD 0) % 6 = 5)) ∧
    (∃ (s : State) (x : Axis) (h : BitVec 3) (ns : Nat), Calm s ∧ (h = 0 ∨ h = 7 ∨ ∃ k, hallIdx h = some k ∧ (k + 6 - (hallIdx
      (getAx s x).fb.hall).getD 0) % 6 ≠ 0 ∧ (k + 6 - (hallIdx (getAx s x).fb.hall).getD 0) % 6 ≠ 1 ∧ (k + 6 - (hallIdx (getAx s
      x).fb.hall).getD 0) % 6 ≠ 5) ∧ fbRuns s x = true ∧ (parX s x Par.fbSrc = 2 ∨ parX s x Par.fbHallUse = 1) ∧ filtPass (parX s x
      Par.fbHallFilt) ns = true) ∧
    (∃ (s : State) (x : Axis) (h : BitVec 3) (ns k : Nat), Calm s ∧ fbRuns s x = true ∧ parX s x Par.fbSrc ≠ 2 ∧ parX s x
      Par.fbHallUse = 1 ∧ filtPass (parX s x Par.fbHallFilt) ns = true ∧ (getAx s x).fb.hallOfs = none ∧ hallIdx h = some k ∧ ((k +
      6 - (hallIdx (getAx s x).fb.hall).getD 0) % 6 = 1 ∨ (k + 6 - (hallIdx (getAx s x).fb.hall).getD 0) % 6 = 5)) ∧
    (∃ (s : State) (x : Axis) (h : BitVec 3) (ns k k0 : Nat) (ofs : F32), Calm s ∧ k0 = (hallIdx (getAx s x).fb.hall).getD 0 ∧
      fbRuns s x = true ∧ parX s x Par.fbSrc ≠ 2 ∧ parX s x Par.fbHallUse = 1 ∧ filtPass (parX s x Par.fbHallFilt) ns = true ∧
      (getAx s x).fb.hallOfs = some ofs ∧ fbCoarse s x = false ∧ hallIdx h = some k ∧ ((k + 6 - k0) % 6 = 1 ∨ (k + 6 - k0) % 6 = 5)
      ∧ pf s x Par.fbHallTol < absR (degDiff (fval (elecOf s x (fbPos s x)) * 180 / piR) (hallCentre s x k0 + (degDiff (hallCentre
      s x k) (hallCentre s x k0)) / 2))) ∧
    (∃ (s : State) (x : Axis), Calm s ∧ fbRuns s x = true ∧ (getAx s x).fb.hallIllegal = true) :=
  ⟨⟨put up Par.fbSrc 1, .a, true, false, 100000, calm_of (by decide +kernel), by decide +kernel⟩,
   ⟨put up Par.fbSrc 1, .a, true, true, 100000, calm_of (by decide +kernel), by decide +kernel⟩,
   ⟨put (put up Par.fbSrc 1) Par.fbZMode 1, .a, 100000, calm_of (by decide +kernel), by decide +kernel⟩,
   ⟨onA (put (put up Par.fbSrc 1) Par.fbZMode 1) (fun a => { a with fb := { a.fb with referenced := true } }), .a, 100000, calm_of
     (by decide +kernel), by decide +kernel⟩,
   ⟨onA (put (put up Par.fbSrc 1) Par.fbZMode 1) (fun a => { a with fb := { a.fb with referenced := true, pos := 0x40000000 } }),
     .a, 100000, calm_of (by decide +kernel), by decide +kernel⟩,
   ⟨put up Par.fbSrc 2, .a, 3, 100000, 1, calm_of (by decide +kernel), by decide +kernel⟩,
   ⟨put up Par.fbSrc 2, .a, 7, 100000, calm_of (by decide +kernel), Or.inr (Or.inl rfl), by decide +kernel⟩,
   ⟨put up Par.fbHallUse 1, .a, 3, 100000, 1, calm_of (by decide +kernel), by decide +kernel⟩,
   ⟨onA (put up Par.fbHallUse 1) (fun a => { a with fb := { a.fb with hallOfs := some 0, pos := 0x20000000 } }), .a, 3, 100000, 1,
     0, 0, calm_of (by decide +kernel), rfl, by decide +kernel⟩,
   ⟨onA up (fun a => { a with fb := { a.fb with hallIllegal := true } }), .a, calm_of (by decide +kernel), by decide +kernel⟩⟩

/-- The hypotheses of SampledSources can be met, clause by clause. -/
theorem test_SampledSources_meets :
    (∃ (s : State) (x : Axis) (sin cos : BitVec 16) (due tm cs cc : Nat) (amp : F32), Calm s ∧ tm = (due + nsTicks (parX s x
      Par.fbScDelay)) / 4 ∧ cs = scCv s (match x with | .a => 2 | .b => 4) ∧ cc = scCv s (match x with | .a => 3 | .b => 5) ∧ (∀ k,
      (getCv s k).suspect = false) ∧ (∀ y, (getAx s y).conv.refOk = true) ∧ amp = fsqrtRat (((sin.toInt : Rat) * vRef s cs / 65536)
      * ((sin.toInt : Rat) * vRef s cs / 65536) + ((cos.toInt : Rat) * vRef s cc / 65536) * ((cos.toInt : Rat) * vRef s cc /
      65536)) ∧ fbRuns s x = true ∧ parX s x Par.fbSrc = 3 ∧ (getAx s x).fb.scDue = some due) ∧
    (∃ (s : State) (x : Axis) (due : Nat), Calm s ∧ fbRuns s x = true ∧ serialSrc s x = true ∧ (getAx s x).fb.serDue = some due) ∧
    (∃ (s : State) (x : Axis) (started : Bool) (bits : List Bool) (r : SerFrame), Calm s ∧ r = (serFields s x).foldl (serField s x
      started) { rest := bits } ∧ fbRuns s x = true ∧ serialSrc s x = true ∧ (getAx s x).fb.serBusy = true ∧ (getAx s x).fb.serLate
      = false ∧ (getAx s x).fb.serDatHigh = true ∧ r.ok = true ∧ r.single ≠ none ∧ (pf s x Par.fbJumpMax = 0 ∨ (getAx s x).fb.valid
      = false)) ∧
    (∃ (s : State) (x : Axis) (started : Bool) (bits : List Bool) (r : SerFrame), Calm s ∧ r = (serFields s x).foldl (serField s x
      started) { rest := bits } ∧ fbRuns s x = true ∧ serialSrc s x = true ∧ (getAx s x).fb.serBusy = true ∧ ((getAx s
      x).fb.serLate = true ∨ (getAx s x).fb.serDatHigh = false ∨ r.ok = false ∨ r.single = none)) :=
  ⟨⟨sampling, .a, 0x2000, 0x2000, 0, _, _, _, _, calm_of (by decide +kernel), rfl, rfl, rfl, unsuspected, (fun y => by cases y <;>
     rfl), rfl, by decide +kernel⟩,
   ⟨onA (put up Par.fbSrc 4) (fun a => { a with fb := { a.fb with serDue := some 0 } }), .a, 0, calm_of (by decide +kernel),
     by decide +kernel⟩,
   ⟨put (put (onA up (fun a => { a with fb := { a.fb with serBusy := true } })) Par.fbSrc 4) Par.fbSerField0 0x30040000, .a, true,
     [true, false, true, true], _, calm_of (by decide +kernel), rfl, by decide +kernel⟩,
   ⟨put (put (onA up (fun a => { a with fb := { a.fb with serBusy := true } })) Par.fbSrc 4) Par.fbSerField0 0x30040000, .a, true,
     [true, false, true], _, calm_of (by decide +kernel), rfl, by decide +kernel⟩⟩

/-- The hypotheses of CompareAndCapture can be met, clause by clause. -/
theorem test_CompareAndCapture_meets :
    (∃ (s : State) (x : Axis) (u : CmpUnit) (t now : Nat) (c : CmpSt) (down : Bool) (live : List Nat), Calm s ∧ c = getCmp (getAx s
      x).fb u ∧ down = (parX s x (cmpPar u Par.cmpCfg0)).getLsbD 1 ∧ now = crossAt s x c (max s.clk.now t) ∧ live = c.ends.filter
      (fun e => decide (now < e)) ∧ fbRuns s x = true ∧ c.armed = true ∧ crossed s x c down = true ∧ live.length < 16) ∧
    (∃ (s : State) (x : Axis) (u : CmpUnit) (t now : Nat) (c : CmpSt) (live : List Nat), Calm s ∧ c = getCmp (getAx s x).fb u ∧ now
      = crossAt s x c (max s.clk.now t) ∧ live = c.ends.filter (fun e => decide (now < e)) ∧ fbRuns s x = true ∧ c.armed = true ∧
      crossed s x c ((parX s x (cmpPar u Par.cmpCfg0)).getLsbD 1) = true ∧ 16 ≤ live.length) ∧
    (∃ (s : State) (x : Axis) (u : CmpUnit) (rising : Bool) (t ns : Nat) (c : CapSt) (tf : Nat × Bool), Calm s ∧ c = capOf (getAx s
      x).fb u ∧ (∀ l, c.last = some l → l + 100 ≤ max s.clk.now t) ∧ tf = fifoTime s ((t : Int) - filtNs s x Par.capFilt) ∧ fbRuns
      s x = true ∧ filtPass (parX s x Par.capFilt) ns = true ∧ (parX s x
      (match u with | .u0 => Par.capCfg0 | .u1 => Par.capCfg1)).getLsbD (if rising then 0 else 1) = true) :=
  ⟨⟨onA up (fun a => { a with fb := { a.fb with cmp0 := { armed := true, origin := -1, ends := List.replicate 15 (2 ^ 60) } } }),
     .a, .u0, 0, _, _, false, _, calm_of (by decide +kernel), rfl, rfl, rfl, rfl, by decide +kernel⟩,
   ⟨onA up (fun a => { a with fb := { a.fb with cmp0 := { armed := true, origin := -1, ends := List.replicate 16 (2 ^ 60) } } }),
     .a, .u0, 0, _, _, _, calm_of (by decide +kernel), rfl, rfl, rfl, by decide +kernel⟩,
   ⟨put up Par.capCfg0 1, .a, .u0, true, 5, 100000, _, _, calm_of (by decide +kernel), rfl, (by intro l h; cases h), rfl,
     by decide +kernel⟩⟩

/-- The hypotheses of ChopperAndBrakingLoad can be met, clause by clause. -/
theorem test_ChopperAndBrakingLoad_meets :
    (∃ (s : State), Calm s ∧ s.bus.chop = .on) ∧
    (∃ (s : State), Calm s ∧ s.bus.chop = .retryOff ∧ chopReady s = true) ∧
    (∃ (s : State), Calm s ∧ Awake s ∧ Room s 3 ∧ parD s Par.chopEn = 1 ∧ s.bus.chop = .off ∧ s.scarp.latch = 0 ∧ s.boot.service =
      .none) ∧
    (∃ (s : State), Calm s ∧ thoevoUp s = true) :=
  ⟨⟨{ up with bus := { up.bus with chop := .on } }, calm_of (by decide +kernel), by decide +kernel⟩,
   ⟨{ up with bus := { up.bus with chop := .retryOff } }, calm_of (by decide +kernel), by decide +kernel⟩,
   ⟨up, calm_of (by decide +kernel), awake_of (by decide +kernel), (by unfold Room; decide +kernel), by decide +kernel⟩,
   ⟨up, calm_of (by decide +kernel), by decide +kernel⟩⟩

/-- The hypotheses of EscalationAndFaultSignals can be met, clause by clause. -/
theorem test_EscalationAndFaultSignals_meets :
    (∃ (s : State) (x : Axis), Calm s ∧ s.mbx.long = none ∧ s.bus.e1 = true ∧ fle (parD s Par.ov2) (vmHi s) = true ∧ (getAx s
      x).pwm.switching = true ∧ (getAx s x).start.ax = .run ∧ gatesOn (getAx s (otherAxis x)) = false) ∧
    (∃ (s : State), Calm s ∧ busLow s = true) ∧
    (∃ (s : State) (x : Axis), Calm s ∧ (getAx s x).start.ax = .activeShort ∧ (getAx s x).pwm.shorted = true ∧ 2 * fval (getAx s
      x).stage.iCont * fval (getAx s x).stage.iCont < fval (parX s x Par.ascIDecl) * fval (parX s x Par.ascIDecl)) ∧
    (∃ (s : State), Calm s ∧ thoevoUp s = true ∧ s.flt.logPending ≠ []) ∧
    (∃ (s : State), Calm s ∧ s.flt.pulse = true) ∧
    (∃ (s : State), Calm s ∧ s.flt.bootPulse = true ∧ s.pwr.boot = none ∧ faultNLevel s = false ∧ parD s Par.faultNPulse ≠ 0) :=
  ⟨⟨{ runs with bus := { runs.bus with e1 := true, vmA := 0x42B00000 } }, .a, calm_of (by decide +kernel), by decide +kernel⟩,
   ⟨up, calm_of (by decide +kernel), by decide +kernel⟩,
   ⟨put (onA (starts .activeShort) (fun a => { a with pwm := { a.pwm with shorted := true } })) Par.ascIDecl 0x42340000, .a,
     calm_of (by decide +kernel), by decide +kernel⟩,
   ⟨{ up with flt := { logPending := [⟨1, 0, 0x1004, 0, 0, 0, 0, 0, 0, 0, 0, 0, 0⟩] } }, calm_of (by decide +kernel),
     by decide +kernel⟩,
   ⟨{ up with flt := { pulse := true } }, calm_of (by decide +kernel), by decide +kernel⟩,
   ⟨{ up with flt := { bootPulse := true } }, calm_of (by decide +kernel), by decide +kernel⟩⟩

/-- The hypotheses of DeratingAndCase can be met, clause by clause. -/
theorem test_DeratingAndCase_meets :
    (∃ (s : State) (n : Fin 21), Calm s ∧ thoevoUp s = true ∧ (getSen s n.val).grace = true) ∧
    (∃ (s : State) (p : Rat), Calm s ∧ p = (bothAxes.flatMap (fun x => allLegs.map (fun l => (x, l)))).foldl (fun w q => w +
      legLoss s q.1 q.2) 0 + gatePower s + mkRat 15 100 ∧ thoevoUp s = true) :=
  ⟨⟨{ up with th := { sensors := List.replicate 20 {} ++ [{ grace := true }] } }, 20, calm_of (by decide +kernel),
     by decide +kernel⟩,
   ⟨up, _, calm_of (by decide +kernel), rfl, by decide +kernel⟩⟩

/-- The hypotheses of ReplacementAndStreams can be met, clause by clause. -/
theorem test_ReplacementAndStreams_meets :
    (∃ (s : State) (tr : Trigger) (out : CairnOut) (p : Placement) (t0 : Nat), Calm s ∧ (∀ e, tr ≠ .engineTest e) ∧ s.cairn.active
      = some p ∧ thoevoUp s = true ∧ s.mbx.long = none ∧ trigNext s.cairn.pendingTr = some (tr, t0) ∧ s.cairn.arming = none ∧
      swapBusy s = false ∧ s.conv.calNext = 0 ∧ outOk s (fun x => placedPar p (parAddr x Par.usrEn)) out = true ∧ placeFits
      (replacement s p tr out) = true ∧ onlyNamed s p (replacement s p tr out) tr out = true) ∧
    (∃ (s : State) (e : Engine) (x : Axis), Calm s ∧ (getEng s e).underTest = true ∧ swapBusy s = false ∧ s.conv.calNext = 0 ∧
      (getEng s (otherEng e)).underTest = false ∧ (hostedOn s e).head? = some x) ∧
    (∃ (s : State) (tr : Trigger) (t0 : Nat) (rest : List (Trigger × Nat)), Calm s ∧ s.cairn.pendingTr = (tr, t0) :: rest ∧ t0 +
      1000000 ≤ s.clk.now ∧ s.cairn.arming = none) ∧
    (∃ (s : State) (n : Fin 16) (q : StreamPlace) (st : StreamSt), Calm s ∧ thoevoUp s = true ∧ placedStream s n.val = some q ∧
      s.cairn.streams[n.val]? = some st ∧ s.th.halved = false ∧ q.dest ≠ .flash) ∧
    (∃ (s : State) (n : Fin 16) (q : StreamPlace) (st : StreamSt) (fate : RecordFate), Calm s ∧ thoevoUp s = true ∧ placedStream s
      n.val = some q ∧ s.cairn.streams[n.val]? = some st ∧ s.th.halved = false ∧ fate ≠ .written) ∧
    (∃ (s : State) (n : Fin 16) (q : StreamPlace) (st : StreamSt), Calm s ∧ thoevoUp s = true ∧ placedStream s n.val = some q ∧
      s.cairn.streams[n.val]? = some st ∧ s.th.halved = true ∧ st.ticks % 2 = 1) :=
  ⟨⟨{ up with cairn := { up.cairn with pendingTr := [(.flashLost, 0)] } }, .flashLost, { }, place, 0, calm_of (by decide +kernel),
     fun _ h => Trigger.noConfusion h, rfl, by decide +kernel⟩,
   ⟨{ up with ridge := { rga := { underTest := true } } }, .rga, .a, calm_of (by decide +kernel), by decide +kernel⟩,
   ⟨{ up with cairn := { up.cairn with pendingTr := [(.dieLimit, 399999000000)] } }, .dieLimit, 399999000000, [], calm_of
     (by decide +kernel), by decide +kernel⟩,
   ⟨up, 0, ⟨0, .sram, 0x447A0000, 0x3F800000, [0x0010]⟩, { }, calm_of (by decide +kernel), by decide +kernel⟩,
   ⟨up, 0, ⟨0, .sram, 0x447A0000, 0x3F800000, [0x0010]⟩, { }, .late, calm_of (by decide +kernel), by decide +kernel⟩,
   ⟨{ up with th := { halved := true }, cairn := { up.cairn with streams := [{ ticks := 1 }] } }, 0, ⟨0, .sram, 0x447A0000,
     0x3F800000, [0x0010]⟩, { ticks := 1 }, calm_of (by decide +kernel), by decide +kernel⟩⟩

/-- The hypotheses of ClocksAndCrossings can be met, clause by clause. -/
theorem test_ClocksAndCrossings_meets :
    (∃ (s : State), Calm s ∧ thoevoUp s = true ∧ s.clk.extRef = true) ∧
    (∃ (s : State) (p : Pll), Calm s ∧ Room s 3 ∧ thoevoUp s = true ∧ s.clk.unlocked.getLsbD (pllNo p) = false ∧
      s.scarp.latch.getLsbD 30 = false ∧ s.scarp.latch.getLsbD 31 = false) ∧
    (∃ (s : State) (p : Pll), Calm s ∧ s.clk.unlocked.getLsbD (pllNo p) = true) ∧
    (∃ (s : State), Calm s ∧ s.clk.unlocked ≠ 0 ∧ s.sum.pfCommit = false) ∧
    (∃ (s : State) (i : Island), Calm s ∧ s.sum.on = true ∧ islandOff s i = true ∧ s.clk.woken.getLsbD (islandNo i) = false) ∧
    (∃ (s : State) (x : Axis), Calm s ∧ (getAx s x).pwm.nl = .holdover) :=
  ⟨⟨up, calm_of (by decide +kernel), by decide +kernel⟩,
   ⟨up, .pll0, calm_of (by decide +kernel), (by unfold Room; decide +kernel), by decide +kernel⟩,
   ⟨{ up with clk := { up.clk with unlocked := 1 } }, .pll0, calm_of (by decide +kernel), by decide +kernel⟩,
   ⟨{ up with clk := { up.clk with unlocked := 16 } }, calm_of (by decide +kernel), by decide +kernel⟩,
   ⟨held, .rga, calm_of (by decide +kernel), by decide +kernel⟩,
   ⟨onA up (fun a => { a with pwm := { a.pwm with nl := .holdover } }), .a, calm_of (by decide +kernel), by decide +kernel⟩⟩

/-- The hypotheses of HostFrames can be met, clause by clause. -/
theorem test_HostFrames_meets :
    (∃ (s : State), Calm s ∧ portOn s = true ∧ portBusy s = true) ∧
    (∃ (s : State) (f : HspFrame), Calm s ∧ portOn s = true ∧ portBusy s = false ∧ (f.how = .merged ∨ badCommand s f = true ∨ f.how
      = .cutHead)) ∧
    (∃ (s : State) (f : HspFrame), Calm s ∧ portOn s = true ∧ portBusy s = false ∧ f.how = .complete ∧ badCommand s f = false ∧
      badLen s f = true) ∧
    (∃ (s : State) (f : HspFrame), Calm s ∧ portOn s = true ∧ portBusy s = false ∧ frameFate s f = .accepted ∧ isRead f.cmd = true
      ∧ s.hsp.answer = none ∧ f.len ≠ 0) ∧
    (∃ (s : State) (f : HspFrame) (a : HspAnswer), Calm s ∧ s.hsp.answer = some a ∧ portOn s = true ∧ portBusy s = false ∧
      frameFate s f = .accepted ∧ isRead f.cmd = true ∧ f.fetched = true ∧ a.regs = none) :=
  ⟨⟨busy (.ident .a), calm_of (by decide +kernel), by decide +kernel⟩,
   ⟨up, frame 3 0 1 [], calm_of (by decide +kernel), by decide +kernel⟩,
   ⟨up, frame 0x20 0 257 [], calm_of (by decide +kernel), by decide +kernel⟩,
   ⟨up, frame 0x20 0 256 [], calm_of (by decide +kernel), by decide +kernel⟩,
   ⟨{ up with hsp := { answer := some ⟨[1, 2], none, none⟩ } }, frame 0x20 0 2 [], ⟨[1, 2], none, none⟩, calm_of
     (by decide +kernel), rfl, by decide +kernel⟩⟩

/-- The hypotheses of HostWrites can be met, clause by clause. -/
theorem test_HostWrites_meets :
    (∃ (s : State) (f : HspFrame) (b : _), Calm s ∧ portOn s = true ∧ portBusy s = false ∧ frameFate s f = .accepted ∧ isRead f.cmd
      = false ∧ s.pwr.base ≠ .hold ∧ target f.cmd = 0 ∧ frameAddr s f = 0x12 ∧ f.data = [b]) ∧
    (∃ (s : State) (f : HspFrame) (b c : _), Calm s ∧ portOn s = true ∧ portBusy s = false ∧ frameFate s f = .accepted ∧ isRead
      f.cmd = false ∧ s.pwr.base ≠ .hold ∧ target f.cmd = 0 ∧ frameAddr s f = 0x14 ∧ f.data = [b, c]) ∧
    (∃ (s : State) (f : HspFrame) (m ms : _), Calm s ∧ s.hsp.queue = ms ∧ portOn s = true ∧ portBusy s = false ∧ frameFate s f =
      .accepted ∧ isRead f.cmd = false ∧ s.pwr.base ≠ .hold ∧ target f.cmd = 0 ∧ frameAddr s f = 0x16 ∧ f.data = [2] ∧ s.hsp.outbox
      = some m) ∧
    (∃ (s : State) (f : HspFrame), Calm s ∧ portOn s = true ∧ portBusy s = false ∧ frameFate s f = .accepted ∧ isRead f.cmd = false
      ∧ s.pwr.base ≠ .hold ∧ target f.cmd = 0 ∧ frameAddr s f = 0x16 ∧ f.data = [1] ∧ inFree s = true ∧ leVal (mapReadN 0
      s.hsp.inbox 4 2) ≤ 4088) ∧
    (∃ (s : State) (f : HspFrame), Calm s ∧ portOn s = true ∧ portBusy s = false ∧ frameFate s f = .accepted ∧ isRead f.cmd = false
      ∧ s.pwr.base ≠ .hold ∧ target f.cmd = 1 ∧ inFree s = true) ∧
    (∃ (s : State) (f : HspFrame), Calm s ∧ portOn s = true ∧ portBusy s = false ∧ frameFate s f = .accepted ∧ isRead f.cmd = false
      ∧ s.pwr.base ≠ .hold ∧ target f.cmd = 1 ∧ inFree s = false) ∧
    (∃ (s : State) (f : HspFrame), Calm s ∧ Awake s ∧ portOn s = true ∧ portBusy s = false ∧ frameFate s f = .accepted ∧ isRead
      f.cmd = false ∧ s.pwr.base = .hold ∧ s.pwr.noPlacement = false ∧ target f.cmd = 1) :=
  ⟨⟨up, frame 0 0x12 1 [0xFF], 0xFF, calm_of (by decide +kernel), by decide +kernel⟩,
   ⟨up, frame 0 0x14 2 [0xFF, 0x01], 0xFF, 0x01, calm_of (by decide +kernel), by decide +kernel⟩,
   ⟨{ up with hsp := { outbox := some ⟨0x8104, 0, 0, []⟩ } }, frame 0 0x16 1 [2], ⟨0x8104, 0, 0, []⟩, [], calm_of
     (by decide +kernel), rfl, by decide +kernel⟩,
   ⟨{ up with hsp := { inbox := [(4, 0xF8), (5, 0x0F)] } }, frame 0 0x16 1 [1], calm_of (by decide +kernel), by decide +kernel⟩,
   ⟨up, frame 0x04 4095 1 [7], calm_of (by decide +kernel), by decide +kernel⟩,
   ⟨{ up with hsp := { submitted := true } }, frame 0x04 0 1 [7], calm_of (by decide +kernel), by decide +kernel⟩,
   ⟨held, frame 0x04 0 1 [7], calm_of (by decide +kernel), awake_of (by decide +kernel), by decide +kernel⟩⟩

/-- The hypotheses of MessagesArrive can be met, clause by clause. -/
theorem test_MessagesArrive_meets :
    (∃ (s : State) (m : List Byte), Calm s ∧ Awake s ∧ m = mapReadN 0 s.hsp.inbox 0 (8 + leVal (mapReadN 0 s.hsp.inbox 4 2)) ∧
      s.boot.service = .none ∧ s.mbx.long = none ∧ s.hsp.submitted = true ∧ crc16 (m.take 6 ++ (m.drop 8).take (msgLen m)) ≠ f16 m
      6) ∧
    (∃ (s : State) (m : List Byte), Calm s ∧ Awake s ∧ m = mapReadN 0 s.hsp.inbox 0 (8 + leVal (mapReadN 0 s.hsp.inbox 4 2)) ∧
      s.boot.service = .none ∧ s.mbx.long = none ∧ s.hsp.submitted = true ∧ crc16 (m.take 6 ++ (m.drop 8).take (msgLen m)) = f16 m
      6 ∧ f16 m 0 = 0x0104 ∧ msgLen m = 0 ∧ f8 m 3 = 0) ∧
    (∃ (s : State) (f : TvFrame) (w : Nat) (m : List Byte), Calm s ∧ Awake s ∧ m = (f.bytes.drop 16).take (field f.bytes 6 2) ∧
      s.boot.service = .none ∧ s.mbx.long = none ∧ carries s f.port = true ∧ tvCarried s f.src = true ∧ requestValid f.bytes = true
      ∧ 4 ≤ w) ∧
    (∃ (s : State) (f : TvFrame) (w : Nat) (m : List Byte), Calm s ∧ Awake s ∧ m = (f.bytes.drop 16).take (field f.bytes 6 2) ∧
      s.boot.service = .none ∧ s.mbx.long = none ∧ carries s f.port = true ∧ tvCarried s f.src = true ∧ requestValid f.bytes = true
      ∧ w < 4 ∧ crc16 (m.take 6 ++ (m.drop 8).take (msgLen m)) ≠ f16 m 6) ∧
    (∃ (s : State) (f : TvFrame) (w : Nat) (m : List Byte), Calm s ∧ Awake s ∧ m = (f.bytes.drop 16).take (field f.bytes 6 2) ∧
      s.boot.service = .none ∧ s.mbx.long = none ∧ carries s f.port = true ∧ tvCarried s f.src = true ∧ requestValid f.bytes = true
      ∧ w < 4 ∧ crc16 (m.take 6 ++ (m.drop 8).take (msgLen m)) = f16 m 6 ∧ f16 m 0 = 0x0104 ∧ msgLen m = 0 ∧ f8 m 3 = 0) :=
  ⟨⟨inbox [4, 1, 0, 0, 0, 0, 0, 0], _, calm_of (by decide +kernel), awake_of (by decide +kernel), rfl, by decide +kernel⟩,
   ⟨inbox (msgBytes ⟨0x0104, 0, 0, []⟩), _, calm_of (by decide +kernel), awake_of (by decide +kernel), rfl, by decide +kernel⟩,
   ⟨put up Par.tvEthertype 0x88B5, tvAsks [4, 1, 0, 0, 0, 0, 0, 0], 4, _, calm_of (by decide +kernel), awake_of
     (by decide +kernel), rfl, by decide +kernel⟩,
   ⟨put up Par.tvEthertype 0x88B5, tvAsks [4, 1, 0, 0, 0, 0, 0, 0], 3, _, calm_of (by decide +kernel), awake_of
     (by decide +kernel), rfl, by decide +kernel⟩,
   ⟨put up Par.tvEthertype 0x88B5, tvAsks (msgBytes ⟨0x0104, 0, 0, []⟩), 3, _, calm_of (by decide +kernel), awake_of
     (by decide +kernel), rfl, by decide +kernel⟩⟩

/-- The hypotheses of SwitchAndPorts can be met, clause by clause. -/
theorem test_SwitchAndPorts_meets :
    (∃ (s : State) (f : EthFrame), Calm s ∧ (∀ p, f.from? = some p → carries s p = true) ∧ s.net.on = true ∧ f.fcsOk = true ∧
      f.fullPorts = []) ∧
    (∃ (s : State) (f : EthFrame), f.from? ≠ none ∧ f.dst = s.boot.mac ∧ linkLocal f.dst = false) ∧
    (∃ (s : State) (m : BitVec 48), Calm s ∧ s.net.on = true ∧ learned s m ≠ none) ∧
    (∃ (s : State), Calm s ∧ s.net.on = true ∧ s.net.rstReleased = false) ∧
    (∃ (s : State) (h : PhyStatus), Calm s ∧ s.net.on = true ∧ s.net.rstReleased = true ∧ s.net.slave ≠ some .rmii1 ∧ portEnabled s
      .rmii1 = true ∧ portEnabled s .rmii2 = false ∧ s.net.rmii1.up ≠ (h.link && h.rate100 && h.full)) ∧
    (∃ (s : State), Calm s ∧ follower s = true ∧ s.net.csmaFallback = false) ∧
    (∃ (s : State) (icmp : Bool) (n : Nat), Calm s ∧ s.net.on = true ∧ thoevoUp s = true ∧ parD s Par.ipAddr ≠ 0 ∧ (icmp = true → n
      ≤ 1472)) ∧
    (∃ (s : State), Calm s ∧ s.boot.lineTest = true) :=
  ⟨⟨up, { from? := some .rmii1, dst := 2, src := 4, pcp := none, bytes := 64, fcsOk := true, gptp := false }, calm_of
     (by decide +kernel), fun p h => by cases h; decide +kernel, by decide +kernel⟩,
   ⟨up, { from? := some .rmii1, dst := 0, src := 4, pcp := none, bytes := 64, fcsOk := true, gptp := false }, by decide +kernel⟩,
   ⟨{ up with net := { up.net with table := [(4, .rmii1)] } }, 4, calm_of (by decide +kernel), by decide +kernel⟩,
   ⟨{ up with net := { up.net with rstReleased := false } }, calm_of (by decide +kernel), by decide +kernel⟩,
   ⟨put up Par.netPortEn 1, ⟨true, true, false⟩, calm_of (by decide +kernel), by decide +kernel⟩,
   ⟨put (put up Par.netPortEn 7) Par.t1sPlcaId 1, calm_of (by decide +kernel), by decide +kernel⟩,
   ⟨put up Par.ipAddr 0x0A000001, true, 1472, calm_of (by decide +kernel), by decide +kernel⟩,
   ⟨{ up with boot := { lineTest := true } }, calm_of (by decide +kernel), by decide +kernel⟩⟩

/-- The hypotheses of TimeSynchronisation can be met, clause by clause. -/
theorem test_TimeSynchronisation_meets :
    (∃ (s : State) (raw o : Int) (p : Port), Calm s ∧ o = raw - roundEven (rxLat s p) ∧ s.net.on = true ∧ s.net.slave = some p ∧
      s.net.gptp ≠ .master ∧ 1000 < o.natAbs) ∧
    (∃ (s : State) (raw o : Int) (p : Port), Calm s ∧ o = raw - roundEven (rxLat s p) ∧ s.net.on = true ∧ s.net.slave = some p ∧
      (s.net.gptp = .unsync ∨ s.net.gptp = .holdover) ∧ (o.natAbs : Rat) ≤ fval (parD s Par.gptpSyncThr) ∧ 2 ≤ s.net.syncRun) ∧
    (∃ (s : State) (p : Port), Calm s ∧ s.net.on = true ∧ p ≠ .t1s) ∧
    (∃ (s : State), Calm s ∧ s.net.on = true ∧ (parD s Par.gptpPrio1).toNat < 255) ∧
    (∃ (s : State) (p : Port) (raw d : Int), Calm s ∧ d = raw - roundEven ((rxLat s p + txLat s p) / 2) ∧ p ≠ .t1s ∧ carries s p =
      true) ∧
    (∃ (s : State), Calm s ∧ thoevoUp s = true ∧ s.net.gptp = .slave) ∧
    (∃ (s : State) (k : GptpKind), Calm s ∧ s.net.on = true ∧ (k = .pdelay ∨ s.net.gptp = .master)) :=
  ⟨⟨{ up with net := { up.net with slave := some .rmii1 } }, -1001, _, .rmii1, calm_of (by decide +kernel), rfl, by decide +kernel⟩,
   ⟨{ up with net := { up.net with slave := some .rmii1, syncRun := 2 } }, 100, _, .rmii1, calm_of (by decide +kernel), rfl,
     by decide +kernel⟩,
   ⟨up, .rmii1, calm_of (by decide +kernel), by decide +kernel⟩,
   ⟨put up Par.gptpPrio1 254, calm_of (by decide +kernel), by decide +kernel⟩,
   ⟨up, .rmii1, 800, _, calm_of (by decide +kernel), rfl, by decide +kernel⟩,
   ⟨{ up with net := { up.net with gptp := .slave, slave := some .rmii1 } }, calm_of (by decide +kernel), by decide +kernel⟩,
   ⟨{ up with net := { up.net with gptp := .master } }, .sync, calm_of (by decide +kernel), by decide +kernel⟩⟩

/-- The hypotheses of TraverseSets can be met, clause by clause. -/
theorem test_TraverseSets_meets :
    (∃ (s : State) (p : Port), Calm s ∧ portEnabled s p = true ∧ (getPort s p).restart = false ∧ (getPort s p).gates ≠ []) ∧
    (∃ (s : State) (f : TvFrame) (t : Nat), Calm s ∧ thoevoUp s = true ∧ carries s f.port = true ∧ tvCarried s f.src = true ∧
      rxValid (at_ s t) f = false ∧ s.net.rxErrStamps.length < 9) ∧
    (∃ (s : State) (f : TvFrame) (t : Nat) (c : CyclicPlace) (x : Axis) (n time due : Nat), Calm s ∧ n = (f8 f.bytes 2).toNat ∧
      time = field f.bytes 8 8 ∧ due = (if lockOn s x then time else gptpNow (at_ s t)) + spOfs s x ∧ thoevoUp s = true ∧
      s.mbx.long = none ∧ carries s f.port = true ∧ tvCarried s f.src = true ∧ rxValid (at_ s t) f = true ∧ rxSet s n = some c ∧
      parD s Par.tvReqSync = 1 ∧ tvSynced s = true ∧ mapGet s.net.rxTime n = none ∧ mapGet s.net.rxCtrl n = none ∧ timeValid (at_ s
      t) c time = true ∧ spOwner s x = 1 ∧ rxSetOf s x = n ∧ spOwner s (otherAxis x) ≠ 1 ∧ (f8 f.bytes (blockAt x)).getLsbD 3 =
      true ∧ applied (at_ s t) x time = false ∧ (f8 f.bytes (blockAt x + 2)).toNat = (storX s x Par.ctrlMode).toNat ∧ (getAx s
      x).sp.accepted = true) ∧
    (∃ (s : State) (n : Fin 8), Calm s ∧ thoevoUp s = true ∧ s.net.on = true ∧ txSet s n.val ≠ none ∧ (parD s Par.tvReqSync ≠ 1 ∨
      tvSynced s = true) ∧ s.net.lateWarned = none) :=
  ⟨⟨{ up with net := { up.net with rmii1 := { up := true, gates := [(1, 100)] } } }, .rmii1, calm_of (by decide +kernel),
     by decide +kernel⟩,
   ⟨put up Par.tvEthertype 0x88B5, ⟨{ }, .rmii1, []⟩, 0, calm_of (by decide +kernel), by decide +kernel⟩,
   ⟨put { (onA runs (fun a => { a with sp := { a.sp with src := 1 } })) with net := { up.net with gptp := .slave } }
     Par.tvEthertype 0x88B5, tvSet, 0, ⟨0, false, 3, 250000, 136, 0⟩, .a, _, _, _, calm_of (by decide +kernel), rfl, rfl, rfl,
     by decide +kernel⟩,
   ⟨{ up with net := { up.net with gptp := .slave } }, 1, calm_of (by decide +kernel), by decide +kernel⟩⟩

/-- The hypotheses of CanObjectsAndPdos can be met, clause by clause. -/
theorem test_CanObjectsAndPdos_meets :
    (∃ (s : State), Calm s ∧ canAlive s = true ∧ thoevoUp s = true ∧ s.can.nmt ≠ .stopped ∧ s.mbx.long ≠ none) ∧
    (∃ (s : State) (r : SdoReq) (o : _), Calm s ∧ canAlive s = true ∧ thoevoUp s = true ∧ s.can.nmt ≠ .stopped ∧ s.mbx.long = none
      ∧ canObj r.index.toNat r.sub.toNat = some o ∧ r.write = false) ∧
    (∃ (s : State) (r : SdoReq), Calm s ∧ canAlive s = true ∧ thoevoUp s = true ∧ s.can.nmt ≠ .stopped ∧ s.mbx.long = none ∧ canObj
      r.index.toNat r.sub.toNat = none) ∧
    (∃ (s : State) (r : SdoReq) (o : _), Calm s ∧ canAlive s = true ∧ thoevoUp s = true ∧ s.can.nmt ≠ .stopped ∧ s.mbx.long = none
      ∧ canObj r.index.toNat r.sub.toNat = some o ∧ r.write = true ∧ o.writable = true ∧ r.size ≠ o.bytes) ∧
    (∃ (s : State) (r : SdoReq), Calm s ∧ canAlive s = true ∧ thoevoUp s = true ∧ s.can.nmt ≠ .stopped ∧ s.mbx.long = none ∧
      r.write = true ∧ r.index = 0x1017 ∧ r.sub = 0 ∧ r.size = 2) ∧
    (∃ (s : State) (r : SdoReq) (x : _), Calm s ∧ canAlive s = true ∧ thoevoUp s = true ∧ s.can.nmt ≠ .stopped ∧ s.mbx.long = none
      ∧ r.write = true ∧ r.index = (match x with | .a => 0x60FF | .b => 0x68FF) ∧ r.sub = 0 ∧ r.size = 4 ∧ spOwner s x = 2 ∧
      ((getCia s x).mode = 8 ∨ (getCia s x).mode = 10 ∨ (getCia s x).mode = 1)) ∧
    (∃ (s : State) (r : SdoReq) (x : _), Calm s ∧ canAlive s = true ∧ thoevoUp s = true ∧ s.can.nmt ≠ .stopped ∧ s.mbx.long = none
      ∧ r.write = true ∧ r.index = (match x with | .a => 0x60FF | .b => 0x68FF) ∧ r.sub = 0 ∧ r.size = 4 ∧ spOwner s x ≠ 2) ∧
    (∃ (s : State) (n : Fin 8) (data : List Byte), Calm s ∧ pdoActive s = true ∧ s.can.rpdo.length = 8 ∧ (pdoAt s.can.rpdo
      n.val).cob.getLsbD 31 = false ∧ (pdoAt s.can.rpdo n.val).kind.toNat ≤ 240 ∧ mapBytes ((pdoAt s.can.rpdo n.val).maps.take
      (pdoAt s.can.rpdo n.val).n) ≤ data.length) ∧
    (∃ (s : State) (x : Axis), Calm s ∧ canAlive s = true ∧ thoevoUp s = true ∧ s.can.nmt ≠ .operational ∧ spOwner s x = 2 ∧
      spOwner s (otherAxis x) ≠ 2 ∧ ciaCyclic (getCia s x).mode = true ∧ (getCia s x).fresh = true ∧ (getAx s x).sp.accepted =
      true) ∧
    (∃ (s : State), Calm s ∧ (∀ x, spOwner s x ≠ 2) ∧ (∀ n, (pdoAt s.can.rpdo n).stored = none) ∧ (∀ n, n ≠ 0 → (pdoAt s.can.tpdo
      n).cob.getLsbD 31 = true) ∧ canAlive s = true ∧ thoevoUp s = true ∧ s.can.nmt = .operational ∧ (pdoAt s.can.tpdo
      0).cob.getLsbD 31 = false ∧ (pdoAt s.can.tpdo 0).kind.toNat ≤ 240 ∧ (pdoAt s.can.tpdo 0).kind.toNat ≤ (pdoAt s.can.tpdo
      0).count + 1) :=
  ⟨⟨busy (.ident .a), calm_of (by decide +kernel), by decide +kernel⟩,
   ⟨up, ⟨false, 0x1017, 0, 0, 0⟩, { bytes := 2, writable := true }, calm_of (by decide +kernel), by decide +kernel⟩,
   ⟨up, ⟨false, 0x1FFF, 0, 0, 0⟩, calm_of (by decide +kernel), by decide +kernel⟩,
   ⟨up, ⟨true, 0x1017, 0, 4, 0⟩, { bytes := 2, writable := true }, calm_of (by decide +kernel), by decide +kernel⟩,
   ⟨up, ⟨true, 0x1017, 0, 2, 1000⟩, calm_of (by decide +kernel), by decide +kernel⟩,
   ⟨{ (put up Par.spSrc 2) with can := { up.can with a := { mode := 10 } } }, ⟨true, 0x60FF, 0, 4, 5⟩, .a, calm_of
     (by decide +kernel), by decide +kernel⟩,
   ⟨up, ⟨true, 0x68FF, 0, 4, 5⟩, .b, calm_of (by decide +kernel), by decide +kernel⟩,

     ⟨{ up with can := { up.can with nmt := .operational, rpdo := { cob := 0x200, kind := 240, maps := [0x60400010], n := 1 } :: List.replicate 7 {} } },
     0, [0, 0], calm_of (by decide +kernel), by decide +kernel⟩,

     ⟨{ (onA runs (fun a => { a with sp := { a.sp with src := 2 } })) with can := { up.can with a := { mode := 9, fresh := true } } },
     .a, calm_of (by decide +kernel), by decide +kernel⟩,

     ⟨{ up with can := { up.can with nmt := .operational, tpdo := { cob := 0x180, kind := 1, maps := [0x60410010], n := 1 } :: List.replicate 7 {} } },
     calm_of (by decide +kernel), fun x => by cases x <;> decide +kernel, fun n => unstored n, fun n h => disabled n h,
     by decide +kernel⟩⟩

/-- The hypotheses of CanManagementAndErrors can be met, clause by clause. -/
theorem test_CanManagementAndErrors_meets :
    (∃ (s : State) (n : BitVec 8) (c : NmtCommand), Calm s ∧ (∀ x, (getAx s x).sp.src ≠ 2) ∧ canAlive s = true ∧ thoevoUp s = true
      ∧ (n = 0 ∨ n.toNat = canNodeId s) ∧ (c = .stop ∨ c = .preOperational ∨ (c = .start ∧ s.pwr.base = .ready))) ∧
    (∃ (s : State), Calm s ∧ Awake s ∧ canAlive s = true ∧ s.boot.service = .none ∧ s.pwr.base = .hold ∧ s.pwr.noPlacement = false
      ∧ s.cairn.arming = none) ∧
    (∃ (s : State), Calm s ∧ canAlive s = true ∧ thoevoUp s = true ∧ anyRun s = false ∧ s.mbx.long = none) ∧
    (∃ (s : State), Calm s ∧ canAlive s = true ∧ thoevoUp s = true ∧ s.can.nmt ≠ .operational) ∧
    (∃ (s : State), Calm s ∧ canAlive s = true ∧ thoevoUp s = true ∧ s.can.hbProducer ≠ 0) ∧
    (∃ (s : State) (n : BitVec 8), Calm s ∧ canAlive s = true ∧ n ≠ 0 ∧ n.toNat = s.can.hbConsumer.toNat / 65536 % 128 ∧
      s.can.hbConsumer.toNat % 65536 ≠ 0) ∧
    (∃ (s : State) (x : Axis), Calm s ∧ canAlive s = true ∧ s.can.hbRunning = true ∧ (getAx s x).start.ax = .run ∧ (getAx s
      (otherAxis x)).start.ax = .disabled ∧ (getAx s x).sp.src = 2 ∧ ((getCia s x).mode = 1 ∨ (getCia s x).mode = 3 ∨ (getCia s
      x).mode = 4)) ∧
    (∃ (s : State), Calm s ∧ s.can.on = true ∧ s.can.err = .active) ∧
    (∃ (s : State), Calm s ∧ s.can.on = true ∧ s.can.err = .passive) ∧
    (∃ (s : State), Calm s ∧ (∀ x, (getAx s x).sp.src ≠ 2) ∧ s.can.on = true ∧ s.can.err ≠ .busOff) ∧
    (∃ (s : State), Calm s ∧ s.can.on = true ∧ s.can.err = .busOff) :=
  ⟨⟨up, 0, .start, calm_of (by decide +kernel), fun x => by cases x <;> decide +kernel, by decide +kernel⟩,
   ⟨held, calm_of (by decide +kernel), awake_of (by decide +kernel), by decide +kernel⟩,
   ⟨up, calm_of (by decide +kernel), by decide +kernel⟩,
   ⟨up, calm_of (by decide +kernel), by decide +kernel⟩,
   ⟨{ up with can := { up.can with hbProducer := 1 } }, calm_of (by decide +kernel), by decide +kernel⟩,
   ⟨{ up with can := { up.can with hbConsumer := 0x7F0001 } }, 127, calm_of (by decide +kernel), by decide +kernel⟩,

     ⟨{ (onA runs (fun a => { a with sp := { a.sp with src := 2 } })) with can := { up.can with hbRunning := true, a := { mode := 3 } } },
     .a, calm_of (by decide +kernel), by decide +kernel⟩,
   ⟨up, calm_of (by decide +kernel), by decide +kernel⟩,
   ⟨{ up with can := { up.can with err := .passive } }, calm_of (by decide +kernel), by decide +kernel⟩,
   ⟨up, calm_of (by decide +kernel), fun x => by cases x <;> decide +kernel, by decide +kernel⟩,
   ⟨{ up with can := { up.can with err := .busOff } }, calm_of (by decide +kernel), by decide +kernel⟩⟩

/-- The hypotheses of ExternalFlash can be met, clause by clause. -/
theorem test_ExternalFlash_meets :
    (∃ (s : State) (a : Nat), Calm s ∧ flashLive s = true ∧ a < s.xsp.capacity ∧ s.xsp.busy = .idle ∧ (∀ p ∈ s.xsp.collect, p.1 /
      s.xsp.page = a / s.xsp.page)) ∧
    (∃ (s : State) (p : Nat × Byte) (ps : List (Nat × Byte)), Calm s ∧ flashLive s = true ∧ s.xsp.busy = .idle ∧ s.xsp.collect = p
      :: ps) ∧
    (∃ (s : State) (pg a : Nat) (b : Byte), Calm s ∧ flashLive s = true ∧ s.xsp.busy = .program pg [(a, b)] ∧ mapWf 0xFF
      s.xsp.flash = true) ∧
    (∃ (s : State) (a n : Nat), Calm s ∧ flashLive s = true ∧ s.xsp.busy = .erase a n ∧ mapWf 0xFF s.xsp.flash = true) ∧
    (∃ (s : State), Calm s ∧ flashLive s = true ∧ s.xsp.warnedAt = none ∧ s.xsp.failRun < 2 ∧ s.xsp.busy ≠ .idle) ∧
    (∃ (s : State), Calm s ∧ flashLive s = true ∧ s.xsp.failRun = 2) :=
  ⟨⟨{ up with xsp := { up.xsp with collect := [(0xFFF00, 1)] } }, 0xFFFFF, calm_of (by decide +kernel), by decide +kernel⟩,
   ⟨{ up with xsp := { up.xsp with collect := [(255, 1)] } }, (255, 1), [], calm_of (by decide +kernel), by decide +kernel⟩,
   ⟨{ up with xsp := { up.xsp with busy := .program 0 [(255, 0)], flash := [(255, 0x0F)] } }, 0, 255, 0, calm_of
     (by decide +kernel), by decide +kernel⟩,
   ⟨{ up with xsp := { up.xsp with busy := .erase 0x1000 0x1000, flash := [(0x1FFF, 0)] } }, 0x1000, 0x1000, calm_of
     (by decide +kernel), by decide +kernel⟩,
   ⟨{ up with xsp := { up.xsp with failRun := 1, busy := .erase 0 0x1000 } }, calm_of (by decide +kernel), by decide +kernel⟩,
   ⟨{ up with xsp := { up.xsp with failRun := 2 } }, calm_of (by decide +kernel), by decide +kernel⟩⟩

/-- The hypotheses of BootAndBackground can be met, clause by clause. -/
theorem test_BootAndBackground_meets :
    (∃ (s : State) (b : BootFacts) (src : BitVec 8), Calm s ∧ s.pwr.boot = some src ∧ Room s 6 ∧ b.coreOk = false) ∧
    (∃ (s : State) (b : BootFacts) (src : BitVec 8) (u : State), Calm s ∧ s.pwr.boot = some src ∧ u = senseFuses (cutBurn
      { s with clk := { s.clk with extRef := b.xtal, xtal := b.xtal }, nv := { s.nv with bootCount := s.nv.bootCount + 1 } })
      b.rows ∧ b.coreOk = true ∧ u.otp.failed.getLsbD 2 = false ∧ u.otp.failed.getLsbD 3 = false ∧ (chooseSlot (bootMram u src b)
      b).2 = false) ∧
    (∃ (s : State) (b : BootFacts) (src : BitVec 8) (u : State), Calm s ∧ s.pwr.boot = some src ∧ u = senseFuses (cutBurn
      { s with clk := { s.clk with extRef := b.xtal, xtal := b.xtal }, nv := { s.nv with bootCount := s.nv.bootCount + 1 } })
      b.rows ∧ b.coreOk = true ∧ u.otp.failed.getLsbD 2 = false ∧ u.otp.failed.getLsbD 3 = false ∧ (chooseSlot (bootMram u src b)
      b).2 = true ∧ s.nv.place = none) ∧
    (∃ (s : State), Calm s ∧ thoevoUp s = true ∧ s.boot.verifyDue = true) ∧
    (∃ (s : State) (k : Nat), Calm s ∧ Awake s ∧ parD s Par.mramScrubPeriod ≠ 0 ∧ k < s.nv.banks.length) :=
  ⟨⟨booting, found false, 1, calm_of (by decide +kernel), rfl, (by unfold Room; decide +kernel), by decide +kernel⟩,
   ⟨booting, found true, 1, _, calm_of (by decide +kernel), rfl, rfl, by decide +kernel⟩,
   ⟨{ booting with otp := { fuse := signed } }, { (found true) with imageA := some image }, 1, _, calm_of (by decide +kernel), rfl,
     rfl, by decide +kernel⟩,
   ⟨{ up with boot := { verifyDue := true } }, calm_of (by decide +kernel), by decide +kernel⟩,
   ⟨up, 3, calm_of (by decide +kernel), awake_of (by decide +kernel), by decide +kernel⟩⟩

/-- The hypotheses of SessionsAndLocks can be met, clause by clause. -/
theorem test_SessionsAndLocks_meets :
    (∃ (s : State) (h : Hdr) (r : Role) (k : Nat), Asked s h 0x0101 ∧ ((installerOpt s).getLsbD 1 = false ∨ r = .operator ∨ h.tr =
      .host) ∧ (getLock s r).lock = none ∧ freePlace 0 s.mbx.sessions = some k) ∧
    (∃ (s : State) (h : Hdr) (v : BitVec 256) (se : Session), Calm s ∧ Served s h 0x0102 ∧ sessionOf s h = some se ∧ se.answered =
      false ∧ s.clk.now ≤ se.openedAt + 10000000000 ∧ expected s h se = some (leBytes 32 v.toNat) ∧ (getLock s se.role).lock =
      none) ∧
    (∃ (s : State) (h : Hdr) (v : BitVec 256) (se : Session), Calm s ∧ Served s h 0x0102 ∧ sessionOf s h = some se ∧ se.answered =
      false ∧ s.clk.now ≤ se.openedAt + 10000000000 ∧ expected s h se ≠ some (leBytes 32 v.toNat) ∧ (getLock s se.role).lock =
      none) ∧
    (∃ (s : State) (h : Hdr), Calm s ∧ Served s h 0x0103 ∧ (sessionOf s h).isSome = true) ∧
    (∃ (s : State) (h : Hdr), Asked s h 0x0104) ∧
    (∃ (s : State) (h : Hdr) (m : BitVec 8), Granted s h 0x0105 1 ∧ m.toNat < 8) ∧
    (∃ (s : State) (k : Fin 5) (se : Session), Calm s ∧ k.val ≠ 0 ∧ s.mbx.sessions[k.val - 1]? = some (some se) ∧ se.lastAt +
      300000000000 ≤ s.clk.now) ∧
    (∃ (s : State) (r : Role) (n : Nat), Calm s ∧ s.sum.on = true ∧ (getLock s r).lock = some n ∧ (getLock s r).since + n *
      1000000000 ≤ s.clk.now) :=
  ⟨⟨up, { }, .operator, 1, asked_of (by decide +kernel), by decide +kernel⟩,
   ⟨asksAuth, hd, 19001534875856415152640088190414859844342813065072817804866694146492562136926,
     { ses with role := .operator, authed := false, answered := false, openedAt := 390000000000 }, calm_of (by decide +kernel),
     served_of (by decide +kernel), by decide +kernel⟩,
   ⟨asksAuth, hd, 0, { ses with role := .operator, authed := false, answered := false, openedAt := 390000000000 }, calm_of
     (by decide +kernel), served_of (by decide +kernel), by decide +kernel⟩,
   ⟨up, hd, calm_of (by decide +kernel), served_of (by decide +kernel), by decide +kernel⟩,
   ⟨up, hd, asked_of (by decide +kernel)⟩,
   ⟨up, hd, 7, granted_of (by decide +kernel), by decide +kernel⟩,
   ⟨{ up with clk := { up.clk with now := 300000000000 } }, 1, ses, calm_of (by decide +kernel), by decide +kernel⟩,
   ⟨{ up with mbx := { up.mbx with lockOp := { wrong := 3, lock := some 10, since := 390000000000 } } }, .operator, 10, calm_of
     (by decide +kernel), by decide +kernel⟩⟩

/-- The hypotheses of RepeatedRequests can be met, clause by clause. -/
theorem test_RepeatedRequests_meets :
    (∃ (s : State) (h : Hdr) (op : BitVec 16) (se : Session) (m : Msg), Calm s ∧ Awake s ∧ se.last = some (op, h.tag, h.crc, m) ∧
      s.boot.service = .none ∧ s.mbx.long = none ∧ sessionOf s h = some se) ∧
    (∃ (s : State) (h : Hdr) (se : Session) (m : Msg), Calm s ∧ Awake s ∧ se.last = some (0x0303, h.tag, h.crc, m) ∧ s.boot.service
      = .none ∧ s.mbx.long = none ∧ sessionOf s h = some se) ∧
    (∃ (s : State) (h : Hdr) (se : Session), Granted s h 0x0206 1 ∧ sessionOf s h = some se) :=
  ⟨⟨again, hd, 0x0303, { ses with last := some (0x0303, 9, 0x1234, ⟨0x8303, 9, 1, [0, 0, 0, 0]⟩) }, ⟨0x8303, 9, 1, [0, 0, 0, 0]⟩,
     calm_of (by decide +kernel), awake_of (by decide +kernel), rfl, by decide +kernel⟩,
   ⟨again, hd, { ses with last := some (0x0303, 9, 0x1234, ⟨0x8303, 9, 1, [0, 0, 0, 0]⟩) }, ⟨0x8303, 9, 1, [0, 0, 0, 0]⟩, calm_of
     (by decide +kernel), awake_of (by decide +kernel), rfl, by decide +kernel⟩,
   ⟨up, hd, ses, granted_of (by decide +kernel), by decide +kernel⟩⟩

/-- The hypotheses of ParameterRequests can be met, clause by clause. -/
theorem test_ParameterRequests_meets :
    (∃ (s : State) (h : Hdr) (is : List (BitVec 16)) (data : List Byte), Asked s h 0x0201 ∧
      data = is.flatMap (fun i => match parKnown i with | none => u16 i.toNat ++ u16 0x10 ++ u32 0 | some d => if i.getLsbD 15 = true ∧ d.perAxis = false then u16 i.toNat ++ u16 0x11 ++ u32 0 else u16 i.toNat ++ u16 0 ++ w32 (parValue s i.toNat))
      ∧ Fits h data ∧ 0 < is.length ∧ is.length ≤ 510) ∧
    (∃ (s : State) (h : Hdr) (items : List (BitVec 16 × BitVec 32)) (m : List (Nat × Word)), Granted s h 0x0202 (items.foldl (fun
      (n : Nat) it => max n (itemRole it.1)) 1) ∧ 0 < items.length ∧ items.length ≤ 510 ∧ parItems s 0 s.par items = (m, none)) ∧
    (∃ (s : State) (h : Hdr) (i : BitVec 16) (v : Word) (d : PDef), Granted s h 0x0202 (max 1 (itemRole i)) ∧ Rising s.par ∧ Rising
      s.inForce ∧ parKnown i = some d ∧ d.kind = .writable ∧ itemResult s s.par i v = 0) ∧
    (∃ (s : State) (h : Hdr) (items : List (BitVec 16 × BitVec 32)) (m : List (Nat × Word)) (code k : Nat), Granted s h 0x0202
      (items.foldl (fun (n : Nat) it => max n (itemRole it.1)) 1) ∧ 0 < items.length ∧ items.length ≤ 510 ∧ parItems s 0 s.par
      items = (m, some (code, k))) ∧
    (∃ (s : State) (h : Hdr) (i : BitVec 16) (d : PDef), Asked s h 0x0203 ∧ parKnown i = some d ∧ (i.getLsbD 15 = true → d.perAxis
      = true)) ∧
    (∃ (s : State) (h : Hdr) (b f : BitVec 8), Granted s h 0x0204 2 ∧ b.toNat < 4 ∧ f.toNat < 2 ∧ s.nv.banks.length = 4) ∧
    (∃ (s : State) (h : Hdr) (n : BitVec 8) (b : ParBank), Granted s h 0x0205 2 ∧ Rising s.par ∧ anyRun s = false ∧ parBank s
      n.toNat = some b) ∧
    (∃ (s : State) (h : Hdr), Granted s h 0x0206 1) ∧
    (∃ (s : State) (h : Hdr), Granted s h 0x0207 2 ∧ Rising s.par ∧ anyRun s = false) :=
  ⟨⟨up, hd, [0x0010], _, asked_of (by decide +kernel), rfl, (by unfold Fits; decide +kernel), by decide +kernel⟩,
   ⟨up, hd, [(0x0104, 0x41F00000)], [(0x0104, 0x41F00000)], granted_of (by decide +kernel), by decide +kernel⟩,
   ⟨up, hd, 0x0104, 0x41F00000, vmPfDef, granted_of (by decide +kernel), (by unfold Rising; decide +kernel),
     (by unfold Rising; decide +kernel), by decide +kernel⟩,
   ⟨up, hd, [(0x0104, 0x41F00001)], [], 20, 0, granted_of (by decide +kernel), by decide +kernel⟩,
   ⟨up, hd, 0x0104, vmPfDef, asked_of (by decide +kernel), by decide +kernel⟩,
   ⟨up, hd, 3, 1, granted_of (by decide +kernel), by decide +kernel⟩,
   ⟨{ up with nv := { banks := [some ⟨1, 0, [(0x0104, 0x41F00000)]⟩, none, none, none] } }, hd, 0, ⟨1, 0, [(0x0104, 0x41F00000)]⟩,
     granted_of (by decide +kernel), (by unfold Rising; decide +kernel), by decide +kernel⟩,
   ⟨up, hd, granted_of (by decide +kernel)⟩,
   ⟨up, hd, granted_of (by decide +kernel), (by unfold Rising; decide +kernel), by decide +kernel⟩⟩

/-- The hypotheses of ParameterValuesStayInRange can be met, clause by clause. -/
theorem test_ParameterValuesStayInRange_meets :
    (∃ (s : State) (items : List (BitVec 16 × Word)) (i : BitVec 16) (v : Word) (d : PDef), Calm s ∧ (i, v) ∈ items ∧ parKnown i =
      some d ∧ d.kind = .writable ∧ valueOk d v = false) ∧
    (∃ (s : State) (h : Hdr) (i : BitVec 16) (v : Word) (d : PDef), Granted s h 0x0202 (max 1 (itemRole i)) ∧ Rising s.par ∧
      parKnown i = some d ∧ d.kind = .writable ∧ itemResult s s.par i v = 0) ∧
    (∃ (s : State) (i : BitVec 16) (v : Word) (d : PDef), Rising s.par ∧ parKnown i = some d ∧ d.kind = .writable ∧ itemResult s
      s.par i v = 0 ∧ itemRole i ≤ (parD s Par.canRole).toNat) ∧
    (∃ (s t : State), ParamsOk s ∧ step s = .next t) :=
  ⟨⟨up, [(0x0104, 0x41F00001)], 0x0104, 0x41F00001, vmPfDef, calm_of (by decide +kernel), by decide +kernel⟩,
   ⟨up, hd, 0x0104, 0x41F00000, vmPfDef, granted_of (by decide +kernel), (by unfold Rising; decide +kernel), by decide +kernel⟩,
   ⟨put up Par.canRole 2, 0x0104, 0x41F00000, vmPfDef, (by unfold Rising; decide +kernel), by decide +kernel⟩,
   ⟨{ pending := [.hswSoaTimeout] }, { }, ⟨(by intro p hp; cases hp), (by intro b hb; revert hb; simp)⟩, rfl⟩⟩

/-- The hypotheses of PowerAndMotionRequests can be met, clause by clause. -/
theorem test_PowerAndMotionRequests_meets :
    (∃ (s : State) (h : Hdr), Asked s h 0x0301) ∧
    (∃ (s : State) (h : Hdr), Granted s h 0x0302 1 ∧ anyRun s = false ∧ s.pwr.base = .ready) ∧
    (∃ (s : State) (h : Hdr), Granted s h 0x0302 1 ∧ anyRun s = false ∧ s.pwr.base = .hold ∧ s.pwr.noPlacement = false ∧
      s.cairn.arming = none) ∧
    (∃ (s : State) (h : Hdr) (n : BitVec 8), Granted s h 0x0302 1 ∧ 0 < n.toNat ∧ n.toNat < 4 ∧ (anyRun s = true ∨ (s.pwr.base =
      .ready ∧ n = 3) ∨ (s.pwr.base = .hold ∧ (n = 2 ∨ (n = 3 ∧ s.pwr.noPlacement = true))))) ∧
    (∃ (s u : State) (h : Hdr) (x : Axis), Granted s h 0x0303 1 ∧ u = bringInAx (if anyRun s then s else bringInDev s .enable) x
      .enable ∧ enableRefusal s x = none ∧ fisZero (parX u x Par.fsMeasT) = false) ∧
    (∃ (s : State) (h : Hdr) (x : Axis) (c : Nat), Granted s h 0x0303 1 ∧ enableRefusal s x = some c) ∧
    (∃ (s : State) (h : Hdr) (x : Axis) (c : Instr) (k : StopKind) (op : BitVec 16), ((c = .disable h (BitVec.ofNat 8 (axisNo x +
      1)) ∧ k = .ramp ∧ op = 0x0304) ∨ (c = .quickStop h (BitVec.ofNat 8 (axisNo x + 1)) ∧ k = .quick ∧ op = 0x0305)) ∧ Granted s h
      op 1 ∧ (getAx s x).start.ax = .run ∧ (getAx s x).pwm.switching = true) ∧
    (∃ (s : State) (h : Hdr) (x : Axis) (c : Instr) (k : StopKind) (op : BitVec 16), ((c = .disable h (BitVec.ofNat 8 (axisNo x +
      1)) ∧ k = .ramp ∧ op = 0x0304) ∨ (c = .quickStop h (BitVec.ofNat 8 (axisNo x + 1)) ∧ k = .quick ∧ op = 0x0305)) ∧ Granted s h
      op 1 ∧ (getAx s x).start.ax = .measure) ∧
    (∃ (s : State) (h : Hdr) (x : Axis) (c : Instr) (k : StopKind) (op : BitVec 16), ((c = .disable h (BitVec.ofNat 8 (axisNo x +
      1)) ∧ k = .ramp ∧ op = 0x0304) ∨ (c = .quickStop h (BitVec.ofNat 8 (axisNo x + 1)) ∧ k = .quick ∧ op = 0x0305)) ∧ Granted s h
      op 1 ∧ (getAx s x).start.ax = .disabled) :=
  ⟨⟨up, hd, asked_of (by decide +kernel)⟩,
   ⟨up, hd, granted_of (by decide +kernel), by decide +kernel⟩,
   ⟨held, hd, granted_of (by decide +kernel), by decide +kernel⟩,
   ⟨up, hd, 3, granted_of (by decide +kernel), by decide +kernel⟩,
   ⟨up, _, hd, .a, granted_of (by decide +kernel), rfl, by decide +kernel⟩,
   ⟨runs, hd, .a, 1, granted_of (by decide +kernel), by decide +kernel⟩,
   ⟨runs, hd, .a, .disable hd 1, .ramp, 0x0304, Or.inl ⟨rfl, rfl, rfl⟩, granted_of (by decide +kernel), by decide +kernel⟩,
   ⟨starts .measure, hd, .a, .quickStop hd 1, .quick, 0x0305, Or.inr ⟨rfl, rfl, rfl⟩, granted_of (by decide +kernel),
     by decide +kernel⟩,
   ⟨up, hd, .a, .disable hd 1, .ramp, 0x0304, Or.inl ⟨rfl, rfl, rfl⟩, granted_of (by decide +kernel), by decide +kernel⟩⟩

/-- The hypotheses of FaultLegAndSetpointRequests can be met, clause by clause. -/
theorem test_FaultLegAndSetpointRequests_meets :
    (∃ (s : State) (h : Hdr) (sc : BitVec 8), Granted s h 0x0306 1 ∧ Room s 0 ∧ 0 < sc.toNat ∧ sc.toNat < 8 ∧ (∀ e ∈ s.flt.list,
      e.code ≠ 0x3A04 ∧ e.code ≠ 0x5A03)) ∧
    (∃ (s : State) (h : Hdr) (seen : Bool) (e : FaultEntry), Granted s h 0x0306 1 ∧ Room s 0 ∧ e ∈ s.flt.list ∧ e.code = 0x3A04 ∧
      e.scope = 0 ∧ (∀ f ∈ s.flt.list, f.code ≠ 0x5A03 ∧ (f.code = 0x3A04 → f = e)) ∧ seen = false) ∧
    (∃ (s : State) (h : Hdr) (seen : Bool) (e : FaultEntry), Granted s h 0x0306 1 ∧ Room s 0 ∧ e ∈ s.flt.list ∧ e.code = 0x3A04 ∧
      e.scope = 0 ∧ (∀ f ∈ s.flt.list, f.code ≠ 0x5A03 ∧ (f.code = 0x3A04 → f = e)) ∧ seen = true ∧ vmTestable s = true ∧ e.detail
      ≠ 3 ∧ s.scarp.latch = 0) ∧
    (∃ (s : State) (h : Hdr), Granted s h 0x0307 1 ∧ Room s 0) ∧
    (∃ (s : State) (h : Hdr) (x : Axis) (l : Leg), Granted s h 0x0308 2 ∧ anyRun s = false ∧ legTestable s x = true ∧ (getAx s
      x).stage.bypassMask.getLsbD (legNo l) = true) ∧
    (∃ (s : State) (h : Hdr) (m : BitVec 8), Granted s h 0x0309 1 ∧ Room s 2 ∧ 0 < m.toNat ∧ m.toNat < 4) ∧
    (∃ (s : State) (h : Hdr) (w : SpWords) (x : Axis) (p : Setpoint), Granted s h 0x0401 1 ∧ x = axisOf w.axis.toNat ∧ p = (if
      w.kind = 2 then { kind := 2, frac := w.w0, turns := w.w1, vff := w.w2, tff := w.w3 } else if w.kind = 1 then
      { kind := 1, value := w.w2, tff := w.w3 } else { kind := 0, value := w.w2 }) ∧ badSp w = none) ∧
    (∃ (s : State) (h : Hdr), Granted s h 0x0402 1) :=
  ⟨⟨listing ⟨0x4803, 1, 0xFF, false, 0⟩, hd, 7, granted_of (by decide +kernel), (by unfold Room; decide +kernel),
     by decide +kernel⟩,
   ⟨listing ⟨0x3A04, 0, 1, true, 0⟩, hd, false, ⟨0x3A04, 0, 1, true, 0⟩, granted_of (by decide +kernel),
     (by unfold Room; decide +kernel), by decide +kernel⟩,
   ⟨listing ⟨0x3A04, 0, 1, true, 0⟩, hd, true, ⟨0x3A04, 0, 1, true, 0⟩, granted_of (by decide +kernel),
     (by unfold Room; decide +kernel), by decide +kernel⟩,
   ⟨up, hd, granted_of (by decide +kernel), (by unfold Room; decide +kernel)⟩,
   ⟨onA up (fun a => { a with stage := { a.stage with bypassMask := 1 } }), hd, .a, .u1, granted_of (by decide +kernel),
     by decide +kernel⟩,
   ⟨up, hd, 3, granted_of (by decide +kernel), (by unfold Room; decide +kernel), by decide +kernel⟩,
   ⟨up, hd, ⟨0, 1, 0, 0, 5, 6⟩, .a, { kind := 1, value := 5, tff := 6 }, granted_of (by decide +kernel), rfl, rfl,
     by decide +kernel⟩,
   ⟨up, hd, granted_of (by decide +kernel)⟩⟩

/-- The hypotheses of CalibrationAndIdentification can be met, clause by clause. -/
theorem test_CalibrationAndIdentification_meets :
    (∃ (s : State) (h : Hdr), Granted s h 0x0501 2 ∧ isReady s = true ∧ anyRun s = false) ∧
    (∃ (s : State) (h : Hdr) (mask : BitVec 16), Granted s h 0x0501 2 ∧ 0 < mask.toNat ∧ mask.toNat < 4096 ∧ calPick s
      (mask.setWidth 12) ≠ 0) ∧
    (∃ (s : State) (h : Hdr) (cv : Fin 12) (asked : BitVec 12) (m : CalMeasure) (c : Converter) (r : Nat), Calm s ∧ s.mbx.long =
      some (.calConv asked (BitVec.ofNat 12 (2 ^ cv.val)), h) ∧ c = getCv s cv.val ∧ s.nv.auditOk = true ∧ s.conv.calNext = 0 ∧ ((r
      = 0 ∧ fle (fabs m.coreOfs) (frnd 256) = true ∧ fle (fabs m.coreGain) (frnd (mkRat 2 100)) = true ∧ fle (fabs m.shuntGain)
      (frnd (mkRat 3 100)) = true ∧ fle (fabs m.shuntOfs) (frnd (mkRat 1 2)) = true ∧ fle m.span (frnd (mkRat 1 10)) = true) ∨ (r =
      1 ∧ (fle (fabs m.coreOfs) (frnd 256) = false ∨ fle (fabs m.coreGain) (frnd (mkRat 2 100)) = false ∨ fle (fabs m.shuntGain)
      (frnd (mkRat 3 100)) = false ∨ (fle m.span (frnd (mkRat 1 10)) = true ∧ fle (fabs m.shuntOfs) (frnd (mkRat 1 2)) = false))) ∨
      (r = 2 ∧ fle (fabs m.coreOfs) (frnd 256) = true ∧ fle (fabs m.coreGain) (frnd (mkRat 2 100)) = true ∧ fle (fabs m.shuntGain)
      (frnd (mkRat 3 100)) = true ∧ fle m.span (frnd (mkRat 1 10)) = false))) ∧
    (∃ (s : State) (h : Hdr), Granted s h 0x0502 2) ∧
    (∃ (s : State) (h : Hdr) (x : Axis), Calm s ∧ (s.mbx.long = some (.ident x, h) ∨ s.mbx.long = some (.angleOfs x, h)) ∧ (getAx s
      x).crest.ident.step ≠ .ended) ∧
    (∃ (s : State) (h : Hdr) (x : Axis) (r : Nat), Calm s ∧ s.mbx.long = some (.ident x, h) ∧ (getAx s x).crest.ident.step = .ended
      ∧ identFail s x (identMeasured s x) = some r) ∧
    (∃ (s : State) (h : Hdr) (x : Axis) (m : IdentMeasure) (low : Bool), Calm s ∧ s.mbx.long = some (.ident x, h) ∧ m =
      identMeasured s x ∧ Rising s.par ∧ (getAx s x).crest.ident.step = .ended ∧ identFail s x m = none ∧ s.nv.auditOk = true ∧ low
      = decide (termRatio (fval m.ld) (fval m.lq) < fval (storX s x Par.crestSalMin))) ∧
    (∃ (s : State) (h : Hdr), Granted s h 0x0503 2) ∧
    (∃ (s : State) (h : Hdr) (x : Axis) (k : Rat), Calm s ∧ s.mbx.long = some (.angleOfs x, h) ∧ k = polarityK (getAx s
      x).crest.gPlus (getAx s x).crest.gMinus ∧ storedSalient s x = true ∧ (getAx s x).crest.ident.step = .ended ∧ absR k < pf s x
      Par.crestPolMin / 100) ∧
    (∃ (s : State) (h : Hdr) (x : Axis) (k deg hall : Rat), Calm s ∧ s.mbx.long = some (.angleOfs x, h) ∧ Rising s.par ∧ k =
      polarityK (getAx s x).crest.gPlus (getAx s x).crest.gMinus ∧ deg = (if storedSalient s x = true then fval (getAx s
      x).crest.th else fval (fdeg (parX s x Par.stAlignAng))) * 180 / piR ∧ hall = 60 * (((hallIdx (getAx s x).fb.hall).getD 0 :
      Nat) : Rat) ∧ s.nv.auditOk = true ∧ (getAx s x).crest.ident.step = .ended ∧ (storedSalient s x = false ∨ pf s x
      Par.crestPolMin / 100 ≤ absR k)) :=
  ⟨⟨up, hd, granted_of (by decide +kernel), by decide +kernel⟩,
   ⟨up, hd, 0x0FFF, granted_of (by decide +kernel), by decide +kernel⟩,
   ⟨busy (.calConv 1 1), hd, 0, 1, ⟨0, 0, 0, 0, 0⟩, _, 0, calm_of (by decide +kernel), rfl, rfl, by decide +kernel⟩,
   ⟨up, hd, granted_of (by decide +kernel)⟩,
   ⟨busy (.ident .a), hd, .a, calm_of (by decide +kernel), Or.inl rfl, by decide +kernel⟩,
   ⟨onA (busy (.ident .a)) (fun a => { a with crest := { a.crest with ident := { step := .ended, ripple := 0x41300000 } } }), hd,
     .a, 1, calm_of (by decide +kernel), rfl, by decide +kernel⟩,
   ⟨onA (busy (.ident .a)) (fun a =>
     { a with crest := { a.crest with gPlus := 0x3F800000, ident := { step := .ended, a11 := 0x469C4000, b11 := 0x469C4000, a22 := 0x46823555, b22 := 0x46823555, gStar := 0x469C4000, eSum := 0x3DCCCCCD, iSum := 0x3F800000, fxSum := 0x3BA3D70A, fxN := 1 } } }),
     hd, .a, _, false, calm_of (by decide +kernel), rfl, rfl, (by unfold Rising; decide +kernel), by decide +kernel⟩,
   ⟨up, hd, granted_of (by decide +kernel)⟩,
   ⟨onA (busy (.angleOfs .a)) (fun a => { a with crest := { a.crest with ident := { step := .ended } } }), hd, .a, _, calm_of
     (by decide +kernel), rfl, rfl, by decide +kernel⟩,
   ⟨onA (busy (.angleOfs .a)) (fun a => { a with crest := { a.crest with gPlus := 0x3F800000, ident := { step := .ended } } }), hd,
     .a, _, _, _, calm_of (by decide +kernel), rfl, (by unfold Rising; decide +kernel), rfl, rfl, rfl, by decide +kernel⟩⟩

/-- The hypotheses of DeclarationsAndSegments can be met, clause by clause. -/
theorem test_DeclarationsAndSegments_meets :
    (∃ (s : State) (h : Hdr) (off tot : BitVec 16) (bs old : List (BitVec 8)), Granted s h 0x0601 2 ∧ old = (if s.cairn.stagedTotal
      = tot.toNat then s.cairn.staged else []) ∧ 8 ≤ tot.toNat ∧ tot.toNat ≤ 4088 ∧ off.toNat + bs.length ≤ tot.toNat) ∧
    (∃ (s : State) (h : Hdr) (f : FlashFind) (c : Instr) (chk : Bool), Granted s h 0x0602 2 ∧ ((c = .compile h f ∧ chk = false) ∨
      (c = .compileCheckOnly h f ∧ chk = true)) ∧ ((s.cairn.stagedTotal ≠ 0 ∧ s.cairn.stagedDirty = false) ∨ (s.cairn.stagedTotal =
      0 ∧ s.nv.decl = []))) ∧
    (∃ (s : State) (h : Hdr) (f : FlashFind) (c : Instr) (chk : Bool), Granted s h 0x0602 2 ∧ ((c = .compile h f ∧ chk = false) ∨
      (c = .compileCheckOnly h f ∧ chk = true)) ∧ ((s.cairn.stagedTotal ≠ 0 ∧ s.cairn.stagedDirty = true) ∨ (s.cairn.stagedTotal =
      0 ∧ s.nv.decl ≠ []))) ∧
    (∃ (s : State) (h : Hdr) (o : CairnOut) (chk fs : Bool) (j : Judged), Calm s ∧ s.mbx.long = some (.compile chk fs, h) ∧ j =
      judgeDecl s (compileSource s fs) o ∧ outOk s (fun x => storX s x Par.usrEn) o = false) ∧
    (∃ (s : State) (h : Hdr) (o : CairnOut) (chk fs : Bool) (j : Judged) (i : _), Calm s ∧ s.mbx.long = some (.compile chk fs, h) ∧
      j = judgeDecl s (compileSource s fs) o ∧ (parseDecl (compileSource s fs)).2 = some i) ∧
    (∃ (s : State) (h : Hdr) (o : CairnOut) (chk fs : Bool) (j : Judged) (r i : _), Calm s ∧ s.mbx.long = some (.compile chk fs, h)
      ∧ j = judgeDecl s (compileSource s fs) o ∧ outOk s (fun x => storX s x Par.usrEn) o = true ∧ j.fails = some (r, i)) ∧
    (∃ (s : State) (h : Hdr) (o : CairnOut) (chk fs : Bool) (j : Judged), Calm s ∧ s.mbx.long = some (.compile chk fs, h) ∧ j =
      judgeDecl s (compileSource s fs) o ∧ outOk s (fun x => storX s x Par.usrEn) o = true ∧ j.fails = none ∧ chk = true) ∧
    (∃ (s : State) (h : Hdr) (o : CairnOut) (chk fs : Bool) (j : Judged), Calm s ∧ s.mbx.long = some (.compile chk fs, h) ∧ j =
      judgeDecl s (compileSource s fs) o ∧ outOk s (fun x => storX s x Par.usrEn) o = true ∧ j.fails = none ∧ chk = false ∧
      s.nv.auditOk = true) ∧
    (∃ (s : State) (h : Hdr) (off n : BitVec 16) (data : List Byte), Granted s h 0x0603 1 ∧ data = (s.nv.decl.drop off.toNat).take
      (min n.toNat 4084) ∧ Fits h data) ∧
    (∃ (s : State) (h : Hdr) (k i : BitVec 8), Granted s h 0x0604 1 ∧ Fits h (placeDetails s k.toNat i.toNat) ∧ k.toNat ≤ 4 ∧
      i.toNat ≤ placeTop k.toNat) ∧
    (∃ (s : State) (h : Hdr) (data : List Byte), Granted s h 0x0605 1 ∧ data = ledgerReport 0 0xFFFF (activeTotal s) (parD s
      Par.ledgerBudget) (match s.cairn.active with | some p => p.items | none => []) ∧ Fits h data) ∧
    (∃ (s : State) (h : Hdr) (a k : BitVec 8) (ops old : List (BitVec 64)), Granted s h 0x0B01 2 ∧ old = (mapGet s.cairn.segStage
      (segKey a k)).getD [] ∧ a.toNat < 2 ∧ k.toNat < 4 ∧ 0 < ops.length ∧ ops.length ≤ 510) ∧
    (∃ (s : State) (h : Hdr) (a k : BitVec 8) (n : BitVec 16) (init : List (BitVec 16 × Word)) (ini : List (Nat × Word)) (r i : _),
      Granted s h 0x0B02 2 ∧ ini = init.map (fun p => (p.1.toNat, p.2)) ∧ a.toNat < 2 ∧ k.toNat < 4 ∧ userCheck k.toNat (stagedOps
      s (segKey a k) n.toNat) ini (s.nv.segs.filter (fun g => g.key / 4 == a.toNat && g.key != segKey a k)) (s.nv.segs.filter (fun
      g => g.key / 4 != a.toNat)) = some (r, i)) ∧
    (∃ (s : State) (h : Hdr) (a k : BitVec 8) (n : BitVec 16) (init : List (BitVec 16 × Word)) (ini : List (Nat × Word)), Granted s
      h 0x0B02 2 ∧ ini = init.map (fun p => (p.1.toNat, p.2)) ∧ a.toNat < 2 ∧ k.toNat < 4 ∧ userCheck k.toNat (stagedOps s (segKey
      a k) n.toNat) ini (s.nv.segs.filter (fun g => g.key / 4 == a.toNat && g.key != segKey a k)) (s.nv.segs.filter (fun g => g.key
      / 4 != a.toNat)) = none) ∧
    (∃ (s : State) (h : Hdr) (a k : BitVec 8), Granted s h 0x0B03 2 ∧ a.toNat < 2 ∧ k.toNat < 4) ∧
    (∃ (s : State) (h : Hdr) (a k : BitVec 8) (off n : BitVec 16) (data : List Byte), Granted s h 0x0B04 1 ∧ data =
      (((((s.nv.segs.find? (fun g => g.key == segKey a k)).map (·.ops)).getD []).drop off.toNat).take (min n.toNat 510)).flatMap
      (fun (w : BitVec 64) => leBytes 8 w.toNat) ∧ Fits h data ∧ a.toNat < 2 ∧ k.toNat < 4) :=
  ⟨⟨up, hd, 0, 8, [1, 2, 3, 4, 5, 6, 7, 8], _, granted_of (by decide +kernel), rfl, by decide +kernel⟩,
   ⟨up, hd, .none 1, .compile hd (.none 1), false, granted_of (by decide +kernel), Or.inl ⟨rfl, rfl⟩, by decide +kernel⟩,
   ⟨{ up with cairn := { up.cairn with stagedTotal := 8, stagedDirty := true } }, hd, .none 1, .compileCheckOnly hd (.none 1),
     true, granted_of (by decide +kernel), Or.inr ⟨rfl, rfl⟩, by decide +kernel⟩,
   ⟨compiles false [1], hd, { timers := (1, 0) }, false, true, _, calm_of (by decide +kernel), rfl, rfl, by decide +kernel⟩,
   ⟨compiles false [1], hd, { }, false, true, _, 0xFFFF, calm_of (by decide +kernel), rfl, rfl, by decide +kernel⟩,
   ⟨compiles false [1], hd, { }, false, true, _, 16, 0xFFFF, calm_of (by decide +kernel), rfl, rfl, by decide +kernel⟩,
   ⟨compiles true chanDecl, hd, { }, true, true, _, calm_of (by decide +kernel), rfl, rfl, by decide +kernel⟩,
   ⟨compiles false chanDecl, hd, { }, false, true, _, calm_of (by decide +kernel), rfl, rfl, by decide +kernel⟩,
   ⟨{ up with nv := { decl := [1, 2] } }, hd, 1, 4084, _, granted_of (by decide +kernel), rfl, (by unfold Fits; decide +kernel)⟩,
   ⟨up, hd, 0, 0, granted_of (by decide +kernel), (by unfold Fits; decide +kernel), by decide +kernel⟩,
   ⟨up, hd, _, granted_of (by decide +kernel), rfl, (by unfold Fits; decide +kernel)⟩,
   ⟨up, hd, 0, 3, [0], _, granted_of (by decide +kernel), rfl, by decide +kernel⟩,
   ⟨up, hd, 0, 0, 0, [], _, 1, 0xFFF, granted_of (by decide +kernel), rfl, by decide +kernel⟩,
   ⟨{ up with cairn := { up.cairn with segStage := [(0, [0xFC00000000000000])] } }, hd, 0, 0, 1, [], _, granted_of
     (by decide +kernel), rfl, by decide +kernel⟩,
   ⟨up, hd, 1, 3, granted_of (by decide +kernel), by decide +kernel⟩,
   ⟨up, hd, 0, 0, 0, 510, _, granted_of (by decide +kernel), rfl, (by unfold Fits; decide +kernel), by decide +kernel⟩⟩

/-- The hypotheses of DiagnosticRequests can be met, clause by clause. -/
theorem test_DiagnosticRequests_meets :
    (∃ (s : State) (h : Hdr) (b : Word) (n : BitVec 8) (l : List LogEntry), Granted s h 0x0701 1 ∧ l = ((s.nv.log ++
      s.flt.logPending).filter (fun e => decide (b.toNat ≤ e.seq.toNat))).take n.toNat ∧ Fits h (u32 0 ++ l.flatMap logBytes) ∧ 0 <
      n.toNat ∧ n.toNat ≤ 127) ∧
    (∃ (s : State) (h : Hdr), Granted s h 0x0702 2) ∧
    (∃ (s : State) (h : Hdr) (i : BitVec 16) (n : BitVec 8) (l : List AuditEntry), Granted s h 0x0703 1 ∧ l = (s.nv.audit.dropWhile
      (fun e => e.seq.toNat % 4096 != i.toNat)).take n.toNat ∧ Fits h (u32 0 ++ l.flatMap auditBytes) ∧ i.toNat < 4096 ∧ 0 <
      n.toNat ∧ n.toNat ≤ 120) ∧
    (∃ (s : State) (h : Hdr) (x : Axis) (u : Fin 4) (n : BitVec 8) (l : List (Int × Nat × Bool)), Granted s h 0x0704 1 ∧ l =
      (unitFifo (getAx s x) u.val).take n.toNat ∧ 0 < n.toNat ∧ n.toNat ≤ 16) ∧
    (∃ (s : State) (h : Hdr) (k : Fin 16), Granted s h 0x0705 1 ∧ placedStream s k.val = none) ∧
    (∃ (s : State) (h : Hdr) (k : Fin 16) (b : Word) (n : BitVec 16) (q r l data : _), Granted s h 0x0705 1 ∧ r = streamFrom
      ((s.cairn.streams[k.val]?).getD {}) b.toNat ∧ l = r.2.take (min n.toNat (4076 / (8 + 4 * q.params.length))) ∧ data = u16
      l.length ++ [0, 0] ++ u32 r.1 ++ l.flatMap (fun e => u64 e.1 ++ e.2.flatMap w32) ∧ Fits h data ∧ placedStream s k.val = some
      q) ∧
    (∃ (s : State) (h : Hdr) (ids : List (BitVec 16)), Granted s h 0x0801 1 ∧ 0 < ids.length ∧ ids.length ≤ 64) ∧
    (∃ (s : State) (h : Hdr) (ids : List (BitVec 16)), Granted s h 0x0802 1 ∧ 0 < ids.length ∧ ids.length ≤ 64) ∧
    (∃ (s : State) (h : Hdr), Granted s h 0x0803 1) ∧
    (∃ (s : State) (h : Hdr) (m : Word), Granted s h 0x0804 1 ∧ Room s 12 ∧ m.toNat < 0x1000000) ∧
    (∃ (s : State) (h : Hdr), Granted s h 0x0805 2 ∧ Room s 1) ∧
    (∃ (s : State) (h : Hdr), Granted s h 0x0806 2) ∧
    (∃ (s : State) (h : Hdr), Granted s h 0x0807 2 ∧ isReady s = true ∧ swapBusy s = false ∧ s.ridge.rga.underTest = false ∧
      s.ridge.rgb.underTest = false ∧ s.mbx.rgTest = none) ∧
    (∃ (s : State) (h : Hdr) (c : Bool), Granted s h 0x0808 (if c then 2 else 1)) ∧
    (∃ (s : State) (h : Hdr) (cv : Fin 12) (c : Converter), Granted s h 0x0809 2 ∧ c = getCv s cv.val) ∧
    (∃ (s : State) (h : Hdr), Granted s h 0x080A 3) :=
  ⟨⟨up, hd, 0, 127, _, granted_of (by decide +kernel), rfl, (by unfold Fits; decide +kernel), by decide +kernel⟩,
   ⟨up, hd, granted_of (by decide +kernel)⟩,
   ⟨up, hd, 4095, 120, _, granted_of (by decide +kernel), rfl, (by unfold Fits; decide +kernel), by decide +kernel⟩,
   ⟨up, hd, .a, 0, 16, _, granted_of (by decide +kernel), rfl, by decide +kernel⟩,
   ⟨up, hd, 15, granted_of (by decide +kernel), by decide +kernel⟩,
   ⟨up, hd, 0, 0, 1, ⟨0, .sram, 0x447A0000, 0x3F800000, [0x0010]⟩, _, _, _, granted_of (by decide +kernel), rfl, rfl, rfl,
     (by unfold Fits; decide +kernel), by decide +kernel⟩,
   ⟨up, hd, List.replicate 64 0x0100, granted_of (by decide +kernel), by decide +kernel⟩,
   ⟨up, hd, List.replicate 64 0x030B, granted_of (by decide +kernel), by decide +kernel⟩,
   ⟨up, hd, granted_of (by decide +kernel)⟩,
   ⟨up, hd, 0xFFFFFF, granted_of (by decide +kernel), (by unfold Room; decide +kernel), by decide +kernel⟩,
   ⟨up, hd, granted_of (by decide +kernel), (by unfold Room; decide +kernel)⟩,
   ⟨up, hd, granted_of (by decide +kernel)⟩,
   ⟨up, hd, granted_of (by decide +kernel), by decide +kernel⟩,
   ⟨up, hd, true, granted_of (by decide +kernel)⟩,
   ⟨up, hd, 11, _, granted_of (by decide +kernel), rfl⟩,
   ⟨up, hd, granted_of (by decide +kernel)⟩⟩

/-- The hypotheses of FuseRequests can be met, clause by clause. -/
theorem test_FuseRequests_meets :
    (∃ (s : State) (h : Hdr) (row : BitVec 16) (n : BitVec 8), Granted s h 0x0901 2 ∧ row.toNat + n.toNat ≤ 256 ∧ 0 < n.toNat ∧
      n.toNat ≤ 64) ∧
    (∃ (r : Nat), 128 ≤ r ∧ r ≤ 159) ∧
    (∃ (s : State) (r : Nat) (d : _), (r < 128 ∨ 192 ≤ r) ∧ mapGet s.otp.overrides r = some d) ∧
    (∃ (s : State) (h : Hdr) (row : BitVec 16) (d : BitVec 64), Granted s h 0x0902 (rowOwner row.toNat d) ∧ (regionOf row.toNat =
      none ∨ regionOf row.toNat = some 2 ∨ regionOf row.toNat = some 3)) ∧
    (∃ (s : State) (h : Hdr) (row : BitVec 16) (d : BitVec 64) (k : _), Granted s h 0x0902 (rowOwner row.toNat d) ∧ regionOf
      row.toNat = some k ∧ k ≠ 2 ∧ k ≠ 3 ∧ (lockedRegion s k = true ∨ retireFlag s k = true)) ∧
    (∃ (s : State) (h : Hdr) (row : BitVec 16) (d : BitVec 64) (k : _), Granted s h 0x0902 (rowOwner row.toNat d) ∧ regionOf
      row.toNat = some k ∧ k ≠ 2 ∧ k ≠ 3 ∧ lockedRegion s k = false ∧ retireFlag s k = false) ∧
    (∃ (s : State) (h : Hdr) (rows : List (BitVec 16 × BitVec 64)), Granted s h 0x0903 (rows.foldl (fun (m : Nat) p => max m
      (rowOwner p.1.toNat p.2)) 2) ∧ 0 < rows.length ∧ rows.length ≤ 8 ∧ otpTime s = false) ∧
    (∃ (s : State) (h : Hdr) (rows : List (BitVec 16 × BitVec 64)) (k : _), Granted s h 0x0903 (rows.foldl (fun (m : Nat) p => max
      m (rowOwner p.1.toNat p.2)) 2) ∧ 0 < rows.length ∧ rows.length ≤ 8 ∧ otpTime s = true ∧ dieOutside s = some k) ∧
    (∃ (s : State) (h : Hdr) (rows : List (BitVec 16 × BitVec 64)) (p : _), Granted s h 0x0903 (rows.foldl (fun (m : Nat) p => max
      m (rowOwner p.1.toNat p.2)) 2) ∧ 0 < rows.length ∧ rows.length ≤ 8 ∧ otpTime s = true ∧ dieOutside s = none ∧ rows.find?
      (lockRefuses s) = some p) ∧
    (∃ (s : State) (h : Hdr) (rows : List (BitVec 16 × BitVec 64)), Granted s h 0x0903 (rows.foldl (fun (m : Nat) p => max m
      (rowOwner p.1.toNat p.2)) 2) ∧ (∀ p ∈ rows, lockRefuses s p = false ∧ reservedRow p.1.toNat = false ∧ (p.1 = 104 → flagBytes
      p.2 = true → revokeRefused s p.2 = false)) ∧ 0 < rows.length ∧ rows.length ≤ 8 ∧ otpTime s = true ∧ dieOutside s = none) ∧
    (∃ (s : State) (h : Hdr) (row : BitVec 16) (d : BitVec 64) (o : Role) (b : BurnSense) (r p : Nat), Calm s ∧ MemoryWf s ∧
      s.mbx.long = some (.otpBurn [(row, d)] o, h) ∧ r = row.toNat ∧ p = physRow s r ∧ r ≠ 104 ∧ b.tempOk = false ∧ burnable s r d
      = false) ∧
    (∃ (s : State) (h : Hdr) (row : BitVec 16) (d : BitVec 64) (o : Role) (b : BurnSense) (r p : Nat), Calm s ∧ MemoryWf s ∧
      s.mbx.long = some (.otpBurn [(row, d)] o, h) ∧ r = row.toNat ∧ p = physRow s r ∧ r ≠ 104 ∧ b.tempOk = false ∧ burnable s r d
      = true) ∧
    (∃ (s : State) (h : Hdr) (row : BitVec 16) (d : BitVec 64) (o : Role) (b : BurnSense) (r p : Nat), Calm s ∧ MemoryWf s ∧
      s.mbx.long = some (.otpBurn [(row, d)] o, h) ∧ r = row.toNat ∧ p = physRow s r ∧ r ≠ 104 ∧ b.tempOk = true ∧ burnable s r d =
      false) ∧
    (∃ (s : State) (h : Hdr) (row : BitVec 16) (d : BitVec 64) (o : Role) (b : BurnSense) (r p : Nat), Calm s ∧ MemoryWf s ∧
      s.mbx.long = some (.otpBurn [(row, d)] o, h) ∧ r = row.toNat ∧ p = physRow s r ∧ r ≠ 104 ∧ b.tempOk = true ∧ burnable s r d =
      true ∧ rowState s r ≠ .bad ∧ b.agrees = true) ∧
    (∃ (s : State) (h : Hdr) (row : BitVec 16) (d : BitVec 64) (o : Role) (b : BurnSense) (r p : Nat), Calm s ∧ MemoryWf s ∧
      s.mbx.long = some (.otpBurn [(row, d)] o, h) ∧ r = row.toNat ∧ p = physRow s r ∧ r ≠ 104 ∧ b.tempOk = true ∧ burnable s r d =
      true ∧ (rowState s r = .bad ∨ b.agrees = false)) ∧
    (∃ (s : State) (h : Hdr) (d : BitVec 64) (o : Role) (b : BurnSense), Calm s ∧ MemoryWf s ∧ s.mbx.long = some (.otpBurn [(104,
      d)] o, h) ∧ b.tempOk = true ∧ flagBytes d = true) ∧
    (∃ (s : State) (h : Hdr) (k : Fin 5), Granted s h 0x0904 (if k.val < 4 then 3 else 2) ∧ otpTime s = true ∧ dieOutside s = none) ∧
    (∃ (s : State) (h : Hdr), Granted s h 0x0904 3 ∧ otpTime s = true ∧ dieOutside s = none) ∧
    (∃ (s : State) (h : Hdr) (k : Fin 5) (retire : Bool), Calm s ∧ MemoryWf s ∧ s.mbx.long = some (.otpLock k.val retire, h)) :=
  ⟨⟨up, hd, 192, 64, granted_of (by decide +kernel), by decide +kernel⟩,
   ⟨159, by decide +kernel⟩,
   ⟨{ up with otp := { overrides := [(192, 1)] } }, 192, 1, by decide +kernel⟩,
   ⟨up, hd, 160, 0, granted_of (by decide +kernel), by decide +kernel⟩,
   ⟨{ up with otp := { fuse := [(240, 0xFF)] } }, hd, 0, 1, 0, granted_of (by decide +kernel), by decide +kernel⟩,
   ⟨up, hd, 0, 1, 0, granted_of (by decide +kernel), by decide +kernel⟩,
   ⟨runs, hd, [(64, 1)], granted_of (by decide +kernel), by decide +kernel⟩,
   ⟨{ up with th := { sensors := List.replicate 13 {} ++ [{ seen := true, t := 0x42AA0001 }] ++ List.replicate 7 {} } }, hd, [(64,
     1)], 0, granted_of (by decide +kernel), by decide +kernel⟩,
   ⟨{ up with otp := { fuse := [(240, 0xFF)] } }, hd, [(0, 1)], (0, 1), granted_of (by decide +kernel), by decide +kernel⟩,
   ⟨up, hd, [(64, 1)], granted_of (by decide +kernel), (fun p h => by rw [List.mem_singleton.mp h]; exact ⟨by decide +kernel,
     by decide +kernel, fun h => absurd h (by decide)⟩), by decide +kernel⟩,
   ⟨busy (.otpBurn [(255, 1)] .maker), hd, 255, 1, .maker, ⟨true, false, true, false⟩, _, _, calm_of (by decide +kernel),
     (by unfold MemoryWf; decide +kernel), rfl, rfl, rfl, by decide +kernel⟩,
   ⟨busy (.otpBurn [(64, 1)] .maker), hd, 64, 1, .maker, ⟨true, false, true, false⟩, _, _, calm_of (by decide +kernel),
     (by unfold MemoryWf; decide +kernel), rfl, rfl, rfl, by decide +kernel⟩,
   ⟨busy (.otpBurn [(255, 1)] .maker), hd, 255, 1, .maker, ⟨true, false, true, true⟩, _, _, calm_of (by decide +kernel),
     (by unfold MemoryWf; decide +kernel), rfl, rfl, rfl, by decide +kernel⟩,
   ⟨busy (.otpBurn [(64, 1)] .maker), hd, 64, 1, .maker, ⟨true, false, true, true⟩, _, _, calm_of (by decide +kernel),
     (by unfold MemoryWf; decide +kernel), rfl, rfl, rfl, by decide +kernel⟩,
   ⟨busy (.otpBurn [(64, 1)] .maker), hd, 64, 1, .maker, ⟨false, false, true, true⟩, _, _, calm_of (by decide +kernel),
     (by unfold MemoryWf; decide +kernel), rfl, rfl, rfl, by decide +kernel⟩,
   ⟨busy (.otpBurn [(104, 0xFF)] .maker), hd, 0xFF, .maker, ⟨true, false, true, true⟩, calm_of (by decide +kernel),
     (by unfold MemoryWf; decide +kernel), rfl, by decide +kernel⟩,
   ⟨up, hd, 4, granted_of (by decide +kernel), by decide +kernel⟩,
   ⟨up, hd, granted_of (by decide +kernel), by decide +kernel⟩,
   ⟨busy (.otpLock 4 true), hd, 4, true, calm_of (by decide +kernel), (by unfold MemoryWf; decide +kernel), rfl⟩⟩

/-- The hypotheses of FirmwareAndNetworkRequests can be met, clause by clause. -/
theorem test_FirmwareAndNetworkRequests_meets :
    (∃ (s : State) (h : Hdr) (n : Word) (st : Bool), Granted s h 0x0A01 2 ∧ 0 < n.toNat ∧ n.toNat ≤ 327680 ∧ st = (parD s
      Par.xspStage == 1 && flashLive s)) ∧
    (∃ (s : State) (h : Hdr) (off : Word) (bs : List (BitVec 8)), Granted s h 0x0A02 2 ∧ (s.boot.upload = none ∨ ∃ u, s.boot.upload
      = some u ∧ (u.size < off.toNat + bs.length ∨ (u.staged = true ∧ flashLive s = false))) ∧ 0 < bs.length ∧ bs.length ≤ 4080) ∧
    (∃ (s : State) (h : Hdr) (off : Word) (bs : List (BitVec 8)) (u : _), Granted s h 0x0A02 2 ∧ s.boot.upload = some u ∧ Rising
      (fwSlot s u.toB).bytes ∧ 0 < bs.length ∧ bs.length ≤ 4080 ∧ off.toNat + bs.length ≤ u.size ∧ u.staged = false) ∧
    (∃ (s : State) (h : Hdr) (off : Word) (bs : List (BitVec 8)) (u : _), Granted s h 0x0A02 2 ∧ s.boot.upload = some u ∧ Rising
      u.bytes ∧ MemoryWf s ∧ 0 < bs.length ∧ bs.length ≤ 4080 ∧ off.toNat + bs.length ≤ u.size ∧ u.staged = true ∧ flashLive s =
      true) ∧
    (∃ (s : State) (h : Hdr), Granted s h 0x0A03 2) ∧
    (∃ (s : State) (h : Hdr) (re b : Bool) (role : Nat) (u : FwUpload) (i : ImageFacts) (d : _), Calm s ∧ s.mbx.long = some
      (.fwInstall re role, h) ∧ s.boot.upload = some u ∧ b = u.toB ∧ (u.staged = true → flashLive s = true) ∧ installBad s role i =
      some d) ∧
    (∃ (s : State) (h : Hdr) (re b : Bool) (role : Nat) (u : FwUpload) (i : ImageFacts), Calm s ∧ s.mbx.long = some (.fwInstall re
      role, h) ∧ s.boot.upload = some u ∧ b = u.toB ∧ (u.staged = true → flashLive s = true) ∧ installBad s role i = none) ∧
    (∃ (s : State) (h : Hdr) (re : Bool) (role : Nat) (u : FwUpload), Calm s ∧ s.mbx.long = some (.fwInstall re role, h) ∧
      s.boot.upload = some u ∧ u.staged = true ∧ flashLive s = false) ∧
    (∃ (s : State) (h : Hdr), Asked s h 0x0A04) ∧
    (∃ (s : State) (h : Hdr), Granted s h 0x0A05 2) ∧
    (∃ (s : State) (h : Hdr) (r : Fin 4), Calm s ∧ s.mbx.long = some (.mramErase (BitVec.ofNat 8 r.val), h)) ∧
    (∃ (s : State) (h : Hdr), Granted s h 0x0A06 2) ∧
    (∃ (s : State) (n : Nat), s.pending = [] ∧ s.mbx.rebootAt = some n ∧ n ≤ s.clk.now ∧ anyRun s = false ∧ s.sum.pfCommit = false
      ∧ s.sum.wdogWait = false) ∧
    (∃ (s : State) (h : Hdr), Granted s h 0x0C01 1) ∧
    (∃ (s : State) (h : Hdr) (p y r : BitVec 8), Granted s h 0x0C02 1 ∧ p.toNat < 2 ∧ y.toNat < 32 ∧ r.toNat < 32) ∧
    (∃ (s : State) (h : Hdr) (p y r : BitVec 8), Granted s h 0x0C02 2 ∧ p.toNat < 2 ∧ y.toNat < 32 ∧ r.toNat < 32) ∧
    (∃ (s : State) (h : Hdr) (b : Bool) (p : Port), Granted s h 0x0C03 2 ∧ p = (if b then .rmii2 else .rmii1)) :=
  ⟨⟨up, hd, 327680, false, granted_of (by decide +kernel), by decide +kernel⟩,
   ⟨up, hd, 0, [1], granted_of (by decide +kernel), Or.inl rfl, by decide +kernel⟩,
   ⟨uploads { size := 4080, toB := true }, hd, 0, List.replicate 4080 0, { size := 4080, toB := true }, granted_of
     (by decide +kernel), rfl, (by unfold Rising; decide +kernel), by decide +kernel⟩,
   ⟨uploads { size := 16, toB := true, staged := true }, hd, 15, [1], { size := 16, toB := true, staged := true }, granted_of
     (by decide +kernel), rfl, (by unfold Rising; decide +kernel), (by unfold MemoryWf; decide +kernel), by decide +kernel⟩,
   ⟨up, hd, granted_of (by decide +kernel)⟩,
   ⟨installs { size := 1024, toB := true } [], hd, true, true, 2, { size := 1024, toB := true }, image, 3, calm_of
     (by decide +kernel), rfl, rfl, rfl, by decide +kernel⟩,
   ⟨installs { size := 1024, toB := true } signed, hd, true, true, 3, { size := 1024, toB := true }, image, calm_of
     (by decide +kernel), rfl, rfl, rfl, by decide +kernel⟩,
   ⟨{ (installs { size := 1024, toB := true, staged := true } signed) with xsp := { } }, hd, true, 3,
     { size := 1024, toB := true, staged := true }, calm_of (by decide +kernel), rfl, rfl, by decide +kernel⟩,
   ⟨up, hd, asked_of (by decide +kernel)⟩,
   ⟨up, hd, granted_of (by decide +kernel)⟩,
   ⟨busy (.mramErase 3), hd, 3, calm_of (by decide +kernel), rfl⟩,
   ⟨up, hd, granted_of (by decide +kernel)⟩,
   ⟨{ up with mbx := { up.mbx with rebootAt := some 400000000000 } }, 400000000000, by decide +kernel⟩,
   ⟨up, hd, granted_of (by decide +kernel)⟩,
   ⟨up, hd, 1, 31, 31, granted_of (by decide +kernel), by decide +kernel⟩,
   ⟨up, hd, 1, 31, 31, granted_of (by decide +kernel), by decide +kernel⟩,
   ⟨up, hd, true, .rmii2, granted_of (by decide +kernel), rfl⟩⟩

/-- The hypotheses of MessageCrc can be met, clause by clause. -/
theorem test_MessageCrc_meets :
    (∃ (m : Msg) (c : BitVec 16), c = crc16 ((msgBytes m).take 6 ++ m.payload)) ∧
    (∃ (s : State) (m : List Byte), Calm s ∧ Awake s ∧ s.boot.service = .none ∧ s.mbx.long = none ∧ BitVec.ofNat 16 (field m 6 2) ≠
      crc16 (m.take 6 ++ (m.drop 8).take (field m 4 2))) :=
  ⟨⟨⟨0x0104, 0, 0, []⟩, _, rfl⟩,
   ⟨up, [4, 1, 0, 0, 0, 0, 0, 0], calm_of (by decide +kernel), awake_of (by decide +kernel), by decide +kernel⟩⟩

/-! WellFormed refuses what a carrier cannot hold: one ill-formed term for each check, beside one at the limit. -/

theorem test_wellFormed_lists :
    WellFormed (.profileSample .a 0 [0, 0, 0, 0, 0]) = false ∧ WellFormed (.profileSample .a 0 [0, 0, 0, 0, 0, 0]) = true ∧
    WellFormed (.serialFrameEnd .a true (List.replicate 641 true) 0) = false ∧
    WellFormed (.serialFrameEnd .a true (List.replicate 640 true) 0) = true ∧
    WellFormed (.calConvDone (List.replicate 13 ⟨0, 0, 0, 0, 0⟩)) = false ∧
    WellFormed (.calConvDone (List.replicate 12 ⟨0, 0, 0, 0, 0⟩)) = true ∧
    WellFormed (.mramScrubTick 0 [(9, 0)]) = false ∧ WellFormed (.mramScrubTick 0 [(8, 0)]) = true := by decide +kernel

theorem test_wellFormed_requests :
    WellFormed (.parGet hd (List.replicate 2043 0)) = false ∧ WellFormed (.parGet hd (List.replicate 2042 0)) = true ∧
    WellFormed (.parSet hd (List.replicate 511 (0, 0))) = false ∧ WellFormed (.parSet hd (List.replicate 510 (0, 0))) = true ∧
    WellFormed (.declWrite hd 0 0 (List.replicate 4085 0)) = false ∧ WellFormed (.declWrite hd 0 0 (List.replicate 4084 0)) = true ∧
    WellFormed (.segStage hd 0 0 0 (List.replicate 511 0)) = false ∧ WellFormed (.segStage hd 0 0 0 (List.replicate 510 0)) = true ∧
    WellFormed (.segCommit hd 0 0 0 (List.replicate 511 (0, 0))) = false ∧
    WellFormed (.segCommit hd 0 0 0 (List.replicate 510 (0, 0))) = true ∧
    WellFormed (.cntRead hd (List.replicate 2043 0)) = false ∧ WellFormed (.cntRead hd (List.replicate 2042 0)) = true ∧
    WellFormed (.cntClear hd (List.replicate 2043 0)) = false ∧ WellFormed (.cntClear hd (List.replicate 2042 0)) = true ∧
    WellFormed (.otpBurn hd (List.replicate 256 (0, 0))) = false ∧ WellFormed (.otpBurn hd (List.replicate 255 (0, 0))) = true ∧
    WellFormed (.otpBurnDone (List.replicate 17 ⟨true, true, true, true⟩)) = false ∧
    WellFormed (.otpBurnDone (List.replicate 16 ⟨true, true, true, true⟩)) = true ∧
    WellFormed (.fwData hd 0 (List.replicate 4085 0)) = false ∧ WellFormed (.fwData hd 0 (List.replicate 4084 0)) = true := by
  decide +kernel

theorem test_wellFormed_frames :
    WellFormed (.ethFrameForward ⟨none, 0, 0, none, 2001, true, false, [], false⟩) = false ∧
    WellFormed (.ethFrameForward ⟨none, 0, 0, none, 2000, true, false, [], false⟩) = true ∧
    WellFormed (.tvReceiveSet ⟨{}, .rmii1, List.replicate 1501 0⟩ 0) = false ∧
    WellFormed (.tvReceiveSet ⟨{}, .rmii1, List.replicate 1500 0⟩ 0) = true ∧
    WellFormed (.tvMailboxRequest ⟨{}, .rmii1, List.replicate 1501 0⟩ 0 {} 0) = false ∧
    WellFormed (.tvMailboxRequest ⟨{}, .rmii1, List.replicate 1500 0⟩ 0 {} 0) = true ∧
    WellFormed (.canRpdo 0 (List.replicate 65 0) 0) = false ∧ WellFormed (.canRpdo 0 (List.replicate 64 0) 0) = true ∧
    WellFormed (.canSdo ⟨true, 0, 0, 5, 0⟩) = false ∧ WellFormed (.canSdo ⟨true, 0, 0, 4, 0⟩) = true ∧
    WellFormed (.canNmt .start 128) = false ∧ WellFormed (.canNmt .start 127) = true ∧
    WellFormed (.canHeartbeatReceive 128) = false ∧ WellFormed (.canHeartbeatReceive 127) = true := by
  decide +kernel

/-- 65,537 payload bytes are too many for a frame of the host wire. -/
theorem test_wellFormed_hspFrame :
    WellFormed (.hspFrame (frame 0 0 0 (List.replicate 65537 0))) = false ∧
    WellFormed (.hspFrame (frame 0 0 0 (List.replicate 65536 0))) = true := by
  refine ⟨?_, ?_⟩
  · show decide ((List.replicate 65537 (0 : Byte)).length ≤ 65536) = false
    rw [List.length_replicate]; rfl
  · show decide ((List.replicate 65536 (0 : Byte)).length ≤ 65536) = true
    rw [List.length_replicate]; rfl

/-! Single commands against the spec's worked examples. -/

/-- What the state after a command shows. -/
def shows (c : Instr) (s : State) (p : State → Bool) : Bool := match exec c s with | .next t => p t | _ => false

/-- 17, moving two thresholds in one request: OV2 = 85 V, OV1 = 82 V is PAR_RELATION on item 1; 86 V and 82 V are stored. -/
theorem test_parSet_relation :
    shows (.parSet hd [(0x0A01, 0x42AA0000), (0x0A00, 0x42A40000)]) up
      (fun t => decide (t.hsp.outbox = some ⟨0x8202, 9, 1, [0x15, 0, 1, 0]⟩) && t.par.isEmpty) = true ∧
    shows (.parSet hd [(0x0A01, 0x42AC0000), (0x0A00, 0x42A40000)]) up
      (fun t => decide (t.par = [(0x0A00, 0x42A40000), (0x0A01, 0x42AC0000)])) = true := by decide +kernel

/-- 05, the wrist axis: PWM_FREQ = 125 kHz gives H = 16,000 ticks, and the duty 0.62 the compare value 9,920. -/
theorem test_wrist_carrier :
    halfTicks 0x42FA0000 = 16000 ∧
    shows (.commitPoint .a true) (onA up (fun a => { a with
        pwm := { a.pwm with h := 16000, exts := [(16000, true)], crossed := some (List.replicate 6 0x3F1EB852) } }))
      (fun t => t.axes.a.legs.u1.cmp == 9920 && t.axes.a.legs.w2.cmp == 9920) = true := by decide +kernel

/-- 05 R91 and R92, H = 16,000: 4,000 ticks after a valley leg 1 counts 4,000 and leg 2 counts H − 4,000; at the peak
leg 1 counts 16,000 and leg 2 is at its valley. -/
theorem test_two_carriers :
    carrier1 { exts := [(16000, true), (0, false)] } 4000 = some 4000 ∧ carrier2 { exts := [(16000, true), (0, false)] } 4000 = some 12000 ∧
    carrier1 { exts := [(32000, false), (16000, true), (0, false)] } 16000 = some 16000 ∧
    carrier2 { exts := [(32000, false), (16000, true), (0, false)] } 16000 = some 0 := by decide +kernel

/-- 07, Table 7.11: the notch segment passes every check of a load at hook TQ_REF, and its words hold the ops named. -/
theorem test_notch_segment :
    userCheck 2 [0xB830804100800000, 0x4E010C2030000000, 0xFC00000000000000]
      [(0x010, 0x3F738A81), (0x011, 0xBFEE6329), (0x012, 0x3F738A81), (0x013, 0xBFEE6329), (0x014, 0x3F6714FC)] [] [] = none ∧
    (opOf 0xB830804100800000).opc = 0x2E ∧ (opOf 0xB830804100800000).d = 0x030 ∧ (opOf 0xB830804100800000).a = 0x201 ∧
    (opOf 0xB830804100800000).b = 0x010 ∧ (opOf 0xB830804100800000).c = 0x020 := by decide +kernel

/-- 16, Table 16.12, frames 1 and 5: the answer to a read of eight registers from 0x12, and the write that clears the bit,
rewrites the mask and releases the outbox. -/
theorem test_worked_exchange :
    shows (.hspFrame (frame 0x20 0x12 8 []))
      { up with hsp := { intStatus := 1, intMask := 1, outbox := some ⟨0x8104, 0, 0, List.replicate 16 0⟩ } }
      (fun t => decide (t.hsp.answer.map (·.bytes) = some [1, 0, 1, 0, 0, 0, 0x18, 0])) = true ∧
    shows (.hspFrame (frame 0x00 0x12 5 [1, 0, 1, 0, 2]))
      { up with hsp := { intStatus := 1, intMask := 1, outbox := some ⟨0x8104, 0, 0, List.replicate 16 0⟩ } }
      (fun t => t.hsp.intStatus == 0 && t.hsp.intMask == 1 && t.hsp.outbox.isNone) = true := by decide +kernel

/-- 11, the wrist axis: with 10,000 counts per revolution count 2 is the fraction 858,994, rounded up under R244. -/
theorem test_count_position : stepCount 10000 true (stepCount 10000 true 0) = 858994 := by decide +kernel

/-- 20, Table 20.9: row 193, which disagrees, goes to S0, named by row 248 = 0x0000_80C1_80C1_80C1. -/
theorem test_redirection :
    shows (.otpBurnDone [⟨false, false, true, true⟩]) (busy (.otpBurn [(193, 0x4C310723)] .installer))
      (fun t => fuseRow t 256 == 0x4C310723 && fuseRow t 248 == 0x80C180C180C1 &&
        decide (t.hsp.outbox = some ⟨0x8903, 9, 1, [0, 0, 0, 0, 2]⟩)) = true := by decide +kernel

/-- 03, plugging a gantry drive: power good comes at 47 V and the boot begins with source 1. -/
theorem test_gantry_plug :
    shows (.powerGood 48000 47000) (plug .ramp) (fun t => t.sum.buck && decide (t.pwr.boot = some 1) && decide (t.sum.hsw = .on)) = true ∧
    shows (.powerGood 48000 46999) (plug .ramp) (fun t => !t.sum.buck) = true := by decide +kernel

/-- 00: PAR 0x0612 on axis B is addressed as 0x8612. -/
theorem test_axis_address : parAddr .b 0x0612 = 0x8612 := by decide +kernel

/-- The table gives its rows no bits, so no word spells a command and nothing is placed. -/
theorem test_no_words (s : State) (n w : Nat) : decodeTableWord n w = none ∧ s.withFetchWord n w = s := ⟨rfl, rfl⟩

end Sys2Proof.Tests
end

section
/-!
SUPPORT. What no command changes of the parameter values a drive keeps, the working set and the banks: the parts of the model
that leave both as they are (00 R8; 17 R353 to R356).
-/

namespace Sys2Proof.Machine
open Sys2Proof
set_option Elab.async false

/-- The parameter values a drive keeps: the working set and the banks. -/
def stored (s : State) : List (Nat × Word) × List (Option ParBank) := (s.par, s.nv.banks)

@[simp] theorem stored_mk (clk sum pwr sto scarp axes conv ridge bus flt th cairn hsp mbx net can xsp nv otp boot par inForce pending) :
    stored (State.mk clk sum pwr sto scarp axes conv ridge bus flt th cairn hsp mbx net can xsp nv otp boot par inForce pending) = (par, nv.banks) := by rfl
@[simp] theorem stored_fields (s : State) : (s.par, s.nv.banks) = stored s := by rfl
@[simp] theorem stored_ite (c : Prop) [Decidable c] (a b : State) : stored (if c then a else b) = if c then stored a else stored b :=
  apply_ite stored c a b
@[simp] theorem stored_foldl {α : Type} {f : State → α → State} (hf : ∀ t a, stored (f t a) = stored t) (l : List α) (s : State) :
    stored (l.foldl f s) = stored s := foldl_keeps stored f hf l s
theorem stored_if {c : Prop} [Decidable c] {a b : State} {z} (ha : stored a = z) (hb : stored b = z) :
    stored (if c then a else b) = z := by split <;> assumption
theorem stored_audit (s : State) (n : Word) (l : List AuditEntry) : stored { s with nv.auditSeq := n, nv.audit := l } = stored s := rfl

@[simp] theorem onAx_stored (s : State) (x : Axis) (f : AxisSt → AxisSt) : stored (onAx s x f) = stored s := by rfl
@[simp] theorem onBoth_stored (s : State) (f : AxisSt → AxisSt) : stored (onBoth s f) = stored s := by rfl
@[simp] theorem onLeg_stored (s : State) (x : Axis) (l : Leg) (f : LegSt → LegSt) : stored (onLeg s x l f) = stored s := by rfl
@[simp] theorem onCv_stored (s : State) (cv : Nat) (f : Converter → Converter) : stored (onCv s cv f) = stored s := by rfl
@[simp] theorem onEng_stored (s : State) (e : Engine) (f : EngineSt → EngineSt) : stored (onEng s e f) = stored s := by
  unfold onEng; split <;> simp
@[simp] theorem bringIn_stored (s : State) (a : Nat) : stored (bringIn s a) = stored s := by rfl
@[simp] theorem bringInAx_stored (s : State) (x : Axis) (e : PEffect) : stored (bringInAx s x e) = stored s := by simp [bringInAx]
@[simp] theorem bringInDev_stored (s : State) (e : PEffect) : stored (bringInDev s e) = stored s := by simp [bringInDev]
@[simp] theorem freeWord_stored (s : State) : stored ((freeWord s).2) = stored s := by rfl
@[simp] theorem at_stored (s : State) (t : Nat) : stored (at_ s t) = stored s := by rfl
@[simp] theorem placeHost_stored (s : State) (m : Msg) : stored (placeHost s m) = stored s := by simp [placeHost]
@[simp] theorem sendMsg_stored (s : State) (tr : Transport) (m : Msg) : stored (sendMsg s tr m) = stored s := by
  unfold sendMsg; split <;> simp
@[simp] theorem postHost_stored (s : State) (m : Msg) : stored (postHost s m) = stored s := by simp [postHost]
@[simp] theorem postEvent_stored (s : State) (n : Nat) (op : BitVec 16) (payload : List Byte) :
    stored (postEvent s n op payload) = stored s := by
  simp only [postEvent]; (repeat' split) <;> simp
@[simp] theorem flushHeld_stored (s : State) : stored (flushHeld s) = stored s := by simp [flushHeld]
@[simp] theorem placeAhead_stored (s : State) (m : Msg) : stored (placeAhead s m) = stored s := by simp [placeAhead]
@[simp] theorem keepReply_stored (s : State) (op : BitVec 16) (h : Hdr) (m : Msg) : stored (keepReply s op h m) = stored s := by rfl
@[simp] theorem endLong_stored (s : State) (op : BitVec 16) (h : Hdr) (result detail : Nat) (data : List Byte) :
    stored (endLong s op h result detail data) = stored s := by
  unfold endLong; split <;> simp
@[simp] theorem logIt_stored (s : State) (e : LogEntry) : stored (logIt s e) = stored s := by rfl
@[simp] theorem logRaise_stored (s : State) (code : BitVec 16) (scope detail : BitVec 8) (value : F32) :
    stored (logRaise s code scope detail value) = stored s := by
  simp [logRaise]
@[simp] theorem enterList_stored (s : State) (code : BitVec 16) (scope detail : BitVec 8) (active : Bool) :
    stored (enterList s code scope detail active) = stored s := by
  unfold enterList; (repeat' split) <;> simp
@[simp] theorem faultEvent_stored (s : State) (code : BitVec 16) (scope detail : BitVec 8) (event : Nat) :
    stored (faultEvent s code scope detail event) = stored s := by
  simp [faultEvent]
@[simp] theorem canSend_stored (s : State) (id : Nat) (data : List Byte) : stored (canSend s id data) = stored s := by rfl
@[simp] theorem sendEmcy_stored (s : State) (code : BitVec 16) (scope detail : BitVec 8) :
    stored (sendEmcy s code scope detail) = stored s := by
  simp [sendEmcy]
@[simp] theorem pulseRaise_stored (s : State) (code : BitVec 16) (wasLow : Bool) :
    stored (pulseRaise s code wasLow) = stored s := by
  simp [pulseRaise]
@[simp] theorem record_stored (s : State) (code : BitVec 16) (scope detail : BitVec 8) (value : F32) (active : Bool) :
    stored (record s code scope detail value active) = stored s := by
  simp [record]
@[simp] theorem leaveList_stored (s : State) (e : FaultEntry) (event : Nat) : stored (leaveList s e event) = stored s := by simp [leaveList]
@[simp] theorem endCause_stored (s : State) (code : BitVec 16) (scope detail : BitVec 8) :
    stored (endCause s code scope detail) = stored s := by
  unfold endCause; split <;> simp
@[simp] theorem dropMotor_stored (s : State) (x : Axis) : stored (dropMotor s x) = stored s := by
  unfold dropMotor; split <;> simp
@[simp] theorem endMotor_stored (s : State) (x : Axis) : stored (endMotor s x) = stored s := by
  unfold endMotor; split <;> simp
@[simp] theorem abandonMotor_stored (s : State) (x : Axis) : stored (abandonMotor s x) = stored s := by simp [abandonMotor]
@[simp] theorem beginStop_stored (s : State) (x : Axis) (k : StopKind) : stored (beginStop s x k) = stored s := by
  simp only [beginStop]; split <;> simp
@[simp] theorem requestStop_stored (s : State) (x : Axis) (k : StopKind) : stored (requestStop s x k) = stored s := by simp [requestStop]
@[simp] theorem raise_stored (s : State) (code : BitVec 16) (scope detail : BitVec 8) (value : F32) (active : Bool) :
    stored (raise s code scope detail value active) = stored s := by
  simp [raise]
@[simp] theorem raise0_stored (s : State) (code : BitVec 16) (scope detail : BitVec 8) :
    stored (raise0 s code scope detail) = stored s := by
  simp [raise0]
@[simp] theorem raise1_stored (s : State) (code : BitVec 16) (scope detail : BitVec 8) :
    stored (raise1 s code scope detail) = stored s := by
  simp [raise1]
@[simp] theorem setChop_stored (p : ChopPhase) (s : State) : stored (setChop p s) = stored s := by rfl
@[simp] theorem latchSource_stored (s : State) (n : Nat) : stored (latchSource s n) = stored s := by simp [latchSource]
@[simp] theorem setRaw_stored (s : State) (n : Nat) (b : Bool) : stored (setRaw s n b) = stored s := by rfl
@[simp] theorem chopFault_stored (s : State) (cause : BitVec 8) : stored (chopFault s cause) = stored s := by simp [chopFault]
@[simp] theorem sourceCode_stored (s : State) (n : Nat) (d : BitVec 8) : stored (sourceCode s n d) = stored s := by simp [sourceCode]
@[simp] theorem scarpFire_stored (s : State) (n : Nat) (d : BitVec 8) : stored (scarpFire s n d) = stored s := by simp [scarpFire]
@[simp] theorem settleTrip_stored (s : State) : stored (settleTrip s) = stored s := by simp [settleTrip]
@[simp] theorem clearLatch_stored (s : State) (bits : Word) : stored (clearLatch s bits) = stored s := by simp [clearLatch]
@[simp] theorem leaveE1_stored (s : State) : stored (leaveE1 s) = stored s := by simp [leaveE1]
@[simp] theorem clearEntry_stored (seen : Bool) (s : State) (e : FaultEntry) :
    stored (clearEntry seen s e) = stored s := by
  simp [clearEntry]
@[simp] theorem clearRequest_stored (s : State) (scopes : List (BitVec 8)) (seen : Bool) :
    stored (clearRequest s scopes seen) = stored s := by
  simp [clearRequest]
@[simp] theorem relatch_stored (s : State) : stored (relatch s) = stored s := by simp [relatch]
@[simp] theorem setOutputs_stored (s : State) : stored (setOutputs s) = stored s := by rfl
@[simp] theorem setSafe_stored (s : State) : stored (setSafe s) = stored s := by simp [setSafe]
@[simp] theorem powerGates_stored (s : State) : stored (powerGates s) = stored s := by simp [powerGates]
@[simp] theorem unpowerGates_stored (s : State) : stored (unpowerGates s) = stored s := by rfl
@[simp] theorem nlLose_stored (s : State) (x : Axis) : stored (nlLose s x) = stored s := by simp [nlLose]
@[simp] theorem loseSync_stored (s : State) : stored (loseSync s) = stored s := by simp [loseSync]
@[simp] theorem netOff_stored (s : State) : stored (netOff s) = stored s := by rfl
@[simp] theorem netPower_stored (on : Bool) (s : State) : stored (netPower on s) = stored s := by simp [netPower]
@[simp] theorem canStart_stored (s : State) : stored (canStart s) = stored s := by rfl
@[simp] theorem canPower_stored (on : Bool) (s : State) : stored (canPower on s) = stored s := by simp [canPower]
@[simp] theorem cmpTestFail_stored (s : State) (n : Nat) : stored (cmpTestFail s n) = stored s := by simp [cmpTestFail]
@[simp] theorem cmpTestPass_stored (s : State) (n : Nat) : stored (cmpTestPass s n) = stored s := by simp [cmpTestPass]
@[simp] theorem cmpTested_stored (fails : Nat → Bool) (s : State) (n : Nat) : stored (cmpTested fails s n) = stored s := by simp [cmpTested]
@[simp] theorem chopTested_stored (s : State) (seen : Bool) : stored (chopTested s seen) = stored s := by simp [chopTested]
@[simp] theorem firstReady_stored (s : State) : stored (firstReady s) = stored s := by simp [firstReady]
@[simp] theorem writeTables_stored (tabs : List (Nat × Nat × Word × List Word)) (timers : Nat × Nat) (s : State) :
    stored (writeTables tabs timers s) = stored s := by
  unfold writeTables
  exact (stored_foldl (fun t k => onCv_stored t k _) _ _).trans rfl
@[simp] theorem loadTables_stored (s : State) (o : CairnOut) : stored (loadTables s o) = stored s := writeTables_stored _ _ _
@[simp] theorem holdTables_stored (s : State) : stored (holdTables s) = stored s := writeTables_stored _ _ _
@[simp] theorem startAxisTime_stored (s : State) (x : Axis) : stored (startAxisTime s x) = stored s := by
  unfold startAxisTime; split <;> simp
@[simp] theorem rewriteInit_stored (p : Placement) (s : State) : stored (rewriteInit p s) = stored s := by rfl
@[simp] theorem rewritePlace_stored (s : State) : stored (rewritePlace s) = stored s := by
  unfold rewritePlace; split <;> simp
@[simp] theorem enterReady_stored (s : State) : stored (enterReady s) = stored s := by simp [enterReady]
@[simp] theorem flashDone_stored (s : State) : stored (flashDone s) = stored s := by
  unfold flashDone; split <;> simp
@[simp] theorem programPage_stored (s : State) : stored (programPage s) = stored s := by
  unfold programPage; split <;> simp
@[simp] theorem enterHold_stored (s : State) : stored (enterHold s) = stored s := by simp [enterHold]
@[simp] theorem writeLog_stored (s : State) : stored (writeLog s) = stored s := by simp only [writeLog, stored]
@[simp] theorem commitState_stored (s : State) : stored (commitState s) = stored s := by simp [commitState]
@[simp] theorem failOther_stored (s : State) : stored (failOther s) = stored s := by simp [failOther]
@[simp] theorem cutLong_stored (s : State) : stored (cutLong s) = stored s := by
  unfold cutLong; (repeat' split) <;> simp
@[simp] theorem noteWake_stored (s : State) (bits : BitVec 8) : stored (noteWake s bits) = stored s := by rfl
@[simp] theorem endE2_stored (s : State) : stored (endE2 s) = stored s := by simp [endE2]
@[simp] theorem rebootLater_stored (s : State) : stored (rebootLater s) = stored s := by rfl
@[simp] theorem chopOn_stored (s : State) : stored (chopOn s) = stored s := by rfl
@[simp] theorem busSample_stored (s : State) : stored (busSample s) = stored s := by simp [busSample]
@[simp] theorem escalateAxis_stored (s : State) (x : Axis) : stored (escalateAxis s x) = stored s := by simp [escalateAxis]
@[simp] theorem crestFit_stored (s : State) (x : Axis) : stored (crestFit s x) = stored s := by simp [crestFit]
@[simp] theorem crestFlux_stored (s : State) (x : Axis) (u i : Vec) (pull : Bool) : stored (crestFlux s x u i pull) = stored s := by rfl
@[simp] theorem crestTrack_stored (s : State) (x : Axis) : stored (crestTrack s x) = stored s := by rfl
@[simp] theorem crestParams_stored (s : State) (x : Axis) : stored (crestParams s x) = stored s := by simp [crestParams]
@[simp] theorem crestPos_stored (before : F32) (s : State) (x : Axis) : stored (crestPos before s x) = stored s := by simp [crestPos]
@[simp] theorem crestXchk_stored (s : State) (x : Axis) (thSensor : F32) : stored (crestXchk s x thSensor) = stored s := by simp [crestXchk]
@[simp] theorem salLow_stored (s : State) (x : Axis) : stored (salLow s x) = stored s := by simp [salLow]
@[simp] theorem crestStep_stored (s : State) (x : Axis) (u i : Vec) (thSensor : F32) (track pull : Bool) :
    stored (crestStep s x u i thSensor track pull) = stored s := by
  simp [crestStep]
@[simp] theorem latchFeedback_stored (s : State) (x : Axis) (t : Nat) : stored (latchFeedback s x t) = stored s := by
  simp only [latchFeedback]; split <;> simp
@[simp] theorem runHook_stored (s : State) (x : Axis) (hook : Nat) (i : Iface) (held : F32) :
    stored ((runHook s x hook i held).2) = stored s := by
  simp only [runHook]; (repeat' split) <;> simp
@[simp] theorem positionPart_stored (s : State) (x : Axis) : stored (positionPart s x) = stored s := by simp [positionPart]
@[simp] theorem speedPart_stored (s : State) (x : Axis) : stored (speedPart s x) = stored s := by simp [speedPart]
@[simp] theorem meanLeg_stored (x : Axis) (s : State) (l : Leg) : stored (meanLeg x s l) = stored s := by
  unfold meanLeg; split <;> simp
@[simp] theorem sumImb_stored (s : State) (x : Axis) : stored (sumImb s x) = stored s := by simp [sumImb]
@[simp] theorem fieldWeaken_stored (s : State) (x : Axis) (ud uq : Rat) (limited : Bool) :
    stored (fieldWeaken s x ud uq limited) = stored s := by
  simp [fieldWeaken]
@[simp] theorem currentPart_stored (s0 : State) (x : Axis) (rf : Refs) (thSensor : F32) (now : Nat) :
    stored (currentPart s0 x rf thSensor now) = stored s0 := by
  simp [currentPart]
@[simp] theorem turnVector_stored (s : State) (x : Axis) : stored (turnVector s x) = stored s := by rfl
@[simp] theorem polarityFit_stored (s : State) (x : Axis) (e : Rat) : stored (polarityFit s x e) = stored s := by rfl
@[simp] theorem identLeave_stored (s : State) (x : Axis) : stored (identLeave s x) = stored s := by
  simp only [identLeave]; split <;> simp
@[simp] theorem identEnter_stored (s : State) (x : Axis) (n : IdentStep) : stored (identEnter s x n) = stored s := by
  unfold identEnter; split <;> simp
@[simp] theorem identMove_stored (s : State) (x : Axis) (t : Nat) : stored (identMove s x t) = stored s := by simp [identMove]
@[simp] theorem identSample_stored (s : State) (x : Axis) (t : Nat) : stored (identSample s x t) = stored s := by
  simp only [identSample]; (repeat' split) <;> simp
@[simp] theorem chainRefs_stored (s : State) (x : Axis) (mode : SeqMode) (t : Nat) : stored ((chainRefs s x mode t).1) = stored s := by
  simp only [chainRefs]; (repeat' split) <;> simp
@[simp] theorem alignStep_stored (before : F32) (s : State) (x : Axis) : stored (alignStep before s x) = stored s := by simp [alignStep]
@[simp] theorem runChain_stored (s : State) (x : Axis) (mode : SeqMode) (posDue spdDue curDue : Bool) (t : Nat) :
    stored (runChain s x mode posDue spdDue curDue t) = stored s := by
  simp [runChain]
@[simp] theorem enterMeasure_stored (s : State) (x : Axis) (path : StartPath) (retry : Nat) :
    stored (enterMeasure s x path retry) = stored s := by
  rfl
@[simp] theorem startConverged_stored (s : State) (x : Axis) : stored (startConverged s x) = stored s := by rfl
@[simp] theorem seedCatch_stored (s : State) (x : Axis) (t : Nat) : stored (seedCatch s x t) = stored s := by simp [seedCatch]
@[simp] theorem failAttempt_stored (s : State) (x : Axis) (reason : Nat) :
    stored (failAttempt s x reason) = stored s := by
  simp [failAttempt]
@[simp] theorem beginAlign_stored (s : State) (x : Axis) : stored (beginAlign s x) = stored s := by rfl
@[simp] theorem beginRead_stored (s : State) (x : Axis) : stored (beginRead s x) = stored s := by rfl
@[simp] theorem startFromRest_stored (s : State) (x : Axis) : stored (startFromRest s x) = stored s := by
  unfold startFromRest; split <;> simp
@[simp] theorem catchRotor_stored (s : State) (x : Axis) (th : F32) (we : Rat) (back : Bool) :
    stored (catchRotor s x th we back) = stored s := by
  rfl
@[simp] theorem turning_stored (s : State) (x : Axis) (th : F32) (we wm : Rat) :
    stored (turning s x th we wm) = stored s := by
  simp [turning]
@[simp] theorem measured_stored (s : State) (x : Axis) (m : Measurement) : stored (measured s x m) = stored s := by simp [measured]
@[simp] theorem measuredBySensor_stored (s : State) (x : Axis) : stored (measuredBySensor s x) = stored s := by simp [measuredBySensor]
@[simp] theorem evaluated_stored (s : State) (x : Axis) (m : List LandSample) : stored (evaluated s x m) = stored s := by simp [evaluated]
@[simp] theorem beginAttempt_stored (s : State) (x : Axis) (path : StartPath) (retry : Nat) :
    stored (beginAttempt s x path retry) = stored s := by
  simp [beginAttempt]
@[simp] theorem setBypass_stored (s : State) (x : Axis) (l : Leg) : stored (setBypass s x l) = stored s := by simp [setBypass]
@[simp] theorem imbPhase_stored (x : Axis) (s : State) (p : Nat × F32) : stored (imbPhase x s p) = stored s := by simp [imbPhase]
@[simp] theorem rateAxis_stored (s : State) (x : Axis) : stored (rateAxis s x) = stored s := by simp [rateAxis]
@[simp] theorem judgeBudget_stored (s : State) (warn : Bool) : stored (judgeBudget s warn) = stored s := by simp [judgeBudget]
@[simp] theorem armBank_stored (img : BankImage) (s : State) (e : Engine) : stored (armBank img s e) = stored s := by simp [armBank]
@[simp] theorem armAll_stored (s : State) (o : CairnOut) : stored (armAll s o) = stored s := by rfl
@[simp] theorem swapAxis_stored (e : Engine) (img : BankImage) (s : State) (x : Axis) : stored (swapAxis e img s x) = stored s := by rfl
@[simp] theorem swapEngine_stored (s : State) (e : Engine) : stored (swapEngine s e) = stored s := by simp [swapEngine]
@[simp] theorem bringPlacement_stored (s : State) (p : Placement) : stored (bringPlacement s p) = stored s := by rfl
@[simp] theorem activateAxis_stored (old : Option Placement) (p : Placement) (s : State) (x : Axis) :
    stored (activateAxis old p s x) = stored s := by
  unfold activateAxis; split <;> simp
@[simp] theorem placeLinks_stored (s : State) : stored (placeLinks s) = stored s := by simp [placeLinks]
@[simp] theorem activate_stored (s : State) (p : Placement) (detail : Option (BitVec 8)) : stored (activate s p detail) = stored s := by
  unfold activate; split <;> simp
@[simp] theorem replaced_stored (s : State) : stored (replaced s) = stored s := by
  unfold replaced; split <;> simp
@[simp] theorem finishSwap_stored (s : State) : stored (finishSwap s) = stored s := by
  unfold finishSwap; (repeat' split) <;> simp
@[simp] theorem bringBanks_stored (s : State) (rt : Bool) (p : Placement) : stored (bringBanks s rt p) = stored s := by simp [bringBanks]
@[simp] theorem loadBank_stored (s : State) (e : Engine) (img : BankImage) : stored (loadBank s e img) = stored s := by simp [loadBank]
@[simp] theorem toReady_stored (s : State) : stored (toReady s) = stored s := by
  unfold toReady; split <;> simp
@[simp] theorem beginHandover_stored (s : State) (x : Axis) : stored (beginHandover s x) = stored s := by
  unfold beginHandover; split <;> simp
@[simp] theorem startEngineTest_stored (s : State) (e : Engine) : stored (startEngineTest s e) = stored s := by
  unfold startEngineTest; (repeat' split) <;> simp
@[simp] theorem nextHandover_stored (s : State) : stored (nextHandover s) = stored s := by
  unfold nextHandover; (repeat' split) <;> simp
@[simp] theorem nlBoundary_stored (s : State) (x : Axis) (e : Int) : stored (nlBoundary s x e) = stored s := by
  simp only [nlBoundary]; split <;> simp
@[simp] theorem missCycle_stored (s : State) (x : Axis) : stored (missCycle s x) = stored s := by simp [missCycle]
@[simp] theorem applySetpoint_stored (s : State) (x : Axis) (p : Setpoint) (t : Nat) : stored (applySetpoint s x p t) = stored s := by rfl
@[simp] theorem applyCyclic_stored (x : Axis) (t : Nat) (s : State) (p : Setpoint) :
    stored (applyCyclic x t s p) = stored s := by
  simp [applyCyclic]
@[simp] theorem judgeCycle_stored (x : Axis) (s : State) (d : Nat) : stored (judgeCycle x s d) = stored s := by simp [judgeCycle]
@[simp] theorem cyclicSetpoints_stored (s : State) (x : Axis) (t : Nat) :
    stored (cyclicSetpoints s x t) = stored s := by
  simp [cyclicSetpoints]
@[simp] theorem switchMode_stored (s : State) (x : Axis) (m : BitVec 8) : stored (switchMode s x m) = stored s := by rfl
@[simp] theorem boundarySetpoints_stored (s : State) (x : Axis) (t : Nat) (spdDue : Bool) :
    stored (boundarySetpoints s x t spdDue) = stored s := by
  simp only [boundarySetpoints]; (repeat' split) <;> simp
@[simp] theorem movePosRef_stored (s : State) (x : Axis) (t : Nat) : stored (movePosRef s x t) = stored s := by simp [movePosRef]
@[simp] theorem onCia_stored (s : State) (x : Axis) (f : Cia402 → Cia402) : stored (onCia s x f) = stored s := by
  unfold onCia; split <;> simp
@[simp] theorem canWindow_stored (s : State) (x : Axis) (t : Nat) : stored (canWindow s x t) = stored s := by simp [canWindow]
@[simp] theorem canNext_stored (s : State) (x : Axis) : stored (canNext s x) = stored s := by simp [canNext]
@[simp] theorem canPlan_stored (s : State) (x : Axis) (goal : Int) : stored (canPlan s x goal) = stored s := by simp [canPlan]
@[simp] theorem canPosition_stored (s : State) (x : Axis) (t : Nat) : stored (canPosition s x t) = stored s := by
  simp only [canPosition]; (repeat' split) <;> simp
@[simp] theorem curveTick_stored (s : State) (x : Axis) : stored (curveTick s x) = stored s := by simp [curveTick]
@[simp] theorem ridgeStop_stored (s : State) (x : Axis) (code : BitVec 16) (detail : BitVec 8) (value : F32) :
    stored (ridgeStop s x code detail value) = stored s := by
  simp [ridgeStop]
@[simp] theorem overrun_stored (s : State) (x : Axis) : stored (overrun s x) = stored s := by simp [overrun]
@[simp] theorem boundaryGates_stored (s : State) (x : Axis) : stored (boundaryGates s x) = stored s := by
  simp only [boundaryGates]; (repeat' split) <;> simp
@[simp] theorem boundarySwap_stored (s : State) (x : Axis) : stored (boundarySwap s x) = stored s := by simp [boundarySwap]
@[simp] theorem writeInit_stored (s : State) (x : Axis) (e : Engine) : stored (writeInit s x e) = stored s := by simp [writeInit]
@[simp] theorem postOne_stored (e : Engine) (s : State) (p : BitVec 8 × Word) : stored (postOne e s p) = stored s := by simp [postOne]
@[simp] theorem readEvents_stored (s : State) (e : Engine) : stored (readEvents s e) = stored s := by simp [readEvents]
@[simp] theorem runImage_stored (s : State) (x : Axis) (e : Engine) (mode : SeqMode) (posDue spdDue : Bool) (t : Nat) :
    stored (runImage s x e mode posDue spdDue t) = stored s := by
  simp [runImage]
@[simp] theorem eccError_stored (s : State) (x : Axis) (e : Engine) (mode : SeqMode) (v : EccEvent) :
    stored (eccError s x e mode v) = stored s := by
  unfold eccError; split <;> simp
@[simp] theorem latchTransmit_stored (s : State) (x : Axis) (t : Nat) : stored (latchTransmit s x t) = stored s := by
  unfold latchTransmit; split <;> simp
@[simp] theorem boundaryStart_stored (s : State) (x : Axis) (t : Nat) : stored (boundaryStart s x t) = stored s := by simp [boundaryStart]
@[simp] theorem beginPeriod_stored (s : State) (x : Axis) : stored (beginPeriod s x) = stored s := by rfl
@[simp] theorem startAxis_stored (s : State) (x : Axis) : stored (startAxis s x) = stored s := by simp [startAxis]
@[simp] theorem enableRefused_stored (s : State) (x : Axis) (cause : Nat) :
    stored (enableRefused s x cause) = stored s := by
  simp [enableRefused]
@[simp] theorem tryEnable_stored (s : State) (x : Axis) : stored (tryEnable s x) = stored s := by
  unfold tryEnable; split <;> simp
@[simp] theorem curveOffNow_stored (s : State) (x : Axis) : stored (curveOffNow s x) = stored s := by simp [curveOffNow]
@[simp] theorem curveFaulted_stored (s : State) (x : Axis) : stored (curveFaulted s x) = stored s := by simp [curveFaulted]
@[simp] theorem curveInput_stored (s : State) (x : Axis) (v : F32) : stored (curveInput s x v) = stored s := by rfl
@[simp] theorem curveSource_stored (inp : Nat) (v : Option F32) (s : State) (x : Axis) : stored (curveSource inp v s x) = stored s := by
  unfold curveSource; (repeat' split) <;> simp
@[simp] theorem onSen_stored (s : State) (n : Nat) (f : SensorSt → SensorSt) : stored (onSen s n f) = stored s := by rfl
@[simp] theorem reIth_stored (s : State) : stored (reIth s) = stored s := by rfl
@[simp] theorem onLimit_stored (s : State) (n : Nat) : stored (onLimit s n) = stored s := by simp [onLimit]
@[simp] theorem enforce_stored (s : State) (n : Nat) : stored (enforce s n) = stored s := by simp [enforce]
@[simp] theorem offLimit_stored (s : State) (n : Nat) : stored (offLimit s n) = stored s := by simp [offLimit]
@[simp] theorem thermalTrip_stored (s : State) (n : Nat) (code : BitVec 16) :
    stored (thermalTrip s n code) = stored s := by
  simp [thermalTrip]
@[simp] theorem onStop_stored (s : State) (n : Nat) : stored (onStop s n) = stored s := by simp [onStop]
@[simp] theorem onTrip_stored (s : State) (n : Nat) : stored (onTrip s n) = stored s := by simp [onTrip]
@[simp] theorem senLevels_stored (s : State) (n : Nat) (v : F32) : stored (senLevels s n v) = stored s := by simp [senLevels]
@[simp] theorem checkWinding_stored (s : State) (x : Axis) : stored (checkWinding s x) = stored s := by
  unfold checkWinding; split <;> simp
@[simp] theorem rearmStep_stored (s : State) : stored (rearmStep s) = stored s := by simp [rearmStep]
@[simp] theorem sensorSample_stored (s : State) (n : Nat) (r : Option F32) : stored (sensorSample s n r) = stored s := by
  simp only [sensorSample, rearmStep_stored, stored_ite, checkWinding_stored, ite_self]
  split <;> simp
@[simp] theorem onExt_stored (s : State) (n : Nat) (f : ExtSt → ExtSt) : stored (onExt s n f) = stored s := by rfl
@[simp] theorem cvOut_stored (s : State) (cv : Nat) : stored (cvOut s cv) = stored s := by rfl
@[simp] theorem cvBack_stored (s : State) (cv : Nat) : stored (cvBack s cv) = stored s := by simp [cvBack]
@[simp] theorem calBegin_stored (s : State) (cv : Nat) : stored (calBegin s cv) = stored s := by simp [calBegin]
@[simp] theorem calTurn_stored (s : State) : stored (calTurn s) = stored s := by simp [calTurn]
@[simp] theorem urgentNow_stored (s : State) (cv : Nat) (chan : Fin 10) : stored (urgentNow s cv chan) = stored s := by rfl
@[simp] theorem onPlaus_stored (s : State) (k : Nat) (f : Plaus → Plaus) : stored (onPlaus s k f) = stored s := by rfl
@[simp] theorem plausible_stored (s : State) (cv k : Nat) (code : BitVec 16) (restart : Bool) :
    stored (plausible s cv k code restart) = stored s := by
  simp only [plausible]; (repeat' split) <;> simp
@[simp] theorem startBypass_stored (s : State) (x : Axis) (l : Leg) : stored (startBypass s x l) = stored s := by rfl
@[simp] theorem markSuspect_stored (s : State) (cv : Nat) : stored (markSuspect s cv) = stored s := by simp [markSuspect]
@[simp] theorem convSuspect_stored (s : State) (cv : Nat) : stored (convSuspect s cv) = stored s := by
  unfold convSuspect; rw [raise0_stored, raise0_stored, markSuspect_stored]
@[simp] theorem consume_stored (s0 : State) (cv k : Nat) (code : BitVec 16) (degC : F32) (bad nok : Bool) :
    stored (consume s0 cv k code degC bad nok) = stored s0 := by
  unfold consume
  have sensor (n : Nat) (r : Option F32) (s : State) (h : stored s = stored s0) : stored (sensorSample s n r) = stored s0 :=
    (sensorSample_stored s n r).trans h
  refine stored_if (busSample_stored _) <| stored_if (busSample_stored _) <| stored_if (sensor _ _ _ rfl) <|
    stored_if (sensor _ _ _ rfl) <| stored_if (sensor _ _ _ rfl) <| stored_if (sensor _ _ _ rfl) <|
    stored_if (sensor _ _ _ rfl) <| stored_if (stored_foldl (curveSource_stored _ _) _ _) ?_
  cases extOf k with
  | none => rfl
  | some n => exact stored_if (sensor _ _ _ rfl) rfl
@[simp] theorem winResult_stored (s : State) (n : Nat) (win : Bool) (code : BitVec 16) :
    stored (winResult s n win code) = stored s := by
  simp [winResult]
@[simp] theorem refSettle_stored (s : State) (x : Axis) (code : BitVec 16) (t : Nat) : stored (refSettle s x code t) = stored s := by
  simp only [refSettle]; (repeat' split) <;> simp
@[simp] theorem takeResult_stored (s : State) (cv : Nat) (chan : Fin 10) (code : BitVec 16) (degC : F32) (urgent : Bool) :
    stored (takeResult s cv chan code degC urgent) = stored s := by
  unfold takeResult
  extract_lets c k shared ow fl hold near word nok s1 drive s2 s3
  have h1 : stored s1 = stored s := stored_if (onCv_stored _ _ _) (onCv_stored _ _ _)
  have h2 : stored s2 = stored s := stored_if ((cvOut_stored _ _).trans h1) h1
  have h3 : stored s3 = stored s := by
    unfold s3
    cases extOf k with
    | none => exact h2
    | some n => exact (winResult_stored _ _ _ _).trans h2
  refine stored_if ((refSettle_stored _ _ _ _).trans h2) <| stored_if h2 <|
    stored_if (stored_if h2 ((plausible_stored _ _ _ _ _).trans h2)) ?_
  rw [plausible_stored, consume_stored, h3]
@[simp] theorem dropTested_stored (s : State) : stored (dropTested s) = stored s := by
  unfold dropTested
  refine stored_foldl (fun t cv => ?_) _ _
  split <;> simp
@[simp] theorem owConvert_stored (s : State) (n : Nat) : stored (owConvert s n) = stored s := by rfl
@[simp] theorem onSession_stored (s : State) (h : Hdr) (f : Session → Option Session) :
    stored (onSession s h f) = stored s := by
  simp [onSession]
@[simp] theorem reply_stored (s : State) (h : Hdr) (op : BitVec 16) (result detail : Nat) (data : List Byte) :
    stored (reply s h op result detail data) = stored s := by
  simp [reply]
@[simp] theorem remember_stored (s : State) (h : Hdr) (op : BitVec 16) (m : Msg) :
    stored (remember s h op m) = stored s := by
  simp [remember]
@[simp] theorem auditOne_stored (role : Nat) (s : State) (e : Nat × Nat × Word × Word) : stored (auditOne role s e) = stored s := stored_audit s _ _
@[simp] theorem auditAll_stored (s : State) (role : Nat) (es : List (Nat × Nat × Word × Word)) :
    stored (auditAll s role es) = stored s := by
  simp [auditAll]
@[simp] theorem onLock_stored (s : State) (r : Role) (l : RoleLock) : stored (onLock s r l) = stored s := by
  unfold onLock; split <;> simp
@[simp] theorem wrongResponse_stored (s : State) (r : Role) : stored (wrongResponse s r) = stored s := by
  simp only [wrongResponse]; split <;> simp
@[simp] theorem compileRejected_stored (s : State) (h : Hdr) (j : Judged) (reason index : Nat) :
    stored (compileRejected s h j reason index) = stored s := by
  simp [compileRejected]
@[simp] theorem storePlacement_stored (s : State) (fromStage : Bool) (decl : List Byte) (p : Placement) :
    stored (storePlacement s fromStage decl p) = stored s := by
  simp [storePlacement]
@[simp] theorem clearCounter_stored (s : State) (a : Nat) : stored (clearCounter s a) = stored s := by
  unfold clearCounter; split <;> simp
@[simp] theorem parHook_stored (s : State) (a : Nat) (old : Word) : stored (parHook s a old) = stored s := by
  unfold parHook; split <;> simp
@[simp] theorem cntZero_stored (s : State) (id : BitVec 16) : stored (cntZero s id) = stored s := by
  simp only [cntZero]; split <;> simp
@[simp] theorem discover_stored (s : State) (f : FlashFind) : stored (discover s f) = stored s := by
  unfold discover; (repeat' split) <;> simp
@[simp] theorem eraseBlock_stored (s : State) (a n : Nat) : stored (eraseBlock s a n) = stored s := by simp [eraseBlock]
@[simp] theorem flashFailure_stored (s : State) : stored (flashFailure s) = stored s := by simp [flashFailure]
@[simp] theorem tearFlash_stored (n a : Nat) (s : State) : stored (tearFlash n a s) = stored s := by
  induction n generalizing a s with
  | zero => rfl
  | succ n ih => exact ih _ _
@[simp] theorem setSlot_stored (s : State) (b : Bool) (f : FwSlot) : stored (setSlot s b f) = stored s := by simp [setSlot]
@[simp] theorem takeImage_stored (s : State) (u : FwUpload) (off : Nat) (bytes : List Byte) :
    stored (takeImage s u off bytes) = stored s := by
  unfold takeImage; split
  · exact tearFlash_stored _ _ s
  · exact setSlot_stored _ _ _
@[simp] theorem installed_stored (s : State) (role : Nat) (i : ImageFacts) (b : Bool) :
    stored (installed s role i b) = stored s := by
  simp [installed]
@[simp] theorem notInstalled_stored (s : State) (b : Bool) : stored (notInstalled s b) = stored s := by simp [notInstalled]
@[simp] theorem slotFailed_stored (s : State) (b : Bool) (d : Nat) : stored (slotFailed s b d) = stored s := by simp [slotFailed]
@[simp] theorem loseBlock_stored (s : State) (n k : Nat) : stored (loseBlock s n k) = stored s := by rfl
@[simp] theorem setSense_stored (s : State) (p : Nat) (st : RowState) : stored (setSense s p st) = stored s := by rfl
@[simp] theorem burnRow_stored (s : State) (p : Nat) (d : BitVec 64) : stored (burnRow s p d) = stored s := by rfl
@[simp] theorem partBurn_stored (s : State) (row : Nat) (d : BitVec 64) : stored (partBurn s row d) = stored s := by rfl
@[simp] theorem redirect_stored (s : State) (r : Nat) (d : BitVec 64) (b : BurnSense) : stored ((redirect s r d b).1) = stored s := by
  unfold redirect; (repeat' split) <;> simp
@[simp] theorem burnOne_stored (s : State) (r : Nat) (d : BitVec 64) (b : BurnSense) : stored ((burnOne s r d b).1) = stored s := by
  unfold burnOne; (repeat' split) <;> simp
@[simp] theorem burnAll_stored (role : Nat) (s : State) (l : List ((BitVec 16 × BitVec 64) × BurnSense)) (done : List Nat) :
    stored ((burnAll role s l done).1) = stored s := by
  fun_induction burnAll role s l done with
  | case1 => rfl
  | case2 s row d b l done hd ih => exact ih
  | case3 s row d b l done r hd ht ih => rw [ih]; simp
  | case4 s row d b l done r hd ht hb ih => exact ih
  | case5 s row d b l done r hd ht hb t ih => rw [ih]; simp [t]
@[simp] theorem burnFlag_stored (role : Nat) (s : State) (row k : Nat) : stored (burnFlag role s row k) = stored s := by simp [burnFlag]
@[simp] theorem senseFuses_stored (s : State) (rows : List (Nat × RowState)) : stored (senseFuses s rows) = stored s := by rfl
@[simp] theorem fuseCodes_stored (s : State) : stored (fuseCodes s) = stored s := by simp [fuseCodes]
@[simp] theorem bringAll_stored (s : State) : stored (bringAll s) = stored s := by
  unfold bringAll; exact stored_foldl (fun t e => by simp) _ _
@[simp] theorem loseLog_stored (s : State) (seqs : List Nat) : stored (loseLog s seqs) = stored s := by simp [loseLog]
@[simp] theorem cutBurn_stored (s : State) : stored (cutBurn s) = stored s := by
  unfold cutBurn; split <;> simp
@[simp] theorem cutLogged_stored (s : State) : stored (cutLogged s) = stored s := by
  unfold cutLogged; split <;> simp
@[simp] theorem restorePositions_stored (s : State) : stored (restorePositions s) = stored s := by rfl
@[simp] theorem logHeld_stored (s : State) : stored (logHeld s) = stored s := by simp [logHeld]
@[simp] theorem keptCodes_stored (s : State) : stored (keptCodes s) = stored s := by simp [keptCodes]
@[simp] theorem bootTests_stored (s : State) (b : BootFacts) : stored (bootTests s b) = stored s := by simp [bootTests]
@[simp] theorem runSlot_stored (s : State) (slot : Bool) (i : Option ImageFacts) : stored (runSlot s slot i) = stored s := by
  unfold runSlot; split <;> simp
@[simp] theorem chooseSlot_stored (s : State) (b : BootFacts) : stored ((chooseSlot s b).1) = stored s := by
  simp only [chooseSlot]; (repeat' split) <;> simp
@[simp] theorem toService_stored (s : State) (v : Service) : stored (toService s v) = stored s := by rfl
@[simp] theorem restorePlace_stored (s : State) (p : Placement) : stored (restorePlace s p) = stored s := by simp [restorePlace]
@[simp] theorem bootPlace_stored (s : State) (had : Bool) : stored (bootPlace s had) = stored s := by
  unfold bootPlace; split <;> simp
@[simp] theorem fbStop_stored (s : State) (x : Axis) (code : BitVec 16) : stored (fbStop s x code) = stored s := by simp [fbStop]
@[simp] theorem qualEdge_stored (s : State) (x : Axis) (rawUp : Bool) (stamp : Nat) : stored (qualEdge s x rawUp stamp) = stored s := by rfl
@[simp] theorem emulate_stored (s : State) (x : Axis) : stored (emulate s x) = stored s := by simp [emulate]
@[simp] theorem shiftPosition_stored (s : State) (x : Axis) (d : Int) : stored (shiftPosition s x d) = stored s := by simp [shiftPosition]
@[simp] theorem hallCheck_stored (s : State) (x : Axis) (e : Rat) : stored (hallCheck s x e) = stored s := by
  simp only [hallCheck]; split <;> simp
@[simp] theorem moveSample_stored (s : State) (x : Axis) (p : Int) (t : Nat) : stored (moveSample s x p t) = stored s := by rfl
@[simp] theorem takeSample_stored (s : State) (x : Axis) (p : Int) (t : Nat) : stored (takeSample s x p t) = stored s := by
  simp only [takeSample]; split <;> simp
@[simp] theorem clearScopes_stored (s : State) (scopes : List (BitVec 8)) (seen : Bool) :
    stored (clearScopes s scopes seen) = stored s := by
  simp [clearScopes]
@[simp] theorem legTested_stored (s : State) (pass : Bool) : stored (legTested s pass) = stored s := by rfl
@[simp] theorem giveSetpoint_stored (s : State) (x : Axis) (p : Setpoint) : stored (giveSetpoint s x p) = stored s := by rfl
@[simp] theorem calStart_stored (s : State) (m : BitVec 12) : stored (calStart s m) = stored s := by simp [calStart]
@[simp] theorem calEnd_stored (role : Nat) (s : State) (p : Nat × CalMeasure) : stored (calEnd role s p) = stored s := by simp [calEnd]
@[simp] theorem calBack_stored (s : State) (cv : Nat) : stored (calBack s cv) = stored s := by simp [calBack]
@[simp] theorem calOver_stored (s : State) : stored (calOver s) = stored s := by rfl
@[simp] theorem startIdent_stored (s : State) (x : Axis) : stored (startIdent s x) = stored s := by rfl
@[simp] theorem identFailed_stored (s : State) (x : Axis) (h : Hdr) (r : Nat) :
    stored (identFailed s x h r) = stored s := by
  simp [identFailed]
@[simp] theorem nlGain_stored (s : State) (x : Axis) : stored (nlGain s x) = stored s := by simp [nlGain]
@[simp] theorem gainSync_stored (s : State) (g : GptpState) : stored (gainSync s g) = stored s := by simp [gainSync]
@[simp] theorem seeHeartbeat_stored (s : State) (e : Engine) : stored (seeHeartbeat s e) = stored s := by simp [seeHeartbeat]
@[simp] theorem loseSupervisor_stored (s : State) (x : Axis) : stored (loseSupervisor s x) = stored s := by simp [loseSupervisor]
@[simp] theorem copyDue_stored (s : State) : stored (copyDue s) = stored s := by
  unfold copyDue; split <;> simp
@[simp] theorem replyRgTest_stored (s : State) (result : Nat) : stored (replyRgTest s result) = stored s := by
  unfold replyRgTest; split <;> simp
@[simp] theorem onStream_stored (s : State) (n : Nat) (f : StreamSt → StreamSt) : stored (onStream s n f) = stored s := by rfl
@[simp] theorem dropRecord_stored (s : State) (n : Nat) : stored (dropRecord s n) = stored s := by simp [dropRecord]
@[simp] theorem eraseAhead_stored (s : State) (q : StreamPlace) : stored (eraseAhead s q) = stored s := by simp [eraseAhead]
@[simp] theorem onPort_stored (s : State) (p : Port) (f : PortSt → PortSt) : stored (onPort s p f) = stored s := by
  unfold onPort; split <;> simp
@[simp] theorem readClear_stored (s : State) (a : Nat) (bs : List Byte) : stored (readClear s a bs) = stored s := by
  induction bs generalizing a s with
  | nil => rfl
  | cons b bs ih => rw [readClear, ih]; simp
@[simp] theorem mbxError_stored (s : State) (code : Byte) : stored (mbxError s code) = stored s := by rfl
@[simp] theorem noteFree_stored (s t : State) : stored (noteFree s t) = stored t := by simp [noteFree]
@[simp] theorem releaseOut_stored (s : State) : stored (releaseOut s) = stored s := by
  unfold releaseOut; (repeat' split) <;> simp
@[simp] theorem submitIn_stored (s : State) : stored (submitIn s) = stored s := by simp [submitIn]
@[simp] theorem mbxCtrl_stored (s : State) (b : Byte) : stored (mbxCtrl s b) = stored s := by simp [mbxCtrl]
@[simp] theorem setProf_stored (s : State) (n : Nat) (v : BitVec 16) : stored (setProf s n v) = stored s := by
  unfold setProf; (repeat' split) <;> simp
@[simp] theorem setMask_stored (s : State) (v : BitVec 16) : stored (setMask s v) = stored s := by simp [setMask]
@[simp] theorem writePair_stored (s : State) (a : Nat) (v : BitVec 16) : stored (writePair s a v) = stored s := by simp [writePair]
@[simp] theorem writeByte_stored (s : State) (a : Nat) (b : Byte) : stored (writeByte s a b) = stored s := by simp [writeByte]
@[simp] theorem writeRegs_stored (a : Nat) (s : State) (bs : List Byte) : stored (writeRegs a s bs) = stored s := by
  fun_induction writeRegs a s bs <;> simp [*]
@[simp] theorem writeFrame_stored (s : State) (f : HspFrame) : stored (writeFrame s f) = stored s := by simp [writeFrame]
@[simp] theorem frameError_stored (s : State) : stored (frameError s) = stored s := by rfl
@[simp] theorem acceptFrame_stored (s : State) (f : HspFrame) : stored (acceptFrame s f) = stored s := by
  unfold acceptFrame
  (repeat' split) <;> simp
@[simp] theorem learn_stored (s : State) (f : EthFrame) : stored (learn s f) = stored s := by
  unfold learn; split <;> simp
@[simp] theorem countPort_stored (s : State) (p : Port) : stored (countPort s p) = stored s := by
  unfold countPort; split <;> simp
@[simp] theorem putOut_stored (f : EthFrame) (s : State) (p : Port) : stored (putOut f s p) = stored s := by simp [putOut]
@[simp] theorem hostFrame_stored (s : State) (full : Bool) : stored (hostFrame s full) = stored s := by simp [hostFrame]
@[simp] theorem slaveDown_stored (s : State) (p : Port) : stored (slaveDown s p) = stored s := by simp [slaveDown]
@[simp] theorem pollPort_stored (s : State) (p : Port) (h : PhyStatus) : stored (pollPort s p h) = stored s := by simp [pollPort]
@[simp] theorem restartLists_stored (s : State) : stored (restartLists s) = stored s := by rfl
@[simp] theorem discardRx_stored (s : State) : stored (discardRx s) = stored s := by simp [discardRx]
@[simp] theorem kindWarn_stored (s : State) (x : Axis) : stored (kindWarn s x) = stored s := by simp [kindWarn]
@[simp] theorem giveCyclic_stored (s : State) (x : Axis) (base due : Nat) (p : Setpoint) :
    stored (giveCyclic s x base due p) = stored s := by
  rfl
@[simp] theorem takeBlock_stored (s : State) (x : Axis) (b : List Byte) (time : Nat) :
    stored (takeBlock s x b time) = stored s := by
  simp [takeBlock]
@[simp] theorem clearFrom_stored (s : State) (scopes : List (BitVec 8)) : stored (clearFrom s scopes) = stored s := by simp [clearFrom]
@[simp] theorem stopEdges_stored (s : State) (x : Axis) (old new : BitVec 16) :
    stored (stopEdges s x old new) = stored s := by
  simp [stopEdges]
@[simp] theorem blockEdges_stored (s : State) (x : Axis) (old new : BitVec 16) :
    stored (blockEdges s x old new) = stored s := by
  simp [blockEdges]
@[simp] theorem takeAxis_stored (b : List Byte) (n time : Nat) (old : Option (BitVec 16 × BitVec 16 × BitVec 16)) (s : State) (x : Axis) :
    stored (takeAxis b n time old s x) = stored s := by
  simp only [takeAxis]; (repeat' split) <;> simp
@[simp] theorem takeFrame_stored (s : State) (f : TvFrame) (n time : Nat) : stored (takeFrame s f n time) = stored s := by
  simp only [takeFrame]; split <;> simp
@[simp] theorem targetWritten_stored (s : State) (x : Axis) (i : Nat) (rpdo : Bool) :
    stored (targetWritten s x i rpdo) = stored s := by
  simp [targetWritten]
@[simp] theorem newTarget_stored (s : State) (x : Axis) (at_once : Bool) : stored (newTarget s x at_once) = stored s := by simp [newTarget]
@[simp] theorem ciaCommand_stored (s : State) (x : Axis) (old new : BitVec 16) : stored ((ciaCommand s x old new).1) = stored s := by
  simp only [ciaCommand]; (repeat' split) <;> simp
@[simp] theorem controlStops_stored (s : State) (x : Axis) (old new : BitVec 16) :
    stored (controlStops s x old new) = stored s := by
  simp [controlStops]
@[simp] theorem controlWritten_stored (s : State) (x : Axis) (new : BitVec 16) : stored ((controlWritten s x new).1) = stored s := by
  unfold controlWritten; split <;> simp
@[simp] theorem onPdo_stored (s : State) (rx : Bool) (n : Nat) (f : Pdo → Pdo) : stored (onPdo s rx n f) = stored s := by simp [onPdo]
@[simp] theorem syncAxis_stored (now : Nat) (s : State) (x : Axis) : stored (syncAxis now s x) = stored s := by simp [syncAxis]
@[simp] theorem syncTpdo_stored (s : State) (n : Nat) : stored (syncTpdo s n) = stored s := by simp [syncTpdo]
@[simp] theorem masterLost_stored (s : State) (x : Axis) : stored (masterLost s x) = stored s := by
  unfold masterLost; split <;> simp
@[simp] theorem mastersLost_stored (s : State) : stored (mastersLost s) = stored s := by simp [mastersLost]
@[simp] theorem nmtTo_stored (s : State) (n : Nmt) : stored (nmtTo s n) = stored s := by simp [nmtTo]
@[simp] theorem nmtStart_stored (s : State) : stored (nmtStart s) = stored s := by simp [nmtStart]
@[simp] theorem resetIgnored_stored (s : State) : stored (resetIgnored s) = stored s := by simp [resetIgnored]
@[simp] theorem cmpTrip_stored (s : State) (n : Nat) (stays : Bool) : stored (cmpTrip s n stays) = stored s := by simp [cmpTrip]
@[simp] theorem atTick_stored (s : State) (tick : Nat) : stored (atTick s tick) = stored s := by rfl
@[simp] theorem hold_stored (s : State) (code : BitVec 16) : stored (hold s code) = stored s := by rfl
@[simp] theorem attemptFail_stored (s : State) : stored (attemptFail s) = stored s := by simp [attemptFail]

end Sys2Proof.Machine
end

section
/-!
SUPPORT. Values in range (00 R8), and what a write of the working set keeps of them.
-/

namespace Sys2Proof.Machine
open Sys2Proof
set_option Elab.async false

/-! ### Values in range (00 R8) -/

/-- An address a table lets be written holds this value in its range (00 R8). -/
def Allowed (a : Nat) (v : Word) : Prop :=
  ∃ d, parDef (a % 0x8000) = some d ∧ d.kind = .writable ∧ valueOk d v = true
/-- The values kept, as `stored` reads them, are in range: `ParamsOk` of a state that keeps them. -/
def StoredOk (p : List (Nat × Word) × List (Option ParBank)) : Prop := Ranged p.1 ∧ ∀ b, some b ∈ p.2 → Ranged b.vals

theorem paramsOk_iff (s : State) : ParamsOk s ↔ StoredOk (stored s) := Iff.rfl
@[simp] theorem storedOk_ite (c : Prop) [Decidable c] (p q : List (Nat × Word) × List (Option ParBank)) :
    StoredOk (if c then p else q) ↔ (c → StoredOk p) ∧ (¬ c → StoredOk q) := by split <;> simp [*]

theorem mem_of_mapGet {α : Type} {m : List (Nat × α)} {a : Nat} {v : α} (h : mapGet m a = some v) : (a, v) ∈ m := by
  induction m with
  | nil => cases h
  | cons p m ih =>
    obtain ⟨k, w⟩ := p
    simp only [mapGet] at h
    split at h
    · next e => cases h; subst e; exact List.mem_cons_self
    · split at h
      · cases h
      · exact List.mem_cons_of_mem _ (ih h)

theorem Ranged.nil : Ranged [] := fun _ h => nomatch h
theorem Ranged.filter {m : List (Nat × Word)} (f : Nat × Word → Bool) (h : Ranged m) : Ranged (m.filter f) :=
  fun p hp => h p (List.mem_filter.mp hp).1
theorem Ranged.get {m : List (Nat × Word)} {a : Nat} {v : Word} (h : Ranged m) (hv : mapGet m a = some v) : Allowed a v :=
  h (a, v) (mem_of_mapGet hv)
/-- A value is put: one that is the default of its address leaves the list, any other has to be in range. -/
theorem Ranged.put {m : List (Nat × Word)} {a : Nat} {v : Word} (h : Ranged m) (hv : v ≠ parDefault a → Allowed a v) :
    Ranged (parPut m a v) := by
  unfold parPut mapWrite
  split
  · exact fun p hp => h p (Laws.mem_mapDel hp)
  · next n =>
    intro p hp
    rcases Laws.mem_mapPut hp with rfl | hp
    · exact hv n
    · exact h p hp

/-! ### Writing the working set -/

@[simp] theorem storePar_stored (s : State) (a : Nat) (v : Word) : stored (storePar s a v) = (parPut s.par a v, s.nv.banks) := by
  simp [storePar]
theorem storePar_ok {s : State} {a : Nat} {v : Word} (h : StoredOk (stored s)) (hv : v ≠ parDefault a → Allowed a v) :
    StoredOk (stored (storePar s a v)) := by
  rw [storePar_stored]
  exact ⟨Ranged.put h.1 hv, h.2⟩
/-- A fold of steps that each keep the values in range. -/
theorem foldl_ok {α : Type} {f : State → α → State} {l : List α} {s : State} (h : StoredOk (stored s))
    (hf : ∀ t, ∀ a ∈ l, StoredOk (stored t) → StoredOk (stored (f t a))) : StoredOk (stored (l.foldl f s)) := by
  induction l generalizing s with
  | nil => exact h
  | cons a l ih => exact ih (hf s a List.mem_cons_self h) (fun t b hb => hf t b (List.mem_cons_of_mem _ hb))

theorem loadSet_ok {s : State} {m : List (Nat × Word)} (h : StoredOk (stored s)) (hm : Ranged m) : StoredOk (stored (loadSet s m)) := by
  unfold loadSet
  refine foldl_ok h fun t a _ ht => storePar_ok ht fun hne => ?_
  cases hg : mapGet m a with
  | none => simp [hg] at hne
  | some v => exact hm.get hg

/-- An index with its axis bit and the address it names read the same row. -/
theorem parKnown_row {i : BitVec 16} {d : PDef} (h : parKnown i = some d) : parDef (i.toNat % 0x8000) = some d := by
  unfold parKnown at h
  split at h
  · cases h
  · next n =>
    have : i.toNat % 0x8000 = i.toNat % 0x1000 := by omega
    rwa [this]

/-- What Table 17.2 accepts of a write: a counter, or a value in the range of a writable parameter. -/
theorem itemResult_accepts {s : State} {m : List (Nat × Word)} {i : BitVec 16} {v : Word} (h : itemResult s m i v = 0) :
    ∃ d, parKnown i = some d ∧ (d.kind = .counter ∨ d.kind = .writable ∧ valueOk d v = true) := by
  unfold itemResult at h
  cases hd : parKnown i with
  | none => simp [hd] at h
  | some d =>
    refine ⟨d, rfl, ?_⟩
    cases hk : d.kind with
    | counter => exact .inl rfl
    | readOnly => simp [hd, hk] at h; split at h <;> simp at h
    | writable =>
      refine .inr ⟨rfl, ?_⟩
      cases hv : valueOk d v with
      | true => rfl
      | false => simp [hd, hk, hv] at h; (repeat' split at h) <;> simp at h

theorem parItems_accepts {s : State} {k : Nat} {m m' : List (Nat × Word)} {l : List (BitVec 16 × Word)}
    (h : parItems s k m l = (m', none)) : ∀ it ∈ l, ∃ n, itemResult s n it.1 it.2 = 0 := by
  induction l generalizing k m with
  | nil => simp
  | cons it l ih =>
    obtain ⟨i, v⟩ := it
    simp only [parItems] at h
    split at h
    · simp at h
    · next hr =>
      intro q hq
      rcases List.mem_cons.mp hq with rfl | hq
      · exact ⟨m, by simpa using hr⟩
      · exact ih h q hq

theorem applyItem_ok {s t : State} {m : List (Nat × Word)} {it : BitVec 16 × Word} (h : StoredOk (stored t))
    (hr : itemResult s m it.1 it.2 = 0) : StoredOk (stored (applyItem t it)) := by
  obtain ⟨d, hd, hk⟩ := itemResult_accepts hr
  unfold applyItem
  rcases hk with hk | ⟨hk, hv⟩
  · simp [hd, hk, h]
  · simp only [hd, hk, Option.any_some, reduceCtorEq, beq_iff_eq, ↓reduceIte]
    exact storePar_ok h fun _ => ⟨d, parKnown_row hd, hk, hv⟩
theorem applyItems_ok {s t : State} {m : List (Nat × Word)} {l : List (BitVec 16 × Word)} (h : StoredOk (stored t))
    (hr : parItems s 0 s.par l = (m, none)) : StoredOk (stored (l.foldl applyItem t)) :=
  foldl_ok h fun _ it hit hu => let ⟨_, hn⟩ := parItems_accepts hr it hit; applyItem_ok hu hn

end Sys2Proof.Machine
end

section
/-!
SUPPORT. Resets, MRAM losses and the boot keep the values in range (21 R426 to R432; 17 R355).
-/

namespace Sys2Proof.Machine
open Sys2Proof
set_option Elab.async false

/-! ### Resets -/

@[simp] theorem resetSys_ok {s : State} (h : StoredOk (stored s)) : StoredOk (stored (resetSys s)) := ⟨h.1.filter _, h.2⟩
@[simp] theorem startBoot_ok {s : State} (src : BitVec 8) (h : StoredOk (stored s)) : StoredOk (stored (startBoot s src)) := by
  simp [startBoot, h]
@[simp] theorem commandedReset_ok {s : State} (h : StoredOk (stored s)) : StoredOk (stored (commandedReset s)) := by
  simp [commandedReset, h]
@[simp] theorem waitingReset_ok {s : State} (h : StoredOk (stored s)) : StoredOk (stored (waitingReset s)) := by
  unfold waitingReset
  split
  · exact h
  · split
    · exact startBoot_ok 4 h
    · split
      · simp [h]
      · exact h
@[simp] theorem enterStandby_ok {s : State} (viaPf : Bool) (h : StoredOk (stored s)) : StoredOk (stored (enterStandby s viaPf)) := by
  simp [enterStandby, h]
@[simp] theorem powerFailSeq_ok {s : State} (b : Bool) (h : StoredOk (stored s)) : StoredOk (stored (powerFailSeq s b)) := by
  simp [powerFailSeq, h]
@[simp] theorem wake_ok {s : State} (bits : BitVec 8) (h : StoredOk (stored s)) : StoredOk (stored (wake s bits)) := by
  simp [wake, h]
@[simp] theorem wakeEvent_ok {s : State} (w : WakeSource) (h : StoredOk (stored s)) : StoredOk (stored (wakeEvent s w)) := by
  simp [wakeEvent, h]
@[simp] theorem breaker_ok {s : State} (h : StoredOk (stored s)) : StoredOk (stored (breaker s)) := by
  simp [breaker, h]
@[simp] theorem resetRelease_ok {s : State} (h : StoredOk (stored s)) : StoredOk (stored (resetRelease s)) := by
  simp [resetRelease, h]
@[simp] theorem buckStop_ok {s : State} (h : StoredOk (stored s)) : StoredOk (stored (buckStop s)) := by
  simp [buckStop, h]
@[simp] theorem settle_stored (z s : State) : stored (settle z s) = stored s := by
  simp [settle]
theorem idle_ok {s : State} (h : StoredOk (stored s)) : StoredOk (stored (idle s)) := by
  simp [idle, h]

/-! ### What MRAM loses (20 R427; 17 MRAM_ERASE) -/

@[simp] theorem eraseRegion_ok {s : State} (region : Nat) (h : StoredOk (stored s)) : StoredOk (stored (eraseRegion s region)) := by
  unfold eraseRegion
  split
  · exact h
  · split
    · exact ⟨h.1, by simp⟩
    · simp [h]
/-- A change of one bank that leaves it absent or in range. -/
theorem banks_modify {l : List (Option ParBank)} {f : Option ParBank → Option ParBank} (k : Nat)
    (h : ∀ b, some b ∈ l → Ranged b.vals) (hf : ∀ o ∈ l, ∀ b, f o = some b → Ranged b.vals) :
    ∀ b, some b ∈ l.modify k f → Ranged b.vals := by
  intro b hb
  obtain ⟨j, hj⟩ := List.mem_iff_getElem?.mp hb
  rw [List.getElem?_modify] at hj
  obtain ⟨o, ho, he⟩ := Option.map_eq_some_iff.mp hj
  have hm := List.mem_of_getElem? ho
  split at he
  · exact hf o hm b he
  · exact h b (he ▸ hm)
@[simp] theorem loseUnit_ok {s : State} (area k : Nat) (h : StoredOk (stored s)) : StoredOk (stored (loseUnit s area k)) := by
  unfold loseUnit
  split
  · exact ⟨h.1, banks_modify k h.2 (by simp)⟩
  all_goals simp [h]
@[simp] theorem unitLost_ok {s : State} (u : Nat × Nat) (h : StoredOk (stored s)) : StoredOk (stored (unitLost s u)) := by
  simp [unitLost, h]
theorem loseAtBoot_ok {s : State} (units : List (Nat × Nat)) (h : StoredOk (stored s)) : StoredOk (stored (loseAtBoot s units)) := by
  have hu := foldl_ok (l := units.filter fun u => decide (2 ≤ u.1) && decide (u.1 ≤ 8) && u.1 != 6) h fun t u _ => unitLost_ok u
  simp [loseAtBoot, hu]
theorem openErases_ok {s : State} (h : StoredOk (stored s)) : StoredOk (stored (openErases s)) := by
  refine foldl_ok h fun t r _ ht => ?_
  simp [ht]

/-! ### Boot (17 R355; 03 R60) -/

theorem withSummit_ranged {held m : List (Nat × Word)} (hh : Ranged held) (hm : Ranged m) : Ranged (withSummit held m) := by
  unfold withSummit
  have hl : ∀ p ∈ held.filter (fun p => summitHeld p.1), Allowed p.1 p.2 := hh.filter _
  generalize held.filter (fun p => summitHeld p.1) = l at hl
  have hq : Ranged (m.filter fun p => !summitHeld p.1) := hm.filter _
  generalize m.filter (fun p => !summitHeld p.1) = q at hq
  induction l generalizing q with
  | nil => exact hq
  | cons p l ih => exact ih (fun r hr => hl r (List.mem_cons_of_mem _ hr)) _ (hq.put fun _ => hl p List.mem_cons_self)
/-- The values of a bank are in range. -/
theorem parBank_ranged {s : State} {n : Nat} {b : ParBank} (h : StoredOk (stored s)) (hb : parBank s n = some b) : Ranged b.vals := by
  have : s.nv.banks[n]? = some (some b) := by simpa [parBank, Option.join_eq_some_iff] using hb
  exact h.2 b (List.mem_of_getElem? this)
theorem loadBoot_ok {s : State} (src : BitVec 8) (h : StoredOk (stored s)) : StoredOk (stored (loadBoot s src)) := by
  have load {vals : List (Nat × Word)} (hv : Ranged vals) :
      StoredOk (stored (loadSet s (if src = 1 then vals else withSummit s.par vals))) := by
    split
    · exact loadSet_ok h hv
    · exact loadSet_ok h (withSummit_ranged h.1 hv)
  simp only [loadBoot, stored_mk, stored_fields, bringAll_stored]
  cases hb : parBank s s.nv.bootBank with
  | none => exact load .nil
  | some b => exact load (parBank_ranged h hb)
theorem bootMram_ok {s : State} (src : BitVec 8) (b : BootFacts) (h : StoredOk (stored s)) : StoredOk (stored (bootMram s src b)) := by
  have h1 := loadBoot_ok src (loseAtBoot_ok b.lostUnits h)
  have h2 : StoredOk (stored (openErases (loseLog (cutLogged (logHeld (fuseCodes (loadBoot (loseAtBoot s b.lostUnits) src)))) b.logLost))) :=
    openErases_ok (by simpa using h1)
  simp [bootMram, h2]
@[simp] theorem bootTarget_ok {s : State} (src : BitVec 8) (h : StoredOk (stored s)) : StoredOk (stored (bootTarget s src)) := by
  simp [bootTarget, h]
@[simp] theorem bootThoevo_ok {s : State} (src : BitVec 8) (b : BootFacts) (had : Bool) (flash : FlashFind) (h : StoredOk (stored s)) :
    StoredOk (stored (bootThoevo s src b had flash)) := by
  simp [bootThoevo, h]

end Sys2Proof.Machine
end

section
/-!
SUPPORT. Outcomes, requests and writes over CAN keep the values in range (17 R346 to R350; 18 R389 to R393).
-/

namespace Sys2Proof.Machine
open Sys2Proof
set_option Elab.async false

/-! ### Outcomes of a command -/

/-- An outcome whose next state, if it has one, keeps its values in range. -/
def OutOk (o : Out) : Prop := ∀ t, o = .next t → StoredOk (stored t)
/-- An answer whose state keeps its values in range. -/
def AnsOk : Ans → Prop
  | .ok t _ | .fail t _ _ _ | .long t _ | .later t => StoredOk (stored t)
  | .no _ _ _ => True

@[simp] theorem ansOk_ok (t : State) (l : List Byte) : AnsOk (.ok t l) = StoredOk (stored t) := by rfl
@[simp] theorem ansOk_no (r d : Nat) (l : List Byte) : AnsOk (.no r d l) := trivial
@[simp] theorem ansOk_fail (t : State) (r d : Nat) (l : List Byte) : AnsOk (.fail t r d l) = StoredOk (stored t) := by rfl
@[simp] theorem ansOk_long (t : State) (op : LongOp) : AnsOk (.long t op) = StoredOk (stored t) := by rfl
@[simp] theorem ansOk_later (t : State) : AnsOk (.later t) = StoredOk (stored t) := by rfl
@[simp] theorem ansOk_ite (c : Prop) [Decidable c] (a b : Ans) : AnsOk (if c then a else b) ↔ (c → AnsOk a) ∧ (¬ c → AnsOk b) := by
  split <;> simp [*]
@[simp] theorem outOk_ite (c : Prop) [Decidable c] (a b : Out) : OutOk (if c then a else b) ↔ (c → OutOk a) ∧ (¬ c → OutOk b) := by
  split <;> simp [*]

@[simp] theorem skip_ok {s : State} (h : StoredOk (stored s)) : OutOk (skip s) := by
  rintro t ⟨⟩; exact h
@[simp] theorem done_ok {s t : State} (h : StoredOk (stored t)) : OutOk (done s t) := by
  rintro u ⟨⟩
  rw [settle_stored]
  exact waitingReset_ok (by simpa using h)
theorem when_ok {s t : State} {c : Bool} (h : StoredOk (stored s)) (ht : StoredOk (stored t)) : OutOk (when_ s c t) := by
  rw [when_eq]; split
  · exact done_ok ht
  · exact skip_ok h

/-! ### Requests (17 R346 to R350; 20 R425) -/

theorem conclude_ok {s : State} (h : Hdr) (op : BitVec 16) {a : Ans} (hs : StoredOk (stored s)) (ha : AnsOk a) :
    StoredOk (stored (conclude s h op a)) := by
  cases a with
  | ok t data =>
    rw [ansOk_ok] at ha
    simp only [conclude]
    split <;> simp [hs, ha]
  | no r d data => simpa [conclude] using hs
  | fail t r d data => simpa [conclude] using ha
  | long t op' => simpa [conclude] using ha
  | later t => simpa [conclude] using ha
theorem serve_ok {s : State} (h : Hdr) (op : BitVec 16) (n : Need) (bad : Option Nat) {run : Nat → Ans}
    (hs : StoredOk (stored s)) (hr : ∀ r, AnsOk (run r)) : StoredOk (stored (serve s h op n bad run)) := by
  unfold serve
  split
  · simpa using hs
  · split
    · simpa using hs
    · split
      · simpa using hs
      · split
        · simpa using hs
        · split
          · simpa using hs
          · exact conclude_ok h op hs (hr _)
theorem request_ok {s : State} {h : Hdr} {op : BitVec 16} {n : Need} {bad : Option Nat} {run : Nat → Ans}
    (hs : StoredOk (stored s)) (hr : ∀ r, AnsOk (run r)) : OutOk (request s h op n bad run) :=
  when_ok hs (serve_ok h op n bad hs hr)
/-- A change that is audited first runs on the state with its entries. -/
theorem audited_eq (s : State) (role : Nat) (es : List (Nat × Nat × Word × Word)) (k : State → Ans) :
    audited s role es k = k (auditAll s role es) ∨ audited s role es k = .no 0x31 0xFFFF [] := by
  unfold audited auditAll
  split
  · next hr =>
    rcases hr with hr | hr
    · exact .inl (by rw [if_pos hr])
    · exact .inl (by rw [List.isEmpty_iff.mp hr]; simp)
  · next hr =>
    split
    · exact .inr rfl
    · exact .inl (by rw [if_neg (fun h => hr (.inl h))])
@[simp] theorem audited_ok {s : State} {role : Nat} {es : List (Nat × Nat × Word × Word)} {k : State → Ans}
    (h : AnsOk (k (auditAll s role es))) : AnsOk (audited s role es k) := by
  rcases audited_eq s role es k with he | he <;> rw [he]
  · exact h
  · exact ansOk_no _ _ _
theorem replaceSet_ok {s : State} (role bank : Nat) (seq : Word) {m : List (Nat × Word)} (hs : StoredOk (stored s)) (hm : Ranged m) :
    AnsOk (replaceSet s role bank seq m) :=
  audited_ok (loadSet_ok (by simpa using hs) hm)
theorem powerMove_ok {s t : State} {n : Nat} (hs : StoredOk (stored s)) (ht : powerMove s n = some t) : StoredOk (stored t) := by
  unfold powerMove at ht
  (repeat' split at ht) <;> cases ht <;> simp [hs]

/-! ### Writes over CAN (18 R389 to R393) -/

/-- A write that, where it is accepted, keeps the values in range. -/
def WriteOk (w : Except Word State) : Prop := ∀ t, w = .ok t → StoredOk (stored t)
@[simp] theorem writeOk_ok (t : State) : WriteOk (.ok t) ↔ StoredOk (stored t) := by simp [WriteOk]
@[simp] theorem writeOk_error (e : Word) : WriteOk (.error e) := by simp [WriteOk]
@[simp] theorem writeOk_ite (c : Prop) [Decidable c] (a b : Except Word State) :
    WriteOk (if c then a else b) ↔ (c → WriteOk a) ∧ (¬ c → WriteOk b) := by split <;> simp [*]

@[simp] theorem canParWrite_ok {s : State} (k : BitVec 16) (v : Word) (hs : StoredOk (stored s)) : WriteOk (canParWrite s k v) := by
  unfold canParWrite
  split
  · simp
  · split
    · simp
    · next hn =>
      have hp : parItems s 0 s.par [(k, v)] = ((parItems s 0 s.par [(k, v)]).1, none) := Prod.ext rfl hn
      exact (writeOk_ok _).mpr (applyItems_ok (l := [(k, v)]) hs hp)
@[simp] theorem ciaSet_ok {s : State} (x : Axis) (i sub : Nat) (v : Word) (rpdo : Bool) (hs : StoredOk (stored s)) :
    WriteOk (ciaSet s x i sub v rpdo) := by
  unfold ciaSet
  extract_lets put acc
  have hput : ∀ f, WriteOk (put f) := fun f => by simp [put, hs]
  have hacc : ∀ p, WriteOk (acc p) := fun p => canParWrite_ok _ _ hs
  split
  · simp
  · split
    case h_1 =>
      have hw := controlWritten_stored s x (v.setWidth 16)
      split
      next t refused he => simp [show stored t = stored s by rwa [he] at hw, hs]
    case h_2 =>
      split
      · simp
      · next m _ =>
        have hm := canParWrite_ok (axisPar x Par.ctrlMode) m hs
        split
        · next t ht => rw [writeOk_ok, onCia_stored]; exact hm t ht
        · simp
    all_goals simp [hput, hacc, hs]
@[simp] theorem mapSet_ok {s : State} (rx : Bool) (n sub : Nat) (v : Word) (hs : StoredOk (stored s)) : WriteOk (mapSet s rx n sub v) := by
  simp [mapSet, hs]
@[simp] theorem commSet_ok {s : State} (i sub : Nat) (v : Word) (hs : StoredOk (stored s)) : WriteOk (commSet s i sub v) := by
  unfold commSet
  extract_lets n comm
  have hcomm : ∀ rx, WriteOk (comm rx) := fun rx => by simp [comm, hs]
  split <;> simp [hs, hcomm]
theorem canSet_ok {s : State} (i sub : Nat) (v : Word) (rpdo : Bool) (hs : StoredOk (stored s)) : WriteOk (canSet s i sub v rpdo) := by
  unfold canSet
  split
  · simp
  · split
    · exact canParWrite_ok _ _ hs
    · split
      · simp
      · split
        · exact ciaSet_ok _ _ _ _ _ hs
        · exact commSet_ok _ _ _ hs
@[simp] theorem sdoAnswer_ok {s : State} (r : SdoReq) (hs : StoredOk (stored s)) : StoredOk (stored (sdoAnswer s r).1) := by
  simp only [sdoAnswer]
  split
  · exact hs
  · split
    · exact hs
    · split
      · exact hs
      · split
        · exact hs
        · split
          · next ht => exact canSet_ok _ _ _ _ hs _ ht
          · exact hs
@[simp] theorem applyPdo_ok {s : State} (p : Pdo) (data : List Byte) (hs : StoredOk (stored s)) : StoredOk (stored (applyPdo s p data)) := by
  have one (t : State) (q : Nat × Nat × Word) (ht : StoredOk (stored t)) :
      StoredOk (stored (match canSet t q.1 q.2.1 q.2.2 true with | .ok u => u | .error _ => t)) := by
    split
    · next hu => exact canSet_ok _ _ _ _ ht _ hu
    · exact ht
  exact foldl_ok (foldl_ok hs fun t q _ => one t q) fun t q _ => one t q
theorem applyStored_ok {s : State} (n : Nat) (hs : StoredOk (stored s)) : StoredOk (stored (applyStored s n)) := by
  simp only [applyStored]
  split <;> simp [hs]

end Sys2Proof.Machine
end

section
/-!
SUPPORT. The values the drive writes itself lie in range (09 R217 to R219; 11 R260, R262; 03 R45).
-/

namespace Sys2Proof.Machine
open Sys2Proof
set_option Elab.async false

/-! ### Values the drive writes itself -/

theorem parAddr_index (x : Axis) {i : Nat} (hi : i < 0x8000) : parAddr x i % 0x8000 = i := by
  cases x <;> simp only [parAddr] <;> omega
/-- A row of a table that may be written. -/
def writableRow (i : Nat) : Bool := decide (i < 0x8000) && (parDef i).any (·.kind == .writable)
theorem allowed_of_inRange {x : Axis} {i : Nat} {v : Word} (hw : writableRow i = true) (h : inRange i v = true) :
    Allowed (parAddr x i) v := by
  simp only [writableRow, Bool.and_eq_true, decide_eq_true_eq, Option.any_eq_true, beq_iff_eq] at hw
  obtain ⟨hi, d, hd, hk⟩ := hw
  rw [inRange, hd] at h
  exact ⟨d, by rwa [parAddr_index x hi], hk, h⟩

/-- Identification writes motor parameters only (09 R217). -/
theorem identVals_writable {s : State} {x : Axis} {m : IdentMeasure} : ∀ p ∈ identVals s x m, writableRow p.1 = true := by
  have rows : ∀ i ∈ [Par.motRs, Par.motLd, Par.motLq, Par.motLs, Par.motM, Par.motPsi], writableRow i = true := by decide
  intro p hp
  refine rows p.1 ?_
  simp only [identVals, List.mem_append, List.mem_cons, List.not_mem_nil, or_false] at hp
  rcases hp with ((rfl | rfl | rfl) | hp) | hp
  · simp
  · simp
  · simp
  all_goals
    split at hp
    · simp only [List.mem_cons, List.not_mem_nil, or_false] at hp
      rcases hp with rfl | rfl <;> simp
    · cases hp
/-- What identification stores passed its range check (09 R219). -/
theorem identFail_none {s : State} {x : Axis} {m : IdentMeasure} (h : identFail s x m = none) :
    ∀ p ∈ identVals s x m, Allowed (parAddr x p.1) p.2 := by
  have hr : (identVals s x m).all (fun p => inRange p.1 p.2) = true := by
    cases hb : (identVals s x m).all (fun p => inRange p.1 p.2) with
    | true => rfl
    | false =>
      simp only [identFail, hb, Bool.not_false, ↓reduceIte] at h
      (repeat' split at h) <;> cases h
  exact fun p hp => allowed_of_inRange (identVals_writable p hp) (List.all_eq_true.mp hr p hp)
theorem keepMeasured_ok {s : State} (x : Axis) {p : Nat × F32} (h : StoredOk (stored s)) (hp : Allowed (parAddr x p.1) p.2) :
    StoredOk (stored (keepMeasured s x p)) := by
  have hs := storePar_ok h fun _ => hp
  refine ⟨hs.1, banks_modify _ hs.2 fun o ho b hb => ?_⟩
  obtain ⟨c, rfl, rfl⟩ := Option.map_eq_some_iff.mp hb
  exact (hs.2 c ho).put fun _ => hp
/-- A stored angle offset lies in its range (11 R262). -/
theorem deg360_inRange (q : Rat) : inRange Par.fbAngleOfs (deg360 q) = true ∧ inRange Par.fbHallOfs (deg360 q) = true := by
  have range (v : F32) (hv : (ffinite v && fle 0 v && flt v 0x43B40000) = true) :
      inRange Par.fbAngleOfs v = true ∧ inRange Par.fbHallOfs v = true := by
    have hf : ffinite v = true := by simp_all
    exact ⟨Bool.and_eq_true_iff.mpr ⟨by simp [hf], hv⟩, Bool.and_eq_true_iff.mpr ⟨by simp [hf], hv⟩⟩
  simp only [deg360]
  split
  · next hv => exact range _ hv
  · exact range 0 (by decide)
theorem fbOfs_allowed (x : Axis) (q : Rat) :
    Allowed (parAddr x Par.fbAngleOfs) (deg360 q) ∧ Allowed (parAddr x Par.fbHallOfs) (deg360 q) :=
  ⟨allowed_of_inRange (by decide) (deg360_inRange q).1, allowed_of_inRange (by decide) (deg360_inRange q).2⟩
/-- The enable bit of a compare unit's configuration clears in its range (11 R260). -/
theorem cmpCfg_off {m : List (Nat × Word)} (x : Axis) (u : CmpUnit) (h : Ranged m) :
    Ranged (parPut m (parAddr x (cmpPar u Par.cmpCfg0)) (((mapGet m (parAddr x (cmpPar u Par.cmpCfg0))).getD 0) &&& ~~~1)) := by
  refine h.put fun _ => ?_
  have hi : parAddr x (cmpPar u Par.cmpCfg0) % 0x8000 = cmpPar u Par.cmpCfg0 := parAddr_index x (by cases u <;> decide)
  have hrow : ∃ d, parDef (cmpPar u Par.cmpCfg0) = some d ∧ d.kind = .writable ∧ d.ty ≠ .f32 ∧ d.range = .mask 7 := by
    cases u <;> exact ⟨_, rfl, rfl, by decide, rfl⟩
  obtain ⟨d, hd, hk, ht, hr⟩ := hrow
  refine ⟨d, by rwa [hi], hk, ?_⟩
  cases hg : mapGet m (parAddr x (cmpPar u Par.cmpCfg0)) with
  | none => simp [valueOk, rangeOk, ht, hr]
  | some w =>
    obtain ⟨e, he, -, hw⟩ := h.get hg
    rw [hi, hd] at he
    cases he
    simp only [valueOk, rangeOk, hr, Bool.and_eq_true, beq_iff_eq] at hw
    have : w &&& ~~~1 &&& ~~~7 = 0 := by rw [BitVec.and_assoc, BitVec.and_comm (~~~1), ← BitVec.and_assoc, hw.2]; simp
    simp only [valueOk, rangeOk, hr, Option.getD_some, Bool.and_eq_true, beq_iff_eq]
    exact ⟨by simp [ht], this⟩
theorem hswPresent_off {m : List (Nat × Word)} (h : Ranged m) : Ranged (parPut m Par.hswPresent 0) :=
  h.put fun _ => ⟨_, rfl, rfl, rfl⟩
@[simp] theorem startCompile_ok {s : State} (chk : Bool) (flash : FlashFind) (h : StoredOk (stored s)) :
    AnsOk (startCompile s chk flash) := by
  simp [startCompile, h]

end Sys2Proof.Machine
end

section
/-!
SUPPORT. Every command keeps the values in range, command by command.
-/

namespace Sys2Proof.Machine
open Sys2Proof
set_option Elab.async false

@[simp] theorem execChopSeenTimeout_ok {s : State} (seen : Bool) (h : StoredOk (stored s)) :
    OutOk (execChopSeenTimeout seen s) :=
  when_ok h (by simp [h])
@[simp] theorem execChopRetryExpiry_ok {s : State} (h : StoredOk (stored s)) :
    OutOk (execChopRetryExpiry s) :=
  when_ok h (by simp [h])
@[simp] theorem execChopShortTimeout_ok {s : State} (h : StoredOk (stored s)) :
    OutOk (execChopShortTimeout s) :=
  when_ok h (by simp [h])
@[simp] theorem execBrakeLoadTick_ok {s : State} (h : StoredOk (stored s)) :
    OutOk (execBrakeLoadTick s) :=
  when_ok h (by simp [h])
@[simp] theorem execEscalationTimeout_ok {s : State} (h : StoredOk (stored s)) :
    OutOk (execEscalationTimeout s) :=
  when_ok h (by simp [h])
@[simp] theorem execE1LeaveTimeout_ok {s : State} (h : StoredOk (stored s)) :
    OutOk (execE1LeaveTimeout s) :=
  when_ok h (by simp [h])
@[simp] theorem execActiveShortEnd_ok {s : State} (x : Axis) (byTime : Bool) (h : StoredOk (stored s)) :
    OutOk (execActiveShortEnd x byTime s) :=
  when_ok h (by simp [h])
@[simp] theorem execFaultLogWrite_ok {s : State} (h : StoredOk (stored s)) :
    OutOk (execFaultLogWrite s) :=
  when_ok h (by simp [h])
@[simp] theorem execFaultNPulseExpiry_ok {s : State} (h : StoredOk (stored s)) :
    OutOk (execFaultNPulseExpiry s) :=
  when_ok h (by simp [h])
@[simp] theorem execFaultNBootPulseDelay_ok {s : State} (h : StoredOk (stored s)) :
    OutOk (execFaultNBootPulseDelay s) :=
  when_ok h (by simp [h])
@[simp] theorem execCrestLoss_ok {s : State} (x : Axis) (h : StoredOk (stored s)) :
    OutOk (execCrestLoss x s) :=
  when_ok h (by simp [h])
@[simp] theorem execCrestClampTimeout_ok {s : State} (x : Axis) (flux : Bool) (h : StoredOk (stored s)) :
    OutOk (execCrestClampTimeout x flux s) :=
  when_ok h (by simp [h])
@[simp] theorem execCrestXchkTimeout_ok {s : State} (x : Axis) (h : StoredOk (stored s)) :
    OutOk (execCrestXchkTimeout x s) :=
  when_ok h (by simp [h])
@[simp] theorem execBootRefreshPulse_ok {s : State} (x : Axis) (l : Leg) (h : StoredOk (stored s)) :
    OutOk (execBootRefreshPulse x l s) :=
  when_ok h (by simp [h])
@[simp] theorem execSwitchNodeEdge_ok {s : State} (x : Axis) (l : Leg) (rising soft : Bool) (tick sinceGateOff : Nat) (h : StoredOk (stored s)) :
    OutOk (execSwitchNodeEdge x l rising soft tick sinceGateOff s) :=
  when_ok h (by simp [h])
@[simp] theorem execEdgeMissing_ok {s : State} (x : Axis) (l : Leg) (rising : Bool) (commanded : Nat) (h : StoredOk (stored s)) :
    OutOk (execEdgeMissing x l rising commanded s) :=
  when_ok h (by simp [h])
@[simp] theorem execLegAutoBypass_ok {s : State} (x : Axis) (pulseMa : Nat) (h : StoredOk (stored s)) :
    OutOk (execLegAutoBypass x pulseMa s) := by
  unfold execLegAutoBypass; (repeat' split) <;> simp [h]
@[simp] theorem execLegBypassRampEnd_ok {s : State} (x : Axis) (h : StoredOk (stored s)) :
    OutOk (execLegBypassRampEnd x s) := by
  unfold execLegBypassRampEnd; (repeat' split) <;> simp [h]
@[simp] theorem execLegImbBlockEnd_ok {s : State} (x : Axis) (h : StoredOk (stored s)) :
    OutOk (execLegImbBlockEnd x s) :=
  when_ok h (by simp [h])
@[simp] theorem execRatingUpdateTick_ok {s : State} (h : StoredOk (stored s)) :
    OutOk (execRatingUpdateTick s) :=
  when_ok h (by simp [h])
@[simp] theorem execPeriodBoundary_ok {s : State} (x : Axis) (sense : BoundarySense) (h : StoredOk (stored s)) :
    OutOk (execPeriodBoundary x sense s) := by
  unfold execPeriodBoundary
  extract_lets s1 t s2 s3 s4 s5 s6 q spdDue posDue s7 s8 s8' mode first s9 sA
  have hA : stored sA = stored s := by simp [sA, s9, s8', s8, s7, s6, s5, s4, s3, s2, s1]
  split
  · exact skip_ok h
  · exact when_ok h (by simp [hA, h])
@[simp] theorem execChainEnd_ok {s : State} (x : Axis) (cycles : Nat) (h : StoredOk (stored s)) :
    OutOk (execChainEnd x cycles s) := by
  unfold execChainEnd; (repeat' split) <;> simp [h]
@[simp] theorem execCommitPoint_ok {s : State} (x : Axis) (peak : Bool) (h : StoredOk (stored s)) :
    OutOk (execCommitPoint x peak s) :=
  when_ok h (by simp [h])
@[simp] theorem execSpMbxTimeout_ok {s : State} (x : Axis) (h : StoredOk (stored s)) :
    OutOk (execSpMbxTimeout x s) :=
  when_ok h (by simp [h])
@[simp] theorem execFwExhaustedTimeout_ok {s : State} (x : Axis) (h : StoredOk (stored s)) :
    OutOk (execFwExhaustedTimeout x s) := by
  simp [execFwExhaustedTimeout, h]
@[simp] theorem execOverspeedTimeout_ok {s : State} (x : Axis) (h : StoredOk (stored s)) :
    OutOk (execOverspeedTimeout x s) :=
  when_ok h (by simp [h])
@[simp] theorem execMeasureEnd_ok {s : State} (x : Axis) (m : List LandSample) (h : StoredOk (stored s)) :
    OutOk (execMeasureEnd x m s) :=
  when_ok h (by simp [h])
@[simp] theorem execBlockedWaitRepeat_ok {s : State} (x : Axis) (m : List LandSample) (h : StoredOk (stored s)) :
    OutOk (execBlockedWaitRepeat x m s) :=
  when_ok h (by simp [h])
@[simp] theorem execFsCatchTimeout_ok {s : State} (x : Axis) (h : StoredOk (stored s)) :
    OutOk (execFsCatchTimeout x s) :=
  when_ok h (by simp [h])
@[simp] theorem execRestReadEnd_ok {s : State} (x : Axis) (h : StoredOk (stored s)) :
    OutOk (execRestReadEnd x s) :=
  when_ok h (by simp [h])
@[simp] theorem execPolarityTestEnd_ok {s : State} (x : Axis) (h : StoredOk (stored s)) :
    OutOk (execPolarityTestEnd x s) :=
  when_ok h (by simp [h])
@[simp] theorem execCrestConverged_ok {s : State} (x : Axis) (h : StoredOk (stored s)) :
    OutOk (execCrestConverged x s) :=
  when_ok h (by simp [h])
@[simp] theorem execStTimeout_ok {s : State} (x : Axis) (h : StoredOk (stored s)) :
    OutOk (execStTimeout x s) :=
  when_ok h (by simp [h])
@[simp] theorem execStRetryDelayExpiry_ok {s : State} (x : Axis) (h : StoredOk (stored s)) :
    OutOk (execStRetryDelayExpiry x s) :=
  when_ok h (by simp [h])
@[simp] theorem execAlignRiseEnd_ok {s : State} (x : Axis) (h : StoredOk (stored s)) :
    OutOk (execAlignRiseEnd x s) :=
  when_ok h (by simp [h])
@[simp] theorem execAlignPhase2_ok {s : State} (x : Axis) (h : StoredOk (stored s)) :
    OutOk (execAlignPhase2 x s) :=
  when_ok h (by simp [h])
@[simp] theorem execAlignEnd_ok {s : State} (x : Axis) (h : StoredOk (stored s)) :
    OutOk (execAlignEnd x s) :=
  when_ok h (by simp [h])
@[simp] theorem execStartIdleTimeout_ok {s : State} (x : Axis) (h : StoredOk (stored s)) :
    OutOk (execStartIdleTimeout x s) :=
  when_ok h (by simp [h])
@[simp] theorem execRampHandoff_ok {s : State} (x : Axis) (h : StoredOk (stored s)) :
    OutOk (execRampHandoff x s) :=
  when_ok h (by simp [h])
@[simp] theorem execMergeEnd_ok {s : State} (x : Axis) (h : StoredOk (stored s)) :
    OutOk (execMergeEnd x s) :=
  when_ok h (by simp [h])
@[simp] theorem execRampStall_ok {s : State} (x : Axis) (h : StoredOk (stored s)) :
    OutOk (execRampStall x s) :=
  when_ok h (by simp [h])
@[simp] theorem execStandstillReached_ok {s : State} (x : Axis) (h : StoredOk (stored s)) :
    OutOk (execStandstillReached x s) :=
  when_ok h (by simp [h])
@[simp] theorem execStopTmaxExpiry_ok {s : State} (x : Axis) (h : StoredOk (stored s)) :
    OutOk (execStopTmaxExpiry x s) :=
  when_ok h (by simp [h])
@[simp] theorem execStallTimeout_ok {s : State} (x : Axis) (h : StoredOk (stored s)) :
    OutOk (execStallTimeout x s) :=
  when_ok h (by simp [h])
@[simp] theorem execPwmCmdPeriod_ok {s : State} (periodNs highNs : Nat) (h : StoredOk (stored s)) :
    OutOk (execPwmCmdPeriod periodNs highNs s) :=
  when_ok h (by simp [h])
@[simp] theorem execPwmCmdTimeout_ok {s : State} (h : StoredOk (stored s)) :
    OutOk (execPwmCmdTimeout s) :=
  done_ok (by simp [h])
@[simp] theorem execCurveFilterValid_ok {s : State} (x : Axis) (h : StoredOk (stored s)) :
    OutOk (execCurveFilterValid x s) :=
  when_ok h (by simp [h])
@[simp] theorem execCurveCrossing_ok {s : State} (x : Axis) (value : F32) (h : StoredOk (stored s)) :
    OutOk (execCurveCrossing x value s) :=
  when_ok h (by simp [h])
@[simp] theorem execThGraceExpiry_ok {s : State} (sensor : Fin 21) (h : StoredOk (stored s)) :
    OutOk (execThGraceExpiry sensor s) :=
  when_ok h (by simp [h])
@[simp] theorem execThermalDerateTick_ok {s : State} (h : StoredOk (stored s)) :
    OutOk (execThermalDerateTick s) :=
  when_ok h (by simp [h])
@[simp] theorem execCaseEstimateTick_ok {s : State} (h : StoredOk (stored s)) :
    OutOk (execCaseEstimateTick s) :=
  when_ok h (by simp [h])
@[simp] theorem execTableTrigger_ok {s : State} (cv : Fin 12) (tbl : Fin 4) (h : StoredOk (stored s)) :
    OutOk (execTableTrigger cv tbl s) := by
  unfold execTableTrigger; (repeat' split) <;> simp [h]
@[simp] theorem execUrgentRequest_ok {s : State} (cv : Fin 12) (chan : Fin 10) (h : StoredOk (stored s)) :
    OutOk (execUrgentRequest cv chan s) :=
  when_ok h (by simp [h])
@[simp] theorem execProfileSample_ok {s : State} (x : Axis) (i : Fin 16) (codes : List (BitVec 16)) (h : StoredOk (stored s)) :
    OutOk (execProfileSample x i codes s) :=
  when_ok h (by simp [h])
@[simp] theorem execArbitrationDecision_ok {s : State} (pair : Fin 6) (chan : Fin 9) (lowK highK : BitVec 16) (lowP highP : BitVec 16) (h : StoredOk (stored s)) :
    OutOk (execArbitrationDecision pair chan lowK highK lowP highP s) :=
  when_ok h (by simp [h])
@[simp] theorem execConversionResult_ok {s0 : State} (cv : Fin 12) (chan : Fin 10) (code : BitVec 16) (degC : F32) (t : Nat) (h : StoredOk (stored s0)) :
    OutOk (execConversionResult cv chan code degC t s0) :=
  when_ok h (by simp [h])
@[simp] theorem execVmXchkTimeout_ok {s : State} (vmAMv vmBMv : Nat) (h : StoredOk (stored s)) :
    OutOk (execVmXchkTimeout vmAMv vmBMv s) :=
  when_ok h (by simp [h])
@[simp] theorem execRefOkTimeout_ok {s : State} (x : Axis) (h : StoredOk (stored s)) :
    OutOk (execRefOkTimeout x s) :=
  when_ok h (by simp [h])
@[simp] theorem execOpenWireTestStart_ok {s : State} (h : StoredOk (stored s)) :
    OutOk (execOpenWireTestStart s) := by
  unfold execOpenWireTestStart
  extract_lets l n
  split
  · exact skip_ok h
  · exact when_ok h (by simp [h])
@[simp] theorem execOpenWireSettleExpiry_ok {s : State} (mv : Int) (h : StoredOk (stored s)) :
    OutOk (execOpenWireSettleExpiry mv s) := by
  unfold execOpenWireSettleExpiry; (repeat' split) <;> simp [h]
@[simp] theorem execSessionOpen_ok {s : State} (hdr : Hdr) (role : BitVec 8) (h : StoredOk (stored s)) :
    OutOk (execSessionOpen hdr role s) :=
  request_ok h fun _ => by (repeat' split) <;> simp [h]
@[simp] theorem execSessionAuth_ok {s : State} (hdr : Hdr) (response : BitVec 256) (h : StoredOk (stored s)) :
    OutOk (execSessionAuth hdr response s) :=
  request_ok h fun _ => by split <;> simp [h]
@[simp] theorem execSessionClose_ok {s : State} (hdr : Hdr) (h : StoredOk (stored s)) :
    OutOk (execSessionClose hdr s) :=
  request_ok h fun _ => by simp [h]
@[simp] theorem execSessionInfo_ok {s : State} (hdr : Hdr) (h : StoredOk (stored s)) :
    OutOk (execSessionInfo hdr s) :=
  request_ok h fun _ => by simp [h]
@[simp] theorem execEventMask_ok {s : State} (hdr : Hdr) (mask : BitVec 8) (h : StoredOk (stored s)) :
    OutOk (execEventMask hdr mask s) :=
  request_ok h fun _ => by split <;> simp [h]
@[simp] theorem execSessionIdleTimeout_ok {s : State} (session : Fin 5) (h : StoredOk (stored s)) :
    OutOk (execSessionIdleTimeout session s) := by
  unfold execSessionIdleTimeout; (repeat' split) <;> simp [h]
@[simp] theorem execRoleLockExpiry_ok {s : State} (r : Role) (h : StoredOk (stored s)) :
    OutOk (execRoleLockExpiry r s) := by
  unfold execRoleLockExpiry
  extract_lets l
  split
  · exact when_ok h (by simp [h])
  · exact skip_ok h
@[simp] theorem execCompileDone_ok {s : State} (out : CairnOut) (h : StoredOk (stored s)) :
    OutOk (execCompileDone out s) := by
  unfold execCompileDone
  split
  · dsimp only
    split
    · exact skip_ok h
    · split
      · exact done_ok (by simp [h])
      · split
        · exact done_ok (by simp [h])
        · exact done_ok (by simp [h])
  · exact skip_ok h
@[simp] theorem execReplaceTrigger_ok {sBefore : State} (tr : Trigger) (out : CairnOut) (h : StoredOk (stored sBefore)) :
    OutOk (execReplaceTrigger tr out sBefore) := by
  unfold execReplaceTrigger
  have hs : StoredOk (stored (calTurn sBefore)) := by simp [h]
  dsimp only
  split
  · exact when_ok hs (by simp [h])
  · split
    · refine when_ok hs ?_
      split <;> simp [h]
    · exact skip_ok hs
@[simp] theorem execReplaceLate_ok {s : State} (h : StoredOk (stored s)) :
    OutOk (execReplaceLate s) := by
  unfold execReplaceLate; (repeat' split) <;> simp [h]
@[simp] theorem execParGet_ok {s : State} (hdr : Hdr) (items : List (BitVec 16)) (h : StoredOk (stored s)) :
    OutOk (execParGet hdr items s) :=
  request_ok h fun _ => by simp [h]
@[simp] theorem execParSet_ok {s : State} (hdr : Hdr) (items : List (BitVec 16 × BitVec 32)) (h : StoredOk (stored s)) :
    OutOk (execParSet hdr items s) := by
  refine request_ok h fun role => ?_
  simp only
  split
  · simp
  · next hn =>
    have hp : parItems s 0 s.par items = ((parItems s 0 s.par items).1, none) := Prod.ext rfl hn
    exact audited_ok (applyItems_ok (by simp [h]) hp)
@[simp] theorem execParInfo_ok {s : State} (hdr : Hdr) (index : BitVec 16) (h : StoredOk (stored s)) :
    OutOk (execParInfo hdr index s) :=
  request_ok h fun _ => by split <;> simp [h]
@[simp] theorem execParCommit_ok {s : State} (hdr : Hdr) (bank flags : BitVec 8) (h : StoredOk (stored s)) :
    OutOk (execParCommit hdr bank flags s) := by
  refine request_ok h fun role => ?_
  have commit (t : State) (ht : StoredOk (stored t)) (b : Nat) (q : Word) (u : Nat) (l : List Byte) :
      AnsOk (.ok { t with nv.banks := t.nv.banks.set b (some ⟨q, stamp t, t.par⟩), nv.bootBank := u } l) := by
    refine ⟨ht.1, fun c hc => ?_⟩
    rcases List.mem_or_eq_of_mem_set hc with hc | hc
    · exact ht.2 c hc
    · cases hc; exact ht.1
  exact audited_ok (commit _ (by simp [h]) _ _ _ _)
@[simp] theorem execParLoad_ok {s : State} (hdr : Hdr) (bank : BitVec 8) (h : StoredOk (stored s)) :
    OutOk (execParLoad hdr bank s) := by
  refine request_ok h fun role => ?_
  split
  · simp
  · split
    · simp
    · next b hb => exact replaceSet_ok _ _ _ h (parBank_ranged h hb)
@[simp] theorem execParBanks_ok {s : State} (hdr : Hdr) (h : StoredOk (stored s)) :
    OutOk (execParBanks hdr s) :=
  request_ok h fun _ => by simp [h]
@[simp] theorem execParDefaults_ok {s : State} (hdr : Hdr) (h : StoredOk (stored s)) :
    OutOk (execParDefaults hdr s) := by
  refine request_ok h fun role => ?_
  split
  · simp
  · exact replaceSet_ok _ _ _ h .nil
@[simp] theorem execXspWindowRead_ok {s : State} (addr : Nat) (h : StoredOk (stored s)) :
    OutOk (execXspWindowRead addr s) :=
  when_ok h (by simp [h])
@[simp] theorem execXspWindowWrite_ok {s : State} (addr : Nat) (byte : BitVec 8) (h : StoredOk (stored s)) :
    OutOk (execXspWindowWrite addr byte s) :=
  when_ok h (by simp [h])
@[simp] theorem execXspPageIdle_ok {s : State} (h : StoredOk (stored s)) :
    OutOk (execXspPageIdle s) :=
  when_ok h (by simp [h])
@[simp] theorem execXspPoll_ok {s : State} (busy : Bool) (h : StoredOk (stored s)) :
    OutOk (execXspPoll busy s) :=
  when_ok h (by simp [h])
@[simp] theorem execXspOpTimeout_ok {s : State} (h : StoredOk (stored s)) :
    OutOk (execXspOpTimeout s) := by
  unfold execXspOpTimeout; (repeat' split) <;> simp [h]
@[simp] theorem execXspIdCheck_ok {s : State} (present : Bool) (h : StoredOk (stored s)) :
    OutOk (execXspIdCheck present s) :=
  when_ok h (by simp [h])
@[simp] theorem execFwBegin_ok {s : State} (hdr : Hdr) (size : BitVec 32) (h : StoredOk (stored s)) :
    OutOk (execFwBegin hdr size s) :=
  request_ok h fun _ => by simp [h]
@[simp] theorem execFwData_ok {s : State} (hdr : Hdr) (offset : BitVec 32) (bytes : List (BitVec 8)) (h : StoredOk (stored s)) :
    OutOk (execFwData hdr offset bytes s) :=
  request_ok h fun _ => by split <;> simp [h]
@[simp] theorem execFwInstall_ok {s : State} (hdr : Hdr) (flags : BitVec 8) (h : StoredOk (stored s)) :
    OutOk (execFwInstall hdr flags s) :=
  request_ok h fun _ => by simp [h]
@[simp] theorem execFwInstallDone_ok {s : State} (image : ImageFacts) (h : StoredOk (stored s)) :
    OutOk (execFwInstallDone image s) := by
  unfold execFwInstallDone
  split
  · dsimp only
    split
    · exact done_ok (by simp [h])
    · exact done_ok (by simp [h])
  · exact skip_ok h
@[simp] theorem execFwInfo_ok {s : State} (hdr : Hdr) (h : StoredOk (stored s)) :
    OutOk (execFwInfo hdr s) :=
  request_ok h fun _ => by simp [h]
@[simp] theorem execSlotBackgroundVerifyDone_ok {s : State} (image : Option ImageFacts) (h : StoredOk (stored s)) :
    OutOk (execSlotBackgroundVerifyDone image s) := by
  unfold execSlotBackgroundVerifyDone; (repeat' split) <;> simp [h]
@[simp] theorem execMramErase_ok {s : State} (hdr : Hdr) (region : BitVec 8) (h : StoredOk (stored s)) :
    OutOk (execMramErase hdr region s) :=
  request_ok h fun _ => by simp [h]
@[simp] theorem execMramEraseDone_ok {s : State} (h : StoredOk (stored s)) :
    OutOk (execMramEraseDone s) := by
  unfold execMramEraseDone; (repeat' split) <;> simp [h]
@[simp] theorem execMramScrubTick_ok {s : State} (corrected : Nat) (bad : List (Nat × Nat)) (h : StoredOk (stored s)) :
    OutOk (execMramScrubTick corrected bad s) :=
  when_ok h (foldl_ok (by simp [h]) fun _ u _ => unitLost_ok u)
@[simp] theorem execReboot_ok {s : State} (hdr : Hdr) (h : StoredOk (stored s)) :
    OutOk (execReboot hdr s) :=
  request_ok h fun _ => by simp [h]
@[simp] theorem execOtpRead_ok {s : State} (hdr : Hdr) (row : BitVec 16) (n : BitVec 8) (h : StoredOk (stored s)) :
    OutOk (execOtpRead hdr row n s) :=
  request_ok h fun _ => by simp [h]
@[simp] theorem execOtpOverride_ok {s : State} (hdr : Hdr) (row : BitVec 16) (data : BitVec 64) (h : StoredOk (stored s)) :
    OutOk (execOtpOverride hdr row data s) := by
  refine request_ok h fun role => ?_
  simp only
  split <;> simp [h]
@[simp] theorem execOtpBurn_ok {s : State} (hdr : Hdr) (rows : List (BitVec 16 × BitVec 64)) (h : StoredOk (stored s)) :
    OutOk (execOtpBurn hdr rows s) :=
  request_ok h fun _ => by (repeat' split) <;> simp [h]
@[simp] theorem execOtpBurnDone_ok {s : State} (senses : List BurnSense) (h : StoredOk (stored s)) :
    OutOk (execOtpBurnDone senses s) := by
  unfold execOtpBurnDone
  split
  · dsimp only
    split
    · exact done_ok (by simp [h])
    · exact done_ok (by simp [h])
  · exact skip_ok h
@[simp] theorem execOtpLock_ok {s : State} (hdr : Hdr) (region : BitVec 8) (h : StoredOk (stored s)) :
    OutOk (execOtpLock hdr region s) :=
  request_ok h fun _ => by (repeat' split) <;> simp [h]
@[simp] theorem execOtpRetire_ok {s : State} (hdr : Hdr) (region : BitVec 8) (h : StoredOk (stored s)) :
    OutOk (execOtpRetire hdr region s) :=
  request_ok h fun _ => by (repeat' split) <;> simp [h]
@[simp] theorem execOtpLockDone_ok {s : State} (h : StoredOk (stored s)) :
    OutOk (execOtpLockDone s) := by
  unfold execOtpLockDone; (repeat' split) <;> simp [h]
@[simp] theorem execBootComplete_ok {s : State} (b : BootFacts) (flash : FlashFind) (h : StoredOk (stored s)) :
    OutOk (execBootComplete b flash s) := by
  unfold execBootComplete
  split
  · exact skip_ok h
  · next src _ =>
    have hm (u : State) (hu : stored u = stored s) : StoredOk (stored (bootMram u src b)) := bootMram_ok src b (hu ▸ h)
    exact done_ok (by simp [hm, h])
@[simp] theorem execT1sLineTestDone_ok {s : State} (fault : Bool) (h : StoredOk (stored s)) :
    OutOk (execT1sLineTestDone fault s) :=
  when_ok h (by simp [h])
@[simp] theorem execHbPullExpiry_ok {s : State} (x : Axis) (h : StoredOk (stored s)) :
    OutOk (execHbPullExpiry x s) :=
  when_ok h (by simp [h])
@[simp] theorem execHbOvercurrent_ok {s : State} (x : Axis) (currentMa us : Nat) (h : StoredOk (stored s)) :
    OutOk (execHbOvercurrent x currentMa us s) :=
  when_ok h (by simp [h])
@[simp] theorem execHbOpenTimeout_ok {s : State} (x : Axis) (currentMa : Nat) (h : StoredOk (stored s)) :
    OutOk (execHbOpenTimeout x currentMa s) :=
  when_ok h (by simp [h])
@[simp] theorem execHbReleaseExpiry_ok {s : State} (x : Axis) (h : StoredOk (stored s)) :
    OutOk (execHbReleaseExpiry x s) :=
  when_ok h (by simp [h])
@[simp] theorem execHbTripHoldExpiry_ok {s : State} (x : Axis) (h : StoredOk (stored s)) :
    OutOk (execHbTripHoldExpiry x s) :=
  when_ok h (by simp [h])
@[simp] theorem execHbEngageExpiry_ok {s : State} (x : Axis) (h : StoredOk (stored s)) :
    OutOk (execHbEngageExpiry x s) :=
  when_ok h (by simp [h])
@[simp] theorem execQuadCount_ok {s : State} (x : Axis) (a b : Bool) (t stableNs : Nat) (h : StoredOk (stored s)) :
    OutOk (execQuadCount x a b t stableNs s) :=
  when_ok h (by simp [h])
@[simp] theorem execZEdge_ok {s : State} (x : Axis) (rising : Bool) (t stableNs : Nat) (h : StoredOk (stored s)) :
    OutOk (execZEdge x rising t stableNs s) :=
  when_ok h (by simp [h])
@[simp] theorem execHallEdge_ok {s : State} (x : Axis) (hdr : BitVec 3) (t stableNs : Nat) (h : StoredOk (stored s)) :
    OutOk (execHallEdge x hdr t stableNs s) := by
  unfold execHallEdge; (repeat' split) <;> simp [h]
@[simp] theorem execHallIllegalTimeout_ok {s : State} (x : Axis) (h : StoredOk (stored s)) :
    OutOk (execHallIllegalTimeout x s) :=
  when_ok h (by simp [h])
@[simp] theorem execSincosSampleEvent_ok {s : State} (x : Axis) (sin cos : BitVec 16) (quarter : Int) (h : StoredOk (stored s)) :
    OutOk (execSincosSampleEvent x sin cos quarter s) :=
  when_ok h (by simp [h])
@[simp] theorem execSerialFrameRequest_ok {s : State} (x : Axis) (datHigh : Bool) (h : StoredOk (stored s)) :
    OutOk (execSerialFrameRequest x datHigh s) :=
  when_ok h (by simp [h])
@[simp] theorem execSerialFrameEnd_ok {s : State} (x : Axis) (started : Bool) (bits : List Bool) (t : Nat) (h : StoredOk (stored s)) :
    OutOk (execSerialFrameEnd x started bits t s) :=
  when_ok h (by simp [h])
@[simp] theorem execFbStandstillTimeout_ok {s : State} (x : Axis) (h : StoredOk (stored s)) :
    OutOk (execFbStandstillTimeout x s) :=
  when_ok h (by simp [h])
@[simp] theorem execCompareHit_ok {s : State} (x : Axis) (u : CmpUnit) (t : Nat) (h : StoredOk (stored s)) :
    OutOk (execCompareHit x u t s) := by
  have hoff : StoredOk (parPut s.par (parAddr x (cmpPar u Par.cmpCfg0)) (((mapGet s.par (parAddr x (cmpPar u Par.cmpCfg0))).getD 0) &&& ~~~1),
      s.nv.banks) := ⟨cmpCfg_off x u h.1, h.2⟩
  exact when_ok h (by simpa [h] using fun _ _ => hoff)
@[simp] theorem execCaptureEdge_ok {s : State} (x : Axis) (inp : CmpUnit) (rising : Bool) (t stableNs : Nat) (h : StoredOk (stored s)) :
    OutOk (execCaptureEdge x inp rising t stableNs s) :=
  when_ok h (by simp [h])
@[simp] theorem execStateGet_ok {s : State} (hdr : Hdr) (h : StoredOk (stored s)) :
    OutOk (execStateGet hdr s) :=
  request_ok h fun _ => by simp [h]
@[simp] theorem execPwrReq_ok {s : State} (hdr : Hdr) (target : BitVec 8) (h : StoredOk (stored s)) :
    OutOk (execPwrReq hdr target s) := by
  refine request_ok h fun _ => ?_
  split
  · simp
  · next t ht =>
    have := powerMove_ok h ht
    split <;> simpa using this
@[simp] theorem execEnable_ok {s : State} (hdr : Hdr) (mask : BitVec 8) (h : StoredOk (stored s)) :
    OutOk (execEnable hdr mask s) :=
  request_ok h fun _ => by simp [h]
@[simp] theorem execDisable_ok {s : State} (hdr : Hdr) (mask : BitVec 8) (h : StoredOk (stored s)) :
    OutOk (execDisable hdr mask s) :=
  request_ok h fun _ => by simp [h]
@[simp] theorem execQuickStop_ok {s : State} (hdr : Hdr) (mask : BitVec 8) (h : StoredOk (stored s)) :
    OutOk (execQuickStop hdr mask s) :=
  request_ok h fun _ => by simp [h]
@[simp] theorem execFaultClear_ok {s : State} (hdr : Hdr) (scope : BitVec 8) (chopSeen : Bool) (h : StoredOk (stored s)) :
    OutOk (execFaultClear hdr scope chopSeen s) := by
  refine request_ok h fun _ => ?_
  simp only
  split <;> simp [h]
@[simp] theorem execFaultList_ok {s : State} (hdr : Hdr) (h : StoredOk (stored s)) :
    OutOk (execFaultList hdr s) :=
  request_ok h fun _ => by simp [h]
@[simp] theorem execLegServiceBypass_ok {s : State} (hdr : Hdr) (axis leg : BitVec 8) (h : StoredOk (stored s)) :
    OutOk (execLegServiceBypass hdr axis leg s) :=
  request_ok h fun _ => by simp [h]
@[simp] theorem execLegServiceReturn_ok {s : State} (hdr : Hdr) (axis leg : BitVec 8) (m : LegMeasure) (h : StoredOk (stored s)) :
    OutOk (execLegServiceReturn hdr axis leg m s) :=
  request_ok h fun _ => by simp [h]
@[simp] theorem execSwTrip_ok {s : State} (hdr : Hdr) (mask : BitVec 8) (h : StoredOk (stored s)) :
    OutOk (execSwTrip hdr mask s) :=
  request_ok h fun _ => by simp [h]
@[simp] theorem execSpSet_ok {s : State} (hdr : Hdr) (w : SpWords) (h : StoredOk (stored s)) :
    OutOk (execSpSet hdr w s) :=
  request_ok h fun _ => by simp [h]
@[simp] theorem execSpGet_ok {s : State} (hdr : Hdr) (axis : BitVec 8) (h : StoredOk (stored s)) :
    OutOk (execSpGet hdr axis s) :=
  request_ok h fun _ => by simp [h]
@[simp] theorem execCalConv_ok {s : State} (hdr : Hdr) (mask : BitVec 16) (h : StoredOk (stored s)) :
    OutOk (execCalConv hdr mask s) :=
  request_ok h fun _ => by simp [h]
@[simp] theorem execCalConvDone_ok {s0 : State} (m : List CalMeasure) (h : StoredOk (stored s0)) :
    OutOk (execCalConvDone m s0) := by
  unfold execCalConvDone
  extract_lets s
  have hs : stored s = stored s0 := by simp [s]
  split
  · simp [hs, h]
  · exact skip_ok h
@[simp] theorem execIdent_ok {s : State} (hdr : Hdr) (axis : BitVec 8) (h : StoredOk (stored s)) :
    OutOk (execIdent hdr axis s) :=
  request_ok h fun _ => by simp [h]
@[simp] theorem execIdentDone_ok {s : State} (h : StoredOk (stored s)) :
    OutOk (execIdentDone s) := by
  unfold execIdentDone
  split
  · next x hdr _ =>
    dsimp only
    split
    · exact skip_ok h
    · split
      · exact done_ok (by simp [identFailed, h])
      · next hf =>
        have hk (u : State) (hu : stored u = stored s) :
            StoredOk (stored ((identVals s x (identMeasured s x)).foldl (fun t p => keepMeasured t x p) u)) :=
          foldl_ok (hu ▸ h) fun t p hp ht => keepMeasured_ok x ht (identFail_none hf p hp)
        split
        · exact done_ok (by simp [h])
        · split <;> exact done_ok (by simp [hk])
  · exact skip_ok h
@[simp] theorem execAngleOfs_ok {s : State} (hdr : Hdr) (axis : BitVec 8) (h : StoredOk (stored s)) :
    OutOk (execAngleOfs hdr axis s) :=
  request_ok h fun _ => by simp [h]
@[simp] theorem execAngleOfsDone_ok {s : State} (h : StoredOk (stored s)) :
    OutOk (execAngleOfsDone s) := by
  unfold execAngleOfsDone
  split
  · next x hdr _ =>
    dsimp only
    split
    · exact skip_ok h
    · split
      · exact done_ok (by simp [h])
      · refine (outOk_ite _ _ _).mpr ⟨fun _ => done_ok (by simp [h]), fun _ => done_ok ?_⟩
        rw [endLong_stored]
        refine foldl_ok (by simp [h]) fun t p hp ht => storePar_ok ht fun _ => ?_
        rcases List.mem_append.mp hp with hp | hp
        · cases List.mem_singleton.mp hp
          exact (fbOfs_allowed x _).1
        · split at hp
          · cases List.mem_singleton.mp hp
            exact (fbOfs_allowed x _).2
          · cases hp
  · exact skip_ok h
@[simp] theorem execXtalLoss_ok {s : State} (h : StoredOk (stored s)) :
    OutOk (execXtalLoss s) :=
  when_ok h (by simp [h])
@[simp] theorem execPllLockLoss_ok {s : State} (p : Pll) (h : StoredOk (stored s)) :
    OutOk (execPllLockLoss p s) :=
  when_ok h (by simp [h])
@[simp] theorem execPllRelock_ok {s : State} (p : Pll) (h : StoredOk (stored s)) :
    OutOk (execPllRelock p s) :=
  when_ok h (by simp [h])
@[simp] theorem execPllRelockTimeout_ok {s : State} (h : StoredOk (stored s)) :
    OutOk (execPllRelockTimeout s) :=
  when_ok h (by simp [h])
@[simp] theorem execEventCellOverflow_ok {s : State} (cell : ColCell) (h : StoredOk (stored s)) :
    OutOk (execEventCellOverflow cell s) :=
  when_ok h (by simp [h])
@[simp] theorem execIslandWake_ok {s : State} (i : Island) (h : StoredOk (stored s)) :
    OutOk (execIslandWake i s) :=
  when_ok h (by simp [h])
@[simp] theorem execHeartbeatWrite_ok {s : State} (h : StoredOk (stored s)) :
    OutOk (execHeartbeatWrite s) :=
  when_ok h (by simp [h])
@[simp] theorem execHeartbeatTimeout_ok {s : State} (e : Engine) (h : StoredOk (stored s)) :
    OutOk (execHeartbeatTimeout e s) :=
  when_ok h (by simp [h])
@[simp] theorem execBankArmCheck_ok {s : State} (e : Engine) (h : StoredOk (stored s)) :
    OutOk (execBankArmCheck e s) :=
  when_ok h (by simp [h])
@[simp] theorem execHandoverCopyDone_ok {s : State} (x : Axis) (h : StoredOk (stored s)) :
    OutOk (execHandoverCopyDone x s) :=
  when_ok h (by simp [h])
@[simp] theorem execRgSelftestTick_ok {s : State} (h : StoredOk (stored s)) :
    OutOk (execRgSelftestTick s) :=
  when_ok h (by simp [h])
@[simp] theorem execRgTestDone_ok {s : State} (e : Engine) (signature : BitVec 32) (h : StoredOk (stored s)) :
    OutOk (execRgTestDone e signature s) :=
  when_ok h (by simp [h])
@[simp] theorem execLogRead_ok {s : State} (hdr : Hdr) (from_ : BitVec 32) (max : BitVec 8) (h : StoredOk (stored s)) :
    OutOk (execLogRead hdr from_ max s) :=
  request_ok h fun _ => by simp [h]
@[simp] theorem execLogErase_ok {s : State} (hdr : Hdr) (h : StoredOk (stored s)) :
    OutOk (execLogErase hdr s) :=
  request_ok h fun _ => by simp [h]
@[simp] theorem execAuditRead_ok {s : State} (hdr : Hdr) (index : BitVec 16) (max : BitVec 8) (h : StoredOk (stored s)) :
    OutOk (execAuditRead hdr index max s) :=
  request_ok h fun _ => by simp [h]
@[simp] theorem execFifoRead_ok {s : State} (hdr : Hdr) (axis unit max : BitVec 8) (h : StoredOk (stored s)) :
    OutOk (execFifoRead hdr axis unit max s) :=
  request_ok h fun _ => by simp [h]
@[simp] theorem execStreamRead_ok {s : State} (hdr : Hdr) (stream : BitVec 8) (from_ : BitVec 32) (max : BitVec 16) (h : StoredOk (stored s)) :
    OutOk (execStreamRead hdr stream from_ max s) :=
  request_ok h fun _ => by split <;> simp [h]
@[simp] theorem execStreamRecordTick_ok {s : State} (stream : Fin 16) (fate : RecordFate) (h : StoredOk (stored s)) :
    OutOk (execStreamRecordTick stream fate s) := by
  unfold execStreamRecordTick; (repeat' split) <;> simp [h]
@[simp] theorem execCntRead_ok {s : State} (hdr : Hdr) (ids : List (BitVec 16)) (h : StoredOk (stored s)) :
    OutOk (execCntRead hdr ids s) :=
  request_ok h fun _ => by split <;> simp [h]
@[simp] theorem execCntClear_ok {s : State} (hdr : Hdr) (ids : List (BitVec 16)) (h : StoredOk (stored s)) :
    OutOk (execCntClear hdr ids s) :=
  request_ok h fun _ => by split <;> simp [h]
@[simp] theorem execCmpRaw_ok {s : State} (hdr : Hdr) (h : StoredOk (stored s)) :
    OutOk (execCmpRaw hdr s) :=
  request_ok h fun _ => by simp [h]
@[simp] theorem execCmpTest_ok {s : State} (hdr : Hdr) (mask : BitVec 32) (fails : BitVec 24) (h : StoredOk (stored s)) :
    OutOk (execCmpTest hdr mask fails s) :=
  request_ok h fun _ => by simp [h]
@[simp] theorem execChopTest_ok {s : State} (hdr : Hdr) (seen : Bool) (h : StoredOk (stored s)) :
    OutOk (execChopTest hdr seen s) :=
  request_ok h fun _ => by simp [h]
@[simp] theorem execLegTest_ok {s : State} (hdr : Hdr) (axis leg : BitVec 8) (m : LegMeasure) (h : StoredOk (stored s)) :
    OutOk (execLegTest hdr axis leg m s) :=
  request_ok h fun _ => by simp [h]
@[simp] theorem execRgTest_ok {s : State} (hdr : Hdr) (engine : BitVec 8) (h : StoredOk (stored s)) :
    OutOk (execRgTest hdr engine s) :=
  request_ok h fun _ => by simp [h]
@[simp] theorem execColFlags_ok {s : State} (hdr : Hdr) (clear : BitVec 8) (h : StoredOk (stored s)) :
    OutOk (execColFlags hdr clear s) :=
  request_ok h fun _ => by simp [h]
@[simp] theorem execConvOnce_ok {s : State} (hdr : Hdr) (converter channel : BitVec 8) (code : BitVec 16) (h : StoredOk (stored s)) :
    OutOk (execConvOnce hdr converter channel code s) :=
  request_ok h fun _ => by simp [h]
@[simp] theorem execTestAccess_ok {s : State} (hdr : Hdr) (opened : BitVec 8) (h : StoredOk (stored s)) :
    OutOk (execTestAccess hdr opened s) :=
  request_ok h fun _ => by simp [h]
@[simp] theorem execNetStatus_ok {s : State} (hdr : Hdr) (h : StoredOk (stored s)) :
    OutOk (execNetStatus hdr s) :=
  request_ok h fun _ => by simp [h]
@[simp] theorem execMdioRead_ok {s : State} (hdr : Hdr) (port phy reg : BitVec 8) (value : BitVec 16) (h : StoredOk (stored s)) :
    OutOk (execMdioRead hdr port phy reg value s) :=
  request_ok h fun _ => by simp [h]
@[simp] theorem execMdioWrite_ok {s : State} (hdr : Hdr) (port phy reg : BitVec 8) (value : BitVec 16) (h : StoredOk (stored s)) :
    OutOk (execMdioWrite hdr port phy reg value s) :=
  request_ok h fun _ => by simp [h]
@[simp] theorem execPortTest_ok {s : State} (hdr : Hdr) (port : BitVec 8) (intact : Nat) (h : StoredOk (stored s)) :
    OutOk (execPortTest hdr port intact s) :=
  request_ok h fun _ => by simp [h]
@[simp] theorem execDeclWrite_ok {s : State} (hdr : Hdr) (offset total : BitVec 16) (bytes : List (BitVec 8)) (h : StoredOk (stored s)) :
    OutOk (execDeclWrite hdr offset total bytes s) :=
  request_ok h fun _ => by simp [h]
@[simp] theorem execCompile_ok {s : State} (hdr : Hdr) (flash : FlashFind) (h : StoredOk (stored s)) :
    OutOk (execCompile hdr flash s) :=
  request_ok h fun _ => startCompile_ok _ _ h
@[simp] theorem execCompileCheckOnly_ok {s : State} (hdr : Hdr) (flash : FlashFind) (h : StoredOk (stored s)) :
    OutOk (execCompileCheckOnly hdr flash s) :=
  request_ok h fun _ => startCompile_ok _ _ h
@[simp] theorem execDeclRead_ok {s : State} (hdr : Hdr) (offset count : BitVec 16) (h : StoredOk (stored s)) :
    OutOk (execDeclRead hdr offset count s) :=
  request_ok h fun _ => by simp [h]
@[simp] theorem execPlaceInfo_ok {s : State} (hdr : Hdr) (kind index : BitVec 8) (h : StoredOk (stored s)) :
    OutOk (execPlaceInfo hdr kind index s) :=
  request_ok h fun _ => by simp [h]
@[simp] theorem execLedger_ok {s : State} (hdr : Hdr) (h : StoredOk (stored s)) :
    OutOk (execLedger hdr s) :=
  request_ok h fun _ => by simp [h]
@[simp] theorem execSegStage_ok {s : State} (hdr : Hdr) (axis hook : BitVec 8) (offset : BitVec 16) (ops : List (BitVec 64)) (h : StoredOk (stored s)) :
    OutOk (execSegStage hdr axis hook offset ops s) :=
  request_ok h fun _ => by simp [h]
@[simp] theorem execSegCommit_ok {s : State} (hdr : Hdr) (axis hook : BitVec 8) (ops : BitVec 16) (init : List (BitVec 16 × BitVec 32)) (h : StoredOk (stored s)) :
    OutOk (execSegCommit hdr axis hook ops init s) := by
  refine request_ok h fun role => ?_
  simp only
  split <;> simp [h]
@[simp] theorem execSegDelete_ok {s : State} (hdr : Hdr) (axis hook : BitVec 8) (h : StoredOk (stored s)) :
    OutOk (execSegDelete hdr axis hook s) :=
  request_ok h fun _ => by simp [h]
@[simp] theorem execSegRead_ok {s : State} (hdr : Hdr) (axis hook : BitVec 8) (offset n : BitVec 16) (h : StoredOk (stored s)) :
    OutOk (execSegRead hdr axis hook offset n s) :=
  request_ok h fun _ => by simp [h]
@[simp] theorem refuse_ok {s : State} (hdr : Hdr) (op : BitVec 16) (r : Nat) (h : StoredOk (stored s)) :
    OutOk (refuse s hdr op r) :=
  when_ok h (by split <;> simp [h])

/-- The meaning an opcode selects, if any, keeps the values in range. -/
def MeantOk (o : Option Out) : Prop := ∀ r, o = some r → OutOk r
@[simp] theorem meantOk_some (o : Out) : MeantOk (some o) ↔ OutOk o := by simp [MeantOk]
@[simp] theorem meantOk_none : MeantOk none := by simp [MeantOk]
@[simp] theorem meantOk_ite (c : Prop) [Decidable c] (a b : Option Out) :
    MeantOk (if c then a else b) ↔ (c → MeantOk a) ∧ (¬ c → MeantOk b) := by split <;> simp [*]
theorem MeantOk.orElse {a : Option Out} {b : Unit → Option Out} (ha : MeantOk a) (hb : ∀ u, MeantOk (b u)) : MeantOk (a.orElse b) := by
  cases a with
  | none => exact hb ()
  | some o => exact ha
theorem runBasic_ok {s : State} (hdr : Hdr) (n : Nat) (p : List Byte) (q : ReqFacts) (h : StoredOk (stored s)) :
    MeantOk (runBasic s hdr n p q) := by
  unfold runBasic
  split <;> simp [h]
theorem runCairn_ok {s : State} (hdr : Hdr) (n : Nat) (p : List Byte) (q : ReqFacts) (h : StoredOk (stored s)) :
    MeantOk (runCairn s hdr n p q) := by
  unfold runCairn
  split <;> simp [h]
theorem runDiag_ok {s : State} (hdr : Hdr) (n : Nat) (p : List Byte) (q : ReqFacts) (h : StoredOk (stored s)) :
    MeantOk (runDiag s hdr n p q) := by
  unfold runDiag
  split <;> simp [h]
theorem runSystem_ok {s : State} (hdr : Hdr) (n : Nat) (p : List Byte) (q : ReqFacts) (h : StoredOk (stored s)) :
    MeantOk (runSystem s hdr n p q) := by
  unfold runSystem
  split <;> simp [h]
@[simp] theorem runOp_ok {s : State} (hdr : Hdr) (op : BitVec 16) (p : List Byte) (q : ReqFacts) (h : StoredOk (stored s)) :
    OutOk (runOp s hdr op p q) := by
  have hm := (runBasic_ok hdr op.toNat p q h).orElse fun _ => (runCairn_ok hdr op.toNat p q h).orElse fun _ =>
    (runDiag_ok hdr op.toNat p q h).orElse fun _ => runSystem_ok hdr op.toNat p q h
  unfold runOp
  dsimp only
  split
  · next o ho => exact hm o ho
  · exact refuse_ok hdr op 3 h
@[simp] theorem runMsg_ok {s : State} (tr : Transport) (m : List Byte) (q : ReqFacts) (h : StoredOk (stored s)) :
    OutOk (runMsg s tr m q) := by
  simp only [runMsg]
  split
  · exact refuse_ok _ _ _ h
  · exact runOp_ok _ _ _ _ h
@[simp] theorem execHspFrame_ok {s : State} (f : HspFrame) (h : StoredOk (stored s)) :
    OutOk (execHspFrame f s) := by
  unfold execHspFrame; (repeat' split) <;> simp [h]
@[simp] theorem execHspFrameTimeout_ok {s : State} (h : StoredOk (stored s)) :
    OutOk (execHspFrameTimeout s) :=
  when_ok h (by simp [h])
@[simp] theorem execMbxCopyDone_ok {s : State} (facts : ReqFacts) (h : StoredOk (stored s)) :
    OutOk (execMbxCopyDone facts s) := by
  unfold execMbxCopyDone
  dsimp only
  split
  · exact runMsg_ok _ _ _ (by simp [h])
  · exact skip_ok h
@[simp] theorem execTelemetryDriveUpdate_ok {s : State} (h : StoredOk (stored s)) :
    OutOk (execTelemetryDriveUpdate s) :=
  when_ok h (by simp [h])
@[simp] theorem execEthFrameForward_ok {s : State} (f : EthFrame) (h : StoredOk (stored s)) :
    OutOk (execEthFrameForward f s) := by
  unfold execEthFrameForward; (repeat' split) <;> simp [h]
@[simp] theorem execAddressAgeExpiry_ok {s : State} (mac : BitVec 48) (h : StoredOk (stored s)) :
    OutOk (execAddressAgeExpiry mac s) :=
  when_ok h (by simp [h])
@[simp] theorem execEthRstRelease_ok {s : State} (h : StoredOk (stored s)) :
    OutOk (execEthRstRelease s) :=
  when_ok h (by simp [h])
@[simp] theorem execPhyPoll_ok {s : State} (rmii1 rmii2 : PhyStatus) (h : StoredOk (stored s)) :
    OutOk (execPhyPoll rmii1 rmii2 s) :=
  when_ok h (by simp [h])
@[simp] theorem execT1sBeaconLoss_ok {s : State} (h : StoredOk (stored s)) :
    OutOk (execT1sBeaconLoss s) :=
  when_ok h (by simp [h])
@[simp] theorem execPlcaBeaconReceived_ok {s : State} (h : StoredOk (stored s)) :
    OutOk (execPlcaBeaconReceived s) :=
  when_ok h (by simp [h])
@[simp] theorem execArpIcmpRequest_ok {s : State} (icmp : Bool) (sender target : BitVec 32) (bytes : Nat) (h : StoredOk (stored s)) :
    OutOk (execArpIcmpRequest icmp sender target bytes s) :=
  when_ok h (by simp [h])
@[simp] theorem execGateListInterval_ok {s : State} (port : Port) (h : StoredOk (stored s)) :
    OutOk (execGateListInterval port s) :=
  when_ok h (by simp [h])
@[simp] theorem execGptpSync_ok {s : State} (rawNs : Int) (rate : F32) (t : Nat) (h : StoredOk (stored s)) :
    OutOk (execGptpSync rawNs rate t s) :=
  when_ok h (by simp [h])
@[simp] theorem execGptpAnnounce_ok {s : State} (slave : SlavePort) (h : StoredOk (stored s)) :
    OutOk (execGptpAnnounce slave s) := by
  unfold execGptpAnnounce; (repeat' split) <;> simp [h]
@[simp] theorem execGptpPdelay_ok {s : State} (port : Port) (rawNs : Int) (rateOk : Bool) (h : StoredOk (stored s)) :
    OutOk (execGptpPdelay port rawNs rateOk s) :=
  when_ok h (by simp [h])
@[simp] theorem execGptpReceiptTimeout_ok {s : State} (h : StoredOk (stored s)) :
    OutOk (execGptpReceiptTimeout s) :=
  when_ok h (by simp [h])
@[simp] theorem execGptpTransmitInterval_ok {s : State} (kind : GptpKind) (h : StoredOk (stored s)) :
    OutOk (execGptpTransmitInterval kind s) := by
  unfold execGptpTransmitInterval; (repeat' split) <;> simp [h]
@[simp] theorem execTvReceiveSet_ok {s : State} (f : TvFrame) (t : Nat) (h : StoredOk (stored s)) :
    OutOk (execTvReceiveSet f t s) := by
  unfold execTvReceiveSet
  refine when_ok h ?_
  split
  · simp [h]
  · split <;> simp [h]
@[simp] theorem execTvMailboxRequest_ok {s : State} (f : TvFrame) (waiting : Nat) (facts : ReqFacts) (t : Nat) (h : StoredOk (stored s)) :
    OutOk (execTvMailboxRequest f waiting facts t s) := by
  unfold execTvMailboxRequest
  dsimp only
  split
  · exact skip_ok h
  · split
    · exact runMsg_ok _ _ _ (by simp [h])
    · split
      · exact done_ok (by simp [h])
      · exact runMsg_ok _ _ _ (by simp [h])
@[simp] theorem execTvTransmitWindow_ok {s : State} (set : Fin 8) (blocked : Bool) (h : StoredOk (stored s)) :
    OutOk (execTvTransmitWindow set blocked s) :=
  when_ok h (by simp [h])
@[simp] theorem execCanSdo_ok {s : State} (r : SdoReq) (h : StoredOk (stored s)) :
    OutOk (execCanSdo r s) :=
  when_ok h (by simp [h])
@[simp] theorem execCanRpdo_ok {s : State} (n : Fin 8) (data : List (BitVec 8)) (t : Nat) (h : StoredOk (stored s)) :
    OutOk (execCanRpdo n data t s) :=
  when_ok h (by simp [h])
@[simp] theorem execCanSync_ok {s : State} (t : Nat) (h : StoredOk (stored s)) :
    OutOk (execCanSync t s) := by
  unfold execCanSync
  extract_lets s1 act s2 s3 s4
  have h2 : StoredOk (stored s2) := by
    unfold s2
    split
    · exact foldl_ok (by simp [s1, h]) fun t n _ ht => applyStored_ok n ht
    · simp [s1, h]
  exact when_ok h (by simp [s4, s3, h2])
@[simp] theorem execCanNmt_ok {s : State} (c : NmtCommand) (node : BitVec 8) (h : StoredOk (stored s)) :
    OutOk (execCanNmt c node s) := by
  unfold execCanNmt; (repeat' split) <;> simp [h]
@[simp] theorem execCanHeartbeatProduce_ok {s : State} (h : StoredOk (stored s)) :
    OutOk (execCanHeartbeatProduce s) :=
  when_ok h (by simp [h])
@[simp] theorem execCanHeartbeatReceive_ok {s : State} (node : BitVec 8) (h : StoredOk (stored s)) :
    OutOk (execCanHeartbeatReceive node s) :=
  when_ok h (by simp [h])
@[simp] theorem execCanHeartbeatTimeout_ok {s : State} (h : StoredOk (stored s)) :
    OutOk (execCanHeartbeatTimeout s) :=
  when_ok h (by simp [h])
@[simp] theorem execCanErrorPassive_ok {s : State} (h : StoredOk (stored s)) :
    OutOk (execCanErrorPassive s) :=
  when_ok h (by simp [h])
@[simp] theorem execCanErrorActiveReturn_ok {s : State} (h : StoredOk (stored s)) :
    OutOk (execCanErrorActiveReturn s) :=
  when_ok h (by simp [h])
@[simp] theorem execCanBusoff_ok {s : State} (h : StoredOk (stored s)) :
    OutOk (execCanBusoff s) :=
  when_ok h (by simp [h])
@[simp] theorem execCanBusoffRecovery_ok {s : State} (h : StoredOk (stored s)) :
    OutOk (execCanBusoffRecovery s) :=
  when_ok h (by simp [h])
@[simp] theorem execScarpTrip_ok {s : State} (cmp : Fin 24) (stays : Bool) (tick : Nat) (h : StoredOk (stored s)) :
    OutOk (execScarpTrip cmp stays tick s) :=
  when_ok h (by simp [h])
@[simp] theorem execScarpDigitalTrip_ok {s : State} (src : DigitalSource) (l : Leg) (stays : Bool) (tick : Nat) (h : StoredOk (stored s)) :
    OutOk (execScarpDigitalTrip src l stays tick s) := by
  unfold execScarpDigitalTrip; (repeat' split) <;> simp [h]
@[simp] theorem execBlankWindowClose_ok {s : State} (cmp : Fin 24) (crossed active : Bool) (tick : Nat) (h : StoredOk (stored s)) :
    OutOk (execBlankWindowClose cmp crossed active tick s) :=
  when_ok h (by simp [h])
@[simp] theorem execCmpSelftestTick_ok {s : State} (activeDuring inactiveAfter : Bool) (h : StoredOk (stored s)) :
    OutOk (execCmpSelftestTick activeDuring inactiveAfter s) :=
  when_ok h (by simp [h])
@[simp] theorem execNlHoldoverExpiry_ok {s : State} (x : Axis) (h : StoredOk (stored s)) :
    OutOk (execNlHoldoverExpiry x s) :=
  when_ok h (by simp [h])
@[simp] theorem execStoRemove_ok {s : State} (sto1Low sto2Low : Bool) (lowUs : Nat) (h : StoredOk (stored s)) :
    OutOk (execStoRemove sto1Low sto2Low lowUs s) :=
  when_ok h (by simp [h])
@[simp] theorem execStoRestore_ok {s : State} (highUs : Nat) (supplyBack : Bool) (h : StoredOk (stored s)) :
    OutOk (execStoRestore highUs supplyBack s) :=
  when_ok h (by simp [h])
@[simp] theorem execStoDiscrepancyTimeout_ok {s : State} (sto1 sto2 : Bool) (h : StoredOk (stored s)) :
    OutOk (execStoDiscrepancyTimeout sto1 sto2 s) :=
  when_ok h (by simp [h])
@[simp] theorem execSummitStart_ok {s : State} (inMv vmMv : Nat) (h : StoredOk (stored s)) :
    OutOk (execSummitStart inMv vmMv s) :=
  when_ok h ⟨h.1.filter _, h.2⟩
@[simp] theorem execSummitReset_ok {s : State} (inMv vmMv : Nat) (h : StoredOk (stored s)) :
    OutOk (execSummitReset inMv vmMv s) :=
  when_ok h ⟨.nil, h.2⟩
@[simp] theorem execPlugWindowEntry_ok {s : State} (inMv : Nat) (h : StoredOk (stored s)) :
    OutOk (execPlugWindowEntry inMv s) :=
  when_ok h (by simp [h])
@[simp] theorem execPlugDebounceExpiry_ok {s : State} (probe : ProbeResult) (inMv vmMv : Nat) (h : StoredOk (stored s)) :
    OutOk (execPlugDebounceExpiry probe inMv vmMv s) := by
  have hoff : StoredOk (parPut s.par Par.hswPresent 0, s.nv.banks) := ⟨hswPresent_off h.1, h.2⟩
  refine when_ok h ?_
  split
  · simp [h]
  · simpa using hoff
  · simp [h]
@[simp] theorem execPlugWindowExit_ok {s : State} (inMv : Nat) (h : StoredOk (stored s)) :
    OutOk (execPlugWindowExit inMv s) :=
  when_ok h (by simp [h])
@[simp] theorem execPowerGood_ok {s : State} (inMv vmMv : Nat) (h : StoredOk (stored s)) :
    OutOk (execPowerGood inMv vmMv s) :=
  when_ok h (by simp [h])
@[simp] theorem execHswSoaTimeout_ok {s : State} (h : StoredOk (stored s)) :
    OutOk (execHswSoaTimeout s) :=
  when_ok h (by simp [h])
@[simp] theorem execHswRampFastTrip_ok {s : State} (senseUv : Nat) (h : StoredOk (stored s)) :
    OutOk (execHswRampFastTrip senseUv s) :=
  when_ok h (by simp [h])
@[simp] theorem execHswRetryDelayExpiry_ok {s : State} (h : StoredOk (stored s)) :
    OutOk (execHswRetryDelayExpiry s) :=
  when_ok h (by simp [h])
@[simp] theorem execHswCbTrip_ok {s : State} (senseUv : Nat) (h : StoredOk (stored s)) :
    OutOk (execHswCbTrip senseUv s) :=
  when_ok h (by simp [h])
@[simp] theorem execHswCbFastTrip_ok {s : State} (senseUv : Nat) (h : StoredOk (stored s)) :
    OutOk (execHswCbFastTrip senseUv s) :=
  when_ok h (by simp [h])
@[simp] theorem execPowerFail_ok {s : State} (inMv : Nat) (h : StoredOk (stored s)) :
    OutOk (execPowerFail inMv s) :=
  when_ok h (by simp [h])
@[simp] theorem execPowerFailCommitDone_ok {s : State} (complete : Bool) (h : StoredOk (stored s)) :
    OutOk (execPowerFailCommitDone complete s) :=
  when_ok h (by simp [h])
@[simp] theorem execVmLowTimeout_ok {s : State} (vmMv : Nat) (h : StoredOk (stored s)) :
    OutOk (execVmLowTimeout vmMv s) :=
  when_ok h (by simp [h])
@[simp] theorem execVmUvRecoveryTimeout_ok {s : State} (vmMv : Nat) (h : StoredOk (stored s)) :
    OutOk (execVmUvRecoveryTimeout vmMv s) :=
  when_ok h (by simp [h])
@[simp] theorem execOutputOverloadTimeout_ok {s : State} (out : SupplyOut) (h : StoredOk (stored s)) :
    OutOk (execOutputOverloadTimeout out s) := by
  unfold execOutputOverloadTimeout; (repeat' split) <;> simp [h]
@[simp] theorem execWakePadEdge_ok {s : State} (stableNs : Nat) (h : StoredOk (stored s)) :
    OutOk (execWakePadEdge stableNs s) :=
  when_ok h (by simp [h])
@[simp] theorem execHspCsNWake_ok {s : State} (stableNs : Nat) (h : StoredOk (stored s)) :
    OutOk (execHspCsNWake stableNs s) :=
  when_ok h (by simp [h])
@[simp] theorem execVmReturnWake_ok {s : State} (inMv : Nat) (h : StoredOk (stored s)) :
    OutOk (execVmReturnWake inMv s) := by
  simp [execVmReturnWake, h]
@[simp] theorem execResetNAssert_ok {s : State} (stableNs : Nat) (h : StoredOk (stored s)) :
    OutOk (execResetNAssert stableNs s) :=
  when_ok h (by simp [h])
@[simp] theorem execResetNRelease_ok {s : State} (stableNs : Nat) (h : StoredOk (stored s)) :
    OutOk (execResetNRelease stableNs s) :=
  when_ok h (by simp [h])
@[simp] theorem execWatchdogService_ok {s : State} (h : StoredOk (stored s)) :
    OutOk (execWatchdogService s) :=
  when_ok h (by simp [h])
@[simp] theorem execWatchdogExpiry_ok {s : State} (h : StoredOk (stored s)) :
    OutOk (execWatchdogExpiry s) :=
  when_ok h (by simp [h])
@[simp] theorem execWatchdogResetDelayExpiry_ok {s : State} (h : StoredOk (stored s)) :
    OutOk (execWatchdogResetDelayExpiry s) :=
  when_ok h (by simp [h])

end Sys2Proof.Machine
end

section
/-!
PROOFS. The parameter values stay in range (00 R8): the step, the writes of a mailbox and a CAN request, and O52.
-/

namespace Sys2Proof.Machine
open Sys2Proof
set_option Elab.async false

/-! ### A step -/

/-- Every command keeps the values in range: each by its own lemma. -/
theorem exec_ok (c : Instr) {s : State} (h : StoredOk (stored s)) : OutOk (exec c s) := by
  cases c <;> simp [exec, h]
theorem step_paramsOk {s t : State} (h : ParamsOk s) (ht : step s = .next t) : ParamsOk t := by
  rw [paramsOk_iff] at h ⊢
  unfold step at ht
  split at ht
  · cases ht
    exact idle_ok h
  · next c rest _ => exact exec_ok c (s := { s with pending := rest }) h t ht

/-! ### What a write leaves of the resets that wait -/

/-- The resets that wait for their instant (21 R430, R431). -/
def waits (s : State) : Bool × Option Nat := (s.sum.wdogWait, s.mbx.rebootAt)

@[simp] theorem waits_ite (c : Prop) [Decidable c] (s t : State) : waits (if c then s else t) = if c then waits s else waits t :=
  apply_ite waits c s t
@[simp] theorem onAx_waits (s : State) (x : Axis) (f : AxisSt → AxisSt) : waits (onAx s x f) = waits s := by simp [waits]
@[simp] theorem raise_waits (s : State) (c : BitVec 16) (sc d : BitVec 8) (v : F32) (a : Bool) : waits (raise s c sc d v a) = waits s := by
  simp [waits]
@[simp] theorem sendMsg_waits (s : State) (tr : Transport) (m : Msg) : waits (sendMsg s tr m) = waits s := by simp [waits]
@[simp] theorem setOutputs_waits (s : State) : waits (setOutputs s) = waits s := by rfl
@[simp] theorem setChop_waits (p : ChopPhase) (s : State) : waits (setChop p s) = waits s := by rfl
@[simp] theorem auditOne_waits (role : Nat) (s : State) (e : Nat × Nat × Word × Word) : waits (auditOne role s e) = waits s := by
  simp [auditOne, waits]
@[simp] theorem nlLose_waits (s : State) (x : Axis) : waits (nlLose s x) = waits s := by
  simp only [nlLose]
  split <;> simp [raise0]
@[simp] theorem loseSync_waits (s : State) : waits (loseSync s) = waits s := by
  simp only [loseSync]
  split
  · rw [foldl_keeps (p := waits) nlLose nlLose_waits, raise0, raise_waits]
    rfl
  · rfl
@[simp] theorem netPower_waits (on : Bool) (s : State) : waits (netPower on s) = waits s := by
  have hl := loseSync_waits s
  unfold netPower
  split
  · rfl
  · show waits (if s.net.on then _ else s) = _
    rw [waits_ite]
    split
    · exact hl
    · rfl
@[simp] theorem judgeBudget_waits (s : State) (warn : Bool) : waits (judgeBudget s warn) = waits s := by
  simp only [judgeBudget]
  split
  · rw [raise_waits]; rfl
  · rfl
@[simp] theorem parHook_waits (s : State) (a : Nat) (old : Word) : waits (parHook s a old) = waits s := by
  unfold parHook
  extract_lets x v
  split
  · rw [setOutputs_waits]; rfl
  · rw [setOutputs_waits]; rfl
  all_goals simp
@[simp] theorem storePar_waits (s : State) (a : Nat) (v : Word) : waits (storePar s a v) = waits s := by
  simp only [storePar]
  split
  · rw [parHook_waits]; rfl
  · rfl
@[simp] theorem auditAll_waits (s : State) (role : Nat) (es : List (Nat × Nat × Word × Word)) : waits (auditAll s role es) = waits s := by
  unfold auditAll
  split
  · rfl
  · exact foldl_keeps (p := waits) (auditOne role) (auditOne_waits role) es s
@[simp] theorem remember_waits (s : State) (h : Hdr) (op : BitVec 16) (m : Msg) : waits (remember s h op m) = waits s := by
  unfold remember onSession
  split <;> rfl
/-- Without a reset that waits, the stored values after a command are those its meaning gives. -/
theorem done_next {z s : State} (h : waits s = (false, none)) : ∃ t, done z s = .next t ∧ stored t = stored s := by
  obtain ⟨hw, hr⟩ := Prod.mk.inj h
  have he : (endE2 s).mbx = s.mbx := by unfold endE2; split <;> rfl
  have hs : (endE2 s).sum = s.sum := by unfold endE2; split <;> rfl
  refine ⟨_, rfl, ?_⟩
  rw [settle_stored, waitingReset_calm (by rw [hs, hw]) (by rw [he, hr]), endE2_stored]

/-! ### Reading what was written -/

theorem storedAt_eq {s t : State} (h : stored t = stored s) (a : Nat) : storedAt t a = storedAt s a := by
  rw [storedAt, storedAt, show t.par = s.par from (Prod.mk.inj h).1]
/-- A write to an address leaves the values stored at every other one. -/
theorem storedAt_parPut_ne (s : State) {a b : Nat} (v : Word) (hr : Rising s.par) (h : b ≠ a) :
    storedAt { s with par := parPut s.par a v } b = storedAt s b := by
  unfold storedAt parPut mapWrite
  dsimp only
  split
  · rw [Laws.mapGet_mapDel_ne hr h]
  · rw [Laws.mapGet_mapPut_ne v hr h]
/-- What is read after a value was stored. -/
theorem storedAt_of_put {s t : State} {a : Nat} {v : Word} (h : stored t = (parPut s.par a v, s.nv.banks)) (hr : Rising s.par) :
    storedAt t a = v ∧ ∀ b, b ≠ a → storedAt t b = storedAt s b := by
  have ht : stored t = stored { s with par := parPut s.par a v } := h
  refine ⟨?_, fun b hb => ?_⟩
  · rw [storedAt_eq ht, Laws.storedAt_parPut_self s a v hr]
  · rw [storedAt_eq ht, storedAt_parPut_ne s v hr hb]

theorem storePar_stored_of {s t : State} (h : stored t = stored s) (a : Nat) (v : Word) :
    stored (storePar t a v) = (parPut s.par a v, s.nv.banks) := by
  obtain ⟨hp, hb⟩ := Prod.mk.inj h
  rw [storePar_stored, hp, hb]

/-! ### The items of a write (17 R354, Table 17.2) -/

/-- A value outside the range of a writable parameter is refused, whatever the other values. -/
theorem itemResult_outOfRange {s : State} {m : List (Nat × Word)} {i : BitVec 16} {v : Word} {d : PDef} (hd : parKnown i = some d)
    (hk : d.kind = .writable) (hv : valueOk d v = false) : itemResult s m i v ≠ 0 := by
  intro h
  obtain ⟨e, he, hke⟩ := itemResult_accepts h
  cases hd.symm.trans he
  rcases hke with hc | ⟨-, hr⟩
  · cases hk.symm.trans hc
  · cases hv.symm.trans hr
theorem parItems_refuses {s : State} {k : Nat} {m : List (Nat × Word)} {l : List (BitVec 16 × Word)} {i : BitVec 16} {v : Word} {d : PDef}
    (hi : (i, v) ∈ l) (hd : parKnown i = some d) (hk : d.kind = .writable) (hv : valueOk d v = false) :
    ∃ r n, (parItems s k m l).2 = some (r, n) := by
  cases h : (parItems s k m l).2 with
  | some r => exact ⟨r.1, r.2, rfl⟩
  | none =>
    obtain ⟨n, hn⟩ := parItems_accepts (m' := (parItems s k m l).1) (Prod.ext rfl h) (i, v) hi
    exact absurd hn (itemResult_outOfRange hd hk hv)
theorem counter_false {i : BitVec 16} {d : PDef} (hd : parKnown i = some d) (hk : d.kind = .writable) :
    (parKnown i).any (fun d => d.kind == .counter) = false := by
  simp [hd, hk]
theorem parItems_one {s : State} {i : BitVec 16} {v : Word} {d : PDef} (hd : parKnown i = some d) (hk : d.kind = .writable)
    (hr : itemResult s s.par i v = 0) : parItems s 0 s.par [(i, v)] = (parPut s.par i.toNat v, none) := by
  simp [parItems, hr, counter_false hd hk]
theorem applyItem_writable {s : State} {i : BitVec 16} {v : Word} {d : PDef} (hd : parKnown i = some d) (hk : d.kind = .writable) :
    applyItem s (i, v) = storePar s i.toNat v := by
  simp [applyItem, counter_false hd hk]

/-! ### Requests that are served, and refused -/

theorem roleNo_pos (r : Role) : 0 < roleNo r := by cases r <;> decide
/-- A request that is granted runs its command with the role of its session. -/
theorem serve_granted {s : State} {h : Hdr} {op : BitVec 16} {n : Nat} (run : Nat → Ans) (hg : Granted s h op n) :
    serve s h op (.role n) none run = conclude s h op (run (actsAs s h)) := by
  obtain ⟨-, ⟨-, hsv, hl, hb, hr⟩, ⟨se, hse, hau, hn⟩, -⟩ := hg
  have hact : actsAs s h = roleNo se.role := by simp [actsAs, hse, hau]
  have hneed : needFails s h (romNeed s op (.role n)) = none := by
    have : ¬ roleNo se.role = 0 := Nat.ne_of_gt (roleNo_pos _)
    simp [romNeed, hsv, needFails, hse, hact, this, Nat.not_lt.mpr hn]
  simp [serve, hl, romServes, hsv, hr, hneed, hb, lower]
theorem serves_granted {s : State} {h : Hdr} {op : BitVec 16} {n : Nat} (hg : Granted s h op n) : serves s h = true := by
  obtain ⟨-, ⟨⟨hup, hpf⟩, -⟩, -⟩ := hg
  simp [serves, hup, hpf]
theorem audited_granted {s : State} {role : Nat} {es : List (Nat × Nat × Word × Word)} {k : State → Ans} (h : s.nv.auditOk = true) :
    audited s role es k = k (auditAll s role es) := by
  unfold audited auditAll
  by_cases hr : role < 2
  · simp [hr]
  · cases es <;> simp [hr, h]
theorem conclude_ok_empty {s t : State} {h : Hdr} {op : BitVec 16} :
    conclude s h op (.ok t []) = sendMsg (remember t h op (mkReply op h 0 0 [])) h.tr (mkReply op h 0 0 []) := by
  have : tooLong h [] = none := by
    unfold tooLong payloadLimit
    cases h.tr with
    | host => rfl
    | backbone src =>
      have : 4 ≤ if src.udp = 0 then 1476 else 1448 := by split <;> decide
      simpa using this
  simp [conclude, this]

/-- A request whose command answers with an error sends a message and may note its session's time; it does nothing else. -/
theorem serve_refused {s : State} {h : Hdr} {op : BitVec 16} {n : Need} {bad : Option Nat} {run : Nat → Ans}
    (hr : ∀ role, ∃ r d l, run role = .no r d l) :
    ∃ l m, serve s h op n bad run = sendMsg { s with mbx.sessions := l } h.tr m := by
  unfold serve
  split
  · exact ⟨s.mbx.sessions, _, rfl⟩
  split
  · exact ⟨s.mbx.sessions, _, rfl⟩
  split
  · unfold onSession
    split
    · exact ⟨s.mbx.sessions, _, rfl⟩
    · exact ⟨_, _, rfl⟩
  split
  · exact ⟨s.mbx.sessions, _, rfl⟩
  split
  · exact ⟨s.mbx.sessions, _, rfl⟩
  · obtain ⟨r, d, l, he⟩ := hr (actsAs s h)
    rw [he]
    exact ⟨s.mbx.sessions, _, rfl⟩
theorem onlyChanges_refl (ps : List Part) (s : State) : OnlyChanges ps s s :=
  ⟨rfl, fun p _ => by cases p <;> rfl⟩
/-- Sessions and a message that leaves are the mailbox's and the queues'. -/
theorem sendMsg_onlyChanges (s : State) (l : List (Option Session)) (tr : Transport) (m : Msg) :
    OnlyChanges ([.mbx] ++ messages) s (sendMsg { s with mbx.sessions := l } tr m) := by
  refine ⟨by simp, fun p hp => ?_⟩
  cases p with
  | mbx | hspMsg | mbxMsg => exact absurd (by decide) hp
  | _ => simp [Same]
/-- In a calm state a request that is refused changes sessions and message queues only. -/
theorem request_refused {s : State} {h : Hdr} {op : BitVec 16} {n : Need} {bad : Option Nat} {run : Nat → Ans} (hc : Calm s)
    (hr : ∀ role, ∃ r d l, run role = .no r d l) :
    ∃ t, request s h op n bad run = .next t ∧ OnlyChanges ([.mbx] ++ messages) s t := by
  obtain ⟨hw, hb, he⟩ := hc
  obtain ⟨l, m, ht⟩ := serve_refused (s := s) (h := h) (op := op) (n := n) (bad := bad) hr
  unfold request
  rw [ht]
  cases hs : serves s h with
  | false => exact ⟨s, rfl, onlyChanges_refl _ s⟩
  | true =>
    refine ⟨_, when_still rfl ?_ ?_ ?_ (pwrState_keep ?_ ?_ ?_ ?_) ?_, sendMsg_onlyChanges s l h.tr m⟩
    all_goals simp [hw, hb, he]

/-! ### The obligation, clause by clause -/

theorem parSet_outOfRange {s : State} {h : Hdr} {items : List (BitVec 16 × Word)} {i : BitVec 16} {v : Word} {d : PDef} (hc : Calm s)
    (hi : (i, v) ∈ items) (hd : parKnown i = some d) (hk : d.kind = .writable) (hv : valueOk d v = false) :
    ∃ t, exec (.parSet h items) s = .next t ∧ OnlyChanges ([.mbx] ++ messages) s t := by
  obtain ⟨code, n, hp⟩ := parItems_refuses (s := s) (k := 0) (m := s.par) hi hd hk hv
  refine request_refused hc fun role => ⟨code, n, [], ?_⟩
  dsimp only
  rw [hp]
theorem canParWrite_outOfRange {s : State} {i : BitVec 16} {v : Word} {d : PDef} (hd : parKnown i = some d) (hk : d.kind = .writable)
    (hv : valueOk d v = false) : ∃ e, canParWrite s i v = .error e := by
  obtain ⟨code, n, hp⟩ := parItems_refuses (s := s) (k := 0) (m := s.par) List.mem_cons_self hd hk hv
  unfold canParWrite
  split
  · exact ⟨_, rfl⟩
  · rw [hp]
    exact ⟨_, rfl⟩
theorem parSet_stores {s : State} {h : Hdr} {i : BitVec 16} {v : Word} {d : PDef} (hg : Granted s h 0x0202 (max 1 (itemRole i)))
    (hd : parKnown i = some d) (hk : d.kind = .writable) (hr : itemResult s s.par i v = 0) (hm : Rising s.par) :
    ∃ t, exec (.parSet h [(i, v)]) s = .next t ∧ storedAt t i.toNat = v ∧ ∀ a, a ≠ i.toNat → storedAt t a = storedAt s a := by
  obtain ⟨⟨hw, hb, -⟩, -, -, ha⟩ := id hg
  have hx : ∃ z, exec (.parSet h [(i, v)]) s = done s z ∧ stored z = (parPut s.par i.toNat v, s.nv.banks) ∧ waits z = waits s := by
    show ∃ z, request s h 0x0202 (.role (max 1 (itemRole i))) none _ = done s z ∧ _
    rw [request, when_eq, if_pos (serves_granted hg), serve_granted _ hg]
    dsimp only
    rw [parItems_one hd hk hr]
    dsimp only
    rw [audited_granted ha, conclude_ok_empty]
    refine ⟨_, rfl, ?_, ?_⟩
    · simpa [applyItem_writable hd hk] using storePar_stored_of (auditAll_stored s _ _) i.toNat v
    · simp [applyItem_writable hd hk]
  obtain ⟨z, hz, hs, hz'⟩ := hx
  obtain ⟨t, ht, hts⟩ := done_next (z := s) (hz'.trans (Prod.ext hw hb))
  exact ⟨t, hz.trans ht, storedAt_of_put (hts.trans hs) hm⟩
theorem canParWrite_stores {s : State} {i : BitVec 16} {v : Word} {d : PDef} (hd : parKnown i = some d) (hk : d.kind = .writable)
    (hr : itemResult s s.par i v = 0) (hrole : itemRole i ≤ (parD s Par.canRole).toNat) (hm : Rising s.par) :
    ∃ t, canParWrite s i v = .ok t ∧ storedAt t i.toNat = v ∧ ∀ a, a ≠ i.toNat → storedAt t a = storedAt s a := by
  refine ⟨storePar s i.toNat v, ?_, storedAt_of_put (storePar_stored s i.toNat v) hm⟩
  simp [canParWrite, Nat.not_lt.mpr hrole, parItems_one hd hk hr, applyItem_writable hd hk]

/-- Settles O52: an out-of-range item refuses the whole write, an accepted one is stored by `storePar`, and no command or passing
time writes a stored value that was not checked, since each keeps `StoredOk`. -/
theorem parameterValuesStayInRange : Obligations.ParameterValuesStayInRange :=
  ⟨fun _ _ _ _ _ _ => parSet_outOfRange, fun _ _ _ _ => canParWrite_outOfRange, fun _ _ _ _ _ => parSet_stores,
    fun _ _ _ _ => canParWrite_stores, fun _ _ => step_paramsOk⟩

end Sys2Proof.Machine
end

section
/-!
SUPPORT. Frames of the shared operations: what a change of one axis or engine, a raise, an ended cause and the observers of a
completed command may touch.
-/

namespace Sys2Proof.Machine
open Sys2Proof
set_option Elab.async false

/-! ### Composing frames -/

theorem OnlyChanges.trans {ps : List Part} {s t u : State} (h : OnlyChanges ps s t) (k : OnlyChanges ps t u) : OnlyChanges ps s u := by
  refine ⟨k.1.trans h.1, fun p hp => ?_⟩
  have hs := h.2 p hp
  have ht := k.2 p hp
  cases p <;> exact Eq.trans ht hs
theorem OnlyChanges.mono {ps qs : List Part} {s t : State} (h : OnlyChanges ps s t) (hq : ps ⊆ qs) : OnlyChanges qs s t :=
  ⟨h.1, fun p hp => h.2 p fun m => hp (hq m)⟩
/-- A chain of changes stays within the parts its steps may touch. -/
theorem OnlyChanges.of_foldl {α : Type} {ps : List Part} {f : State → α → State} {l : List α}
    (h : ∀ s, ∀ a ∈ l, OnlyChanges ps s (f s a)) (s : State) : OnlyChanges ps s (l.foldl f s) :=
  List.foldlRecOn l f (motive := OnlyChanges ps s) (onlyChanges_refl ps s) fun t ht a ha => ht.trans (h t a ha)
theorem OnlyChanges.axis_eq {ps : List Part} {s t : State} (h : OnlyChanges ps s t) {x : Axis} (hx : axPart x ∉ ps) :
    getAx t x = getAx s x := by
  have := h.2 _ hx
  cases x <;> exact this
@[simp] theorem axPart_inj {x y : Axis} : axPart x = axPart y ↔ x = y := by cases x <;> cases y <;> decide

/-! ### One axis, one engine -/

theorem onAx_onlyChanges (s : State) (x : Axis) (f : AxisSt → AxisSt) : OnlyChanges [axPart x] s (onAx s x f) := by
  refine ⟨by simp, fun p hp => ?_⟩
  cases x with
  | a =>
    cases p with
    | axisA => exact absurd (by decide) hp
    | _ => rfl
  | b =>
    cases p with
    | axisB => exact absurd (by decide) hp
    | _ => rfl
theorem onEng_onlyChanges (s : State) (e : Engine) (f : EngineSt → EngineSt) : OnlyChanges [.ridge] s (onEng s e f) := by
  refine ⟨by simp, fun p hp => ?_⟩
  cases p with
  | ridge => exact absurd (by decide) hp
  | _ => simp [Same]
@[simp] theorem getEng_onAx (s : State) (x : Axis) (f : AxisSt → AxisSt) (e : Engine) : getEng (onAx s x f) e = getEng s e := by
  cases e <;> simp [getEng]
@[simp] theorem getAx_onEng (s : State) (e : Engine) (f : EngineSt → EngineSt) (x : Axis) : getAx (onEng s e f) x = getAx s x := by
  simp [getAx]

/-! ### Records, ended causes, observers -/

theorem record_onlyChanges (s : State) (c : BitVec 16) (sc d : BitVec 8) (v : F32) (a : Bool) :
    OnlyChanges signals s (record s c sc d v a) := by
  refine ⟨by simp, fun p hp => ?_⟩
  cases p with
  | flt | nvLog | canMsg | hspMsg | mbxMsg => exact absurd (by decide) hp
  | _ => simp [Same]
/-- The cause of a fault other than a LIMIT ends in its entry alone (12 R277). -/
theorem endCause_onlyChanges {c : BitVec 16} (hc : codeClass c ≠ 3) (s : State) (sc d : BitVec 8) :
    OnlyChanges [.flt] s (endCause s c sc d) := by
  unfold endCause
  split
  · exact onlyChanges_refl _ s
  · refine ⟨by simp [hc], fun p hp => ?_⟩
    cases p with
    | flt => exact absurd (by decide) hp
    | _ => simp [Same, hc]
/-- Messages and the interrupt bits they set are all the observers of a command leave. -/
theorem settle_onlyChanges (z s : State) : OnlyChanges messages s (settle z s) := by
  refine ⟨by simp, fun p hp => ?_⟩
  cases p with
  | hspMsg | mbxMsg => exact absurd (by decide) hp
  | _ => simp [Same]
/-- With power state, axis states and locks as before the observers have nothing to report (17 R362). -/
theorem settle_unmoved {z s : State} (hp : pwrState z = pwrState s) (hs : ∀ x, (getAx z x).start.ax = (getAx s x).start.ax)
    (hl : ∀ x, (getAx z x).pwm.nl = (getAx s x).pwm.nl) : settle z s = s := by
  have ha := hs .a
  have hb := hs .b
  have la := hl .a
  have lb := hl .b
  simp only [getAx, twoGet] at ha hb la lb
  simp [settle, hp, ha, hb, la, lb]
theorem endLong_onlyChanges (s : State) (op : BitVec 16) (h : Hdr) (r d : Nat) (l : List Byte) :
    OnlyChanges (.mbx :: signals) s (endLong s op h r d l) := by
  refine ⟨by simp, fun p hp => ?_⟩
  cases p with
  | mbx | flt | nvLog | canMsg | hspMsg | mbxMsg => exact absurd (by decide) hp
  | _ => simp [Same]

/-! ### Stops -/

@[simp] theorem setAx_hbLoss (st : AxState) (a : AxisSt) : (setAx st a).seq.hbLoss = a.seq.hbLoss := by
  unfold setAx
  dsimp only
  split <;> rfl
@[simp] theorem disableAxis_hbLoss (a : AxisSt) : (disableAxis a).seq.hbLoss = a.seq.hbLoss := setAx_hbLoss _ _

/-- A change of one axis that leaves its HB_LOSS flag: all a stop and the motor measurement it abandons do to the axes. -/
def StopsAxis (x : Axis) (s t : State) : Prop :=
  ∃ f : AxisSt → AxisSt, (∀ a, (f a).seq.hbLoss = a.seq.hbLoss) ∧ t = onAx s x f
theorem StopsAxis.refl (x : Axis) (s : State) : StopsAxis x s s := ⟨id, fun _ => rfl, by cases x <;> rfl⟩
theorem StopsAxis.of {x : Axis} {s : State} {f : AxisSt → AxisSt} (h : ∀ a, (f a).seq.hbLoss = a.seq.hbLoss) :
    StopsAxis x s (onAx s x f) := ⟨f, h, rfl⟩
theorem StopsAxis.then {x : Axis} {s t : State} (h : StopsAxis x s t) {f : AxisSt → AxisSt}
    (hf : ∀ a, (f a).seq.hbLoss = a.seq.hbLoss) : StopsAxis x s (onAx t x f) := by
  obtain ⟨g, hg, rfl⟩ := h
  exact ⟨fun a => f (g a), fun a => (hf _).trans (hg a), by cases x <;> rfl⟩
theorem StopsAxis.onlyChanges {x : Axis} {s t : State} (h : StopsAxis x s t) : OnlyChanges [axPart x] s t := by
  obtain ⟨f, -, rfl⟩ := h
  exact onAx_onlyChanges s x f
theorem StopsAxis.hbLoss {x : Axis} {s t : State} (h : StopsAxis x s t) (y : Axis) :
    (getAx t y).seq.hbLoss = (getAx s y).seq.hbLoss := by
  obtain ⟨f, hf, rfl⟩ := h
  by_cases e : x = y
  · subst e; simp [hf]
  · rw [getAx_onAx_other s x y f e]

theorem beginStop_stops (s : State) (x : Axis) (k : StopKind) : StopsAxis x s (beginStop s x k) := by
  have hd : StopsAxis x s (onAx s x fun a => disableAxis (brakeOff a)) := .of fun a => disableAxis_hbLoss (brakeOff a)
  have hr : StopsAxis x s (onAx s x fun a => { a with start.retryNext := false, start.failReason := 0 }) := .of fun _ => rfl
  unfold beginStop
  extract_lets a w
  split
  · exact .refl x s
  · exact .refl x s
  · exact hd
  · exact hd
  · exact hd
  split
  · exact hd
  split
  · exact hr
  split
  · exact hr.then fun a => setAx_hbLoss _ (brakeOff a)
  split
  · exact hr.then fun a => setAx_hbLoss _ (brakeOff a)
  · exact hr.then fun a => setAx_hbLoss _ a
theorem dropMotor_stops (s : State) (x : Axis) : StopsAxis x s (dropMotor s x) := by
  unfold dropMotor
  split
  · split
    · exact .of fun _ => rfl
    · exact .refl x s
  · split
    · exact .of fun _ => rfl
    · exact .refl x s
  · exact .refl x s

theorem endMotor_onlyChanges (s : State) (x : Axis) : OnlyChanges (axPart x :: .mbx :: signals) s (endMotor s x) := by
  unfold endMotor
  split
  · split
    · refine .trans (.trans ((onAx_onlyChanges s x _).mono ?_) ((record_onlyChanges _ _ _ _ _ _).mono ?_))
        ((endLong_onlyChanges _ _ _ _ _ _).mono ?_)
      all_goals simp
    · exact onlyChanges_refl _ s
  · split
    · exact (endLong_onlyChanges s _ _ _ _ _).mono (List.subset_cons_self _ _)
    · exact onlyChanges_refl _ s
  · exact onlyChanges_refl _ s
/-- A stop request acts on its axis and on what the end of a motor measurement may touch. -/
theorem requestStop_onlyChanges (s : State) (x : Axis) (k : StopKind) :
    OnlyChanges (axPart x :: .mbx :: signals) s (requestStop s x k) := by
  refine .trans (.trans ((beginStop_stops s x k).onlyChanges.mono ?_) ((dropMotor_stops _ x).onlyChanges.mono ?_))
    (endMotor_onlyChanges _ x)
  all_goals simp
/-- A raise acts on the axes its scope names, beside what recording a code touches and the measurements it abandons. -/
theorem raise_onlyChanges (s : State) (c : BitVec 16) (sc d : BitVec 8) (v : F32) (a : Bool) :
    OnlyChanges ((scopeAxes sc).map axPart ++ .mbx :: signals) s (raise s c sc d v a) := by
  have hr : OnlyChanges ((scopeAxes sc).map axPart ++ .mbx :: signals) s (record s c sc d v a) :=
    (record_onlyChanges s c sc d v a).mono fun p hp => by simp [hp]
  unfold raise
  split
  · refine hr.trans (OnlyChanges.of_foldl (fun t x hx => (requestStop_onlyChanges t x _).mono ?_) _)
    exact List.cons_subset.mpr ⟨by simpa using Or.inl hx, List.subset_append_right _ _⟩
  · exact hr

theorem endMotor_hbLoss (s : State) (x y : Axis) : (getAx (endMotor s x) y).seq.hbLoss = (getAx s y).seq.hbLoss := by
  unfold endMotor
  split
  · split
    · have h := (StopsAxis.of (x := x) (s := s) (f := fun a => { a with crest.identStatus := 0x73 }) fun _ => rfl).hbLoss y
      simpa [getAx] using h
    · rfl
  · split
    · simp [getAx]
    · rfl
  · rfl
theorem requestStop_hbLoss (s : State) (x : Axis) (k : StopKind) (y : Axis) :
    (getAx (requestStop s x k) y).seq.hbLoss = (getAx s y).seq.hbLoss := by
  rw [requestStop, abandonMotor, endMotor_hbLoss, (dropMotor_stops _ x).hbLoss, (beginStop_stops s x k).hbLoss]
/-- No raise changes whether an axis has lost its supervisor. -/
theorem raise_hbLoss (s : State) (c : BitVec 16) (sc d : BitVec 8) (v : F32) (a : Bool) (y : Axis) :
    (getAx (raise s c sc d v a) y).seq.hbLoss = (getAx s y).seq.hbLoss := by
  unfold raise
  dsimp only
  split
  · rw [foldl_keeps (p := fun t => (getAx t y).seq.hbLoss) _ fun t x => requestStop_hbLoss t x _ y]
    simp [getAx]
  · simp [getAx]

/-! ### Raised codes stay -/

/-- Time, log and active list stand: what is raised stays raised. -/
structure RaisesKept (s t : State) : Prop where
  time : stamp t = stamp s
  log : LogSub s t
  list : t.flt.list = s.flt.list
theorem RaisesKept.trans {s t u : State} (h : RaisesKept s t) (k : RaisesKept t u) : RaisesKept s u :=
  ⟨k.time.trans h.time, h.log.trans k.log, k.list.trans h.list⟩
theorem RaisesKept.of_eq {s t : State} (hc : t.clk.now = s.clk.now) (hn : t.net = s.net) (hp : t.pwr = s.pwr) (hf : t.flt = s.flt)
    (hv : t.nv.log = s.nv.log) : RaisesKept s t :=
  ⟨stamp_keep hc hn (by rw [hp]), .of_eq hv (by rw [hf]), by rw [hf]⟩
theorem RaisesKept.refl (s : State) : RaisesKept s s := .of_eq rfl rfl rfl rfl rfl
theorem RaisesKept.raised {s t : State} (h : RaisesKept s t) {c : BitVec 16} {sc d : BitVec 8} (hr : Raised s c sc d) : Raised t c sc d :=
  hr.keep h.time h.log h.list
theorem onAx_raisesKept (s : State) (x : Axis) (f : AxisSt → AxisSt) : RaisesKept s (onAx s x f) :=
  .of_eq (by simp) (by simp) (by simp) (by simp) (by simp)

theorem record_raisesKept (s : State) {c : BitVec 16} (hc : codeClass c < 3) (sc d : BitVec 8) (v : F32) (a : Bool) :
    RaisesKept s (record s c sc d v a) :=
  ⟨record_stamp s c sc d v a, record_log s c sc d v a, by rw [record_list, if_neg (Nat.not_le.mpr hc)]⟩
theorem endLong_raisesKept (s : State) (op : BitVec 16) (h : Hdr) (r d : Nat) (l : List Byte) : RaisesKept s (endLong s op h r d l) :=
  .of_eq (by simp) (by simp) (by simp) (by simp) (by simp)
theorem endMotor_raisesKept (s : State) (x : Axis) : RaisesKept s (endMotor s x) := by
  unfold endMotor
  split
  · split
    · exact ((onAx_raisesKept s x _).trans (record_raisesKept _ (by decide) _ _ _ _)).trans (endLong_raisesKept _ _ _ _ _ _)
    · exact .refl _
  · split
    · exact endLong_raisesKept s _ _ _ _ _
    · exact .refl _
  · exact .refl _
theorem StopsAxis.raisesKept {x : Axis} {s t : State} (h : StopsAxis x s t) : RaisesKept s t := by
  obtain ⟨f, -, rfl⟩ := h
  exact onAx_raisesKept s x f
theorem requestStop_raisesKept (s : State) (x : Axis) (k : StopKind) : RaisesKept s (requestStop s x k) :=
  ((beginStop_stops s x k).raisesKept.trans (dropMotor_stops _ x).raisesKept).trans (endMotor_raisesKept _ x)
/-- What a raise does after its record leaves the log's and the list's entries. -/
theorem record_raisesKept_raise (s : State) (c : BitVec 16) (sc d : BitVec 8) (v : F32) (a : Bool) :
    RaisesKept (record s c sc d v a) (raise s c sc d v a) := by
  unfold raise
  dsimp only
  split
  · exact List.foldlRecOn _ _ (motive := RaisesKept _) (.refl _) fun t ht x _ => ht.trans (requestStop_raisesKept t x _)
  · exact .refl _
/-- A raise of any class: logged, and listed from class 3 on. -/
theorem raise_raised (s : State) (c : BitVec 16) (sc d : BitVec 8) (v : F32) (a : Bool) : Raised (raise s c sc d v a) c sc d :=
  (record_raisesKept_raise s c sc d v a).raised (record_raised s c sc d v a)
theorem raise_room {s : State} {n : Nat} (h : Room s (n + 1)) (c : BitVec 16) (sc d : BitVec 8) (v : F32) (a : Bool) :
    Room (raise s c sc d v a) n := by
  have hr := (record_keeps (c := c) (sc := sc) (d := d) (v := v) (a := a) h).1
  unfold Room at hr ⊢
  rwa [(record_raisesKept_raise s c sc d v a).list]
/-- With room in the list a raise keeps what was raised before it (12 R276). -/
theorem raise_keeps_raised {s : State} {n : Nat} (h : Room s (n + 1)) (c : BitVec 16) (sc d : BitVec 8) (v : F32) (a : Bool)
    {c' : BitVec 16} {sc' d' : BitVec 8} (hr : Raised s c' sc' d') : Raised (raise s c sc d v a) c' sc' d' := by
  refine (record_raisesKept_raise s c sc d v a).raised ⟨?_, fun h3 => (record_keeps h).2 _ _ _ (hr.2 h3)⟩
  exact hr.1.mono (record_stamp s c sc d v a) (record_log s c sc d v a)

/-! ### Calm states -/

theorem setClk_onlyChanges (s : State) (k : ClockSt) : OnlyChanges [.clk] s { s with clk := k } := by
  refine ⟨rfl, fun p hp => ?_⟩
  cases p with
  | clk => exact absurd (by decide) hp
  | _ => rfl

/-- What leaves the commanded resets and stage E2 alone leaves a state calm. -/
theorem Calm.of_eq {s t : State} (h : Calm s) (hs : t.sum = s.sum) (hb : t.bus = s.bus) (hr : t.mbx.rebootAt = s.mbx.rebootAt) : Calm t := by
  unfold Calm at *
  rwa [hs, hb, hr]
theorem OnlyChanges.calm {ps : List Part} {s t : State} (h : OnlyChanges ps s t) (hc : Calm s)
    (hp : ∀ p ∈ [Part.sum, .bus, .mbx], p ∉ ps) : Calm t := by
  have hr : (mbxCore t.mbx).rebootAt = (mbxCore s.mbx).rebootAt := congrArg MboxSt.rebootAt (h.2 .mbx (hp _ (by decide)))
  exact hc.of_eq (h.2 .sum (hp _ (by decide))) (h.2 .bus (hp _ (by decide))) hr
/-- A guarded effect in a calm state: the meaning's state, and the observers' messages. -/
theorem when_settles {s t : State} {c : Bool} (hc : c = true) (ht : Calm t) : when_ s c t = .next (settle s t) :=
  when_calm hc ht.2.2 ht.1 ht.2.1
/-- Nothing is reported where power state, axis states and locks stand. -/
theorem when_unmoved {ps : List Part} {s t : State} {c : Bool} (hc : c = true) (hs : Calm s) (h : OnlyChanges ps s t)
    (hp : ∀ p ∈ [Part.sum, .bus, .mbx, .pwr, .boot], p ∉ ps)
    (hx : ∀ x, (getAx t x).pwm = (getAx s x).pwm ∧ (getAx t x).start = (getAx s x).start) : when_ s c t = .next t := by
  have ht : Calm t := h.calm hs fun p m => hp p (by revert p; decide)
  have hg : ∀ x, gatesOn (getAx s x) = gatesOn (getAx t x) := fun x => by simp [gatesOn, (hx x).1]
  have hb : s.boot.service = t.boot.service := congrArg BootSt.service (h.2 .boot (hp _ (by decide))).symm
  rw [when_settles hc ht, settle_unmoved (pwrState_keep (h.2 .pwr (hp _ (by decide))).symm hb (hg .a) (hg .b))]
  · exact fun x => by rw [(hx x).2]
  · exact fun x => by rw [(hx x).1]
/-- A command that leaves both axes reports nothing. -/
theorem when_axes_kept {ps : List Part} {s t : State} {c : Bool} (hc : c = true) (hs : Calm s) (h : OnlyChanges ps s t)
    (hp : ∀ p ∈ [Part.sum, .bus, .mbx, .pwr, .boot, .axisA, .axisB], p ∉ ps) : when_ s c t = .next t :=
  when_unmoved hc hs h (fun p m => hp p (by revert p; decide)) fun x => by
    rw [h.axis_eq (hp _ (by cases x <;> decide))]
    exact ⟨rfl, rfl⟩

end Sys2Proof.Machine
end

section
/-!
SUPPORT. The heartbeat and its loss (01 R17, 15 R320; 10 Table 10.9).
-/

namespace Sys2Proof.Machine
open Sys2Proof
set_option Elab.async false

/-! ### The heartbeat's way to the sequencers (01 R17, 15 R320) -/

theorem seeHeartbeat_onlyChanges (s : State) (e : Engine) : OnlyChanges [.ridge] s (seeHeartbeat s e) := by
  unfold seeHeartbeat
  split
  · exact onlyChanges_refl _ s
  · exact onEng_onlyChanges s e _
@[simp] theorem seeHeartbeat_clk (s : State) (e : Engine) : (seeHeartbeat s e).clk = s.clk := by
  unfold seeHeartbeat
  split <;> simp
theorem seeHeartbeat_same (s : State) (e : Engine) : (getEng (seeHeartbeat s e) e).heartbeat =
    if s.clk.colFlags.getLsbD (engNo e) then (getEng s e).heartbeat else s.clk.heartbeat := by
  unfold seeHeartbeat
  split <;> simp
theorem seeHeartbeat_other (s : State) {e f : Engine} (h : e ≠ f) : getEng (seeHeartbeat s e) f = getEng s f := by
  unfold seeHeartbeat
  split
  · rfl
  · exact getEng_onEng_other s e f _ h
theorem seeHeartbeat_both (s : State) (e : Engine) : (getEng (seeHeartbeat (seeHeartbeat s .rga) .rgb) e).heartbeat =
    if s.clk.colFlags.getLsbD (engNo e) then (getEng s e).heartbeat else s.clk.heartbeat := by
  cases e with
  | rga => rw [seeHeartbeat_other _ (by decide), seeHeartbeat_same]
  | rgb => rw [seeHeartbeat_same, seeHeartbeat_clk, seeHeartbeat_other _ (by decide)]

/-! ### A lost supervisor (01 R17; 10 Table 10.9) -/

/-- An axis has lost its supervisor: HB_LOSS, its brake output off, and STOP 0x4A06 raised. -/
def SupervisorLost (t : State) (x : Axis) : Prop :=
  (getAx t x).seq.hbLoss = true ∧ (getAx t x).stage.brake = .off ∧ Raised t 0x4A06 (scopeOf x) 0xFF

/-- What the lost supervisor of these axes may touch. -/
def lossParts (l : List Axis) : List Part := l.map axPart ++ ([.clk, .mbx] ++ signals)
@[simp] theorem axPart_mem_lossParts {x : Axis} {l : List Axis} : axPart x ∈ lossParts l ↔ x ∈ l := by
  have h : axPart x ∉ [Part.clk, .mbx] ++ signals := by cases x <;> decide
  rw [lossParts, List.mem_append, or_iff_left h]
  simp
theorem lossParts_subset (l : List Axis) : lossParts l ⊆ [Part.clk, Part.axisA, Part.axisB, Part.mbx] ++ signals := by
  refine List.append_subset.mpr ⟨fun p hp => ?_, by decide⟩
  obtain ⟨x, -, rfl⟩ := List.mem_map.mp hp
  cases x <;> decide
theorem lossParts_other (l : List Axis) : [Part.clk, .mbx] ++ signals ⊆ lossParts l := List.subset_append_right _ _
theorem OnlyChanges.loss {ps : List Part} {s t : State} (h : OnlyChanges ps s t) (hp : ps ⊆ [Part.clk, .mbx] ++ signals) (l : List Axis) :
    OnlyChanges (lossParts l) s t := h.mono (List.Subset.trans hp (lossParts_other l))

@[simp] theorem scopeAxes_scopeOf (x : Axis) : scopeAxes (scopeOf x) = [x] := by cases x <;> rfl
theorem loseSupervisor_onlyChanges (s : State) (x : Axis) : OnlyChanges (lossParts [x]) s (loseSupervisor s x) := by
  have hx : ∀ t f, OnlyChanges (lossParts [x]) t (onAx t x f) := fun t f => (onAx_onlyChanges t x f).mono (by simp)
  have hr := raise_onlyChanges (onAx s x fun a => { a with seq.hbLoss := true }) 0x4A06 (scopeOf x) noDetail fnan true
  rw [scopeAxes_scopeOf] at hr
  exact ((hx s _).trans (hr.mono (by cases x <;> decide))).trans (hx _ _)
theorem loseSupervisor_lost (s : State) (x : Axis) : SupervisorLost (loseSupervisor s x) x := by
  refine ⟨?_, ?_, (onAx_raisesKept _ x brakeOff).raised (raise_raised _ _ _ _ _ _)⟩
  · simp [loseSupervisor, brakeOff, raise1, raise_hbLoss]
  · simp [loseSupervisor, brakeOff]
theorem loseSupervisor_room {s : State} {n : Nat} (h : Room s (n + 1)) (x : Axis) : Room (loseSupervisor s x) n := by
  have hs : Room (onAx s x fun a => { a with seq.hbLoss := true }) (n + 1) := by simpa [Room] using h
  have hr : Room (raise1 _ _ _ _) n := raise_room hs 0x4A06 (scopeOf x) noDetail fnan true
  simpa [Room, loseSupervisor] using hr
theorem loseSupervisor_keeps_lost {s : State} {n : Nat} (h : Room s (n + 1)) {x : Axis} (hx : SupervisorLost s x) (y : Axis) :
    SupervisorLost (loseSupervisor s y) x := by
  by_cases e : x = y
  · subst e
    exact loseSupervisor_lost s x
  · obtain ⟨hb, hk, hr⟩ := hx
    have ha : getAx (loseSupervisor s y) x = getAx s x := (loseSupervisor_onlyChanges s y).axis_eq (by simpa using e)
    have hs : Room (onAx s y fun a => { a with seq.hbLoss := true }) (n + 1) := by simpa [Room] using h
    exact ⟨by rw [ha, hb], by rw [ha, hk],
      (onAx_raisesKept _ y brakeOff).raised (raise_keeps_raised hs _ _ _ _ _ ((onAx_raisesKept s y _).raised hr))⟩
/-- With room for a code of each axis, each of them loses its supervisor, and one that had lost it stays so. -/
theorem foldl_loseSupervisor_lost {l : List Axis} {s : State} (h : Room s l.length) {x : Axis} (hx : x ∈ l ∨ SupervisorLost s x) :
    SupervisorLost (l.foldl loseSupervisor s) x := by
  induction l generalizing s with
  | nil => exact hx.resolve_left List.not_mem_nil
  | cons y l ih =>
    refine ih (loseSupervisor_room h y) ?_
    rcases hx with hm | hl
    · rcases List.mem_cons.mp hm with rfl | hm
      · exact .inr (loseSupervisor_lost s x)
      · exact .inl hm
    · exact .inr (loseSupervisor_keeps_lost h hl y)
theorem foldl_loseSupervisor_onlyChanges (l : List Axis) (s : State) : OnlyChanges (lossParts l) s (l.foldl loseSupervisor s) :=
  OnlyChanges.of_foldl (fun t x hx => (loseSupervisor_onlyChanges t x).mono
    (List.append_subset.mpr ⟨by simpa using hx, lossParts_other l⟩)) s
theorem settle_lost {z s : State} {x : Axis} (h : SupervisorLost s x) : SupervisorLost (settle z s) x := by
  obtain ⟨hb, hk, hr⟩ := h
  exact ⟨by simpa [getAx] using hb, by simpa [getAx] using hk, settle_raised hr⟩
theorem hostedOn_length (s : State) (e : Engine) : (hostedOn s e).length ≤ 2 := List.length_filter_le _ bothAxes

/-! ### The heartbeat stays out (01 R17) -/

/-- The axes an engine hosts lose their supervisor one after the other. -/
def loseHosted (s : State) (e : Engine) : State :=
  (hostedOn s e).foldl loseSupervisor { s with clk.heartbeatRun := 0, clk.heartbeatOk := false }
theorem execHeartbeatTimeout_eq (e : Engine) (s : State) :
    execHeartbeatTimeout e s = when_ s (anyRun s && !(hostedOn s e).isEmpty) (loseHosted s e) := rfl
theorem loseHosted_lost {s : State} {e : Engine} (h : Room s 2) {x : Axis} (hx : x ∈ hostedOn s e) :
    SupervisorLost (loseHosted s e) x := by
  have hn : Room s (hostedOn s e).length := Nat.le_trans (Nat.add_le_add_left (hostedOn_length s e) _) h
  refine foldl_loseSupervisor_lost ?_ (.inl hx)
  exact hn
theorem loseHosted_onlyChanges (s : State) (e : Engine) : OnlyChanges (lossParts (hostedOn s e)) s (loseHosted s e) :=
  .trans ((setClk_onlyChanges s _).loss (by decide) _) (foldl_loseSupervisor_onlyChanges _ _)
theorem loseHosted_clk (s : State) (e : Engine) : (loseHosted s e).clk = { s.clk with heartbeatRun := 0, heartbeatOk := false } :=
  foldl_keeps State.clk loseSupervisor (fun t x => by simp [loseSupervisor]) _ _
theorem loseHosted_calm {s : State} (h : Calm s) (e : Engine) : Calm (loseHosted s e) :=
  h.of_eq ((loseHosted_onlyChanges s e).2 .sum fun m => absurd (lossParts_subset _ m) (by decide))
    ((loseHosted_onlyChanges s e).2 .bus fun m => absurd (lossParts_subset _ m) (by decide))
    (foldl_keeps (fun t : State => t.mbx.rebootAt) loseSupervisor (fun t x => by simp [loseSupervisor]) _ _)

/-! ### The heartbeat's commands -/

theorem heartbeatWrite_counts {s : State} (hc : Calm s) (hu : thoevoUp s = true) :
    ∃ t, exec .heartbeatWrite s = .next t ∧ t.clk.heartbeat = s.clk.heartbeat + 1 ∧
      (∀ e, (getEng t e).heartbeat = if s.clk.colFlags.getLsbD (engNo e) then (getEng s e).heartbeat else s.clk.heartbeat + 1) ∧
      OnlyChanges [.clk, .ridge] s t := by
  have hf : ∀ k : ClockSt, OnlyChanges [.clk, .ridge] s (seeHeartbeat (seeHeartbeat { s with clk := k } .rga) .rgb) := fun k =>
    .trans ((setClk_onlyChanges s k).mono (by simp))
      (((seeHeartbeat_onlyChanges _ _).trans (seeHeartbeat_onlyChanges _ _)).mono (by simp))
  refine ⟨_, when_axes_kept hu hc (hf _) (by decide), by simp, fun e => ?_, hf _⟩
  rw [seeHeartbeat_both]
  cases e <;> rfl

theorem heartbeatTimeout_loses {s : State} {e : Engine} (hc : Calm s) (hr : anyRun s = true) (hh : hostedOn s e ≠ []) (hm : Room s 2) :
    ∃ t, exec (.heartbeatTimeout e) s = .next t ∧ t.clk.heartbeatOk = false ∧
      (∀ x ∈ hostedOn s e, (getAx t x).seq.hbLoss = true ∧ (getAx t x).stage.brake = .off ∧ Raised t 0x4A06 (scopeOf x) 0xFF) ∧
      (∀ x, x ∉ hostedOn s e → getAx t x = getAx s x) ∧ OnlyChanges ([Part.clk, Part.axisA, Part.axisB, Part.mbx] ++ signals) s t := by
  have hg : (anyRun s && !(hostedOn s e).isEmpty) = true := by simp [hr, hh]
  have hf : OnlyChanges (lossParts (hostedOn s e)) s (settle s (loseHosted s e)) :=
    (loseHosted_onlyChanges s e).trans ((settle_onlyChanges s _).loss (by decide) _)
  refine ⟨_, (execHeartbeatTimeout_eq e s).trans (when_settles hg (loseHosted_calm hc e)), by rw [settle_clk, loseHosted_clk],
    fun x hx => settle_lost (loseHosted_lost hm hx), fun x hx => hf.axis_eq (by simpa using hx), hf.mono (lossParts_subset _)⟩

end Sys2Proof.Machine
end

section
/-!
SUPPORT. Arming, refusal and swap of a bank (07 R161, R162), and the statement about heartbeat and arming.
-/

namespace Sys2Proof.Machine
open Sys2Proof
set_option Elab.async false

/-! ### Arming and swapping banks (07 R161, R162) -/

/-- A refused arm: the checked engine's is marked, its other engine's is withdrawn, no placement waits any more (log 21). -/
def refuseArm (s : State) (e : Engine) : State :=
  let bad := onEng s e (fun g => { g with armed := false, bankBad := true })
  onEng { bad with cairn.arming := none, ridge.handover := none } (otherEng e) (fun g => { g with armed := false, swapPending := false })
/-- An accepted arm: the causes of 0x4502 end, and the bank waits for its swap. -/
def acceptArm (s : State) (e : Engine) : State :=
  onEng (endCause (endCause s 0x4502 1 (BitVec.ofNat 8 (engNo e))) 0x4502 2 (BitVec.ofNat 8 (engNo e))) e
    (fun g => { g with armed := false, swapPending := true })
theorem execBankArmCheck_eq (e : Engine) (s : State) : execBankArmCheck e s = when_ s (getEng s e).armed
    (if !bankOk (inactiveBank s e) then refuseArm s e
     else if (getAx s (leadAxis (acceptArm s e) e)).pwm.running then copyDue (acceptArm s e)
     else finishSwap (swapEngine (acceptArm s e) e)) := rfl

theorem refuseArm_onlyChanges (s : State) (e : Engine) : OnlyChanges [.ridge, .cairn] s (refuseArm s e) := by
  refine ⟨by simp [refuseArm], fun p hp => ?_⟩
  cases p with
  | ridge | cairn => exact absurd (by decide) hp
  | _ => simp [Same, refuseArm]
theorem refuseArm_same (s : State) (e : Engine) : getEng (refuseArm s e) e = { getEng s e with armed := false, bankBad := true } := by
  cases e <;> rfl
theorem refuseArm_banks (s : State) (e f : Engine) : (getEng (refuseArm s e) f).active = (getEng s f).active ∧
    (getEng (refuseArm s e) f).bank0 = (getEng s f).bank0 ∧ (getEng (refuseArm s e) f).bank1 = (getEng s f).bank1 := by
  cases e <;> cases f <;> exact ⟨rfl, rfl, rfl⟩

theorem acceptArm_onlyChanges (s : State) (e : Engine) : OnlyChanges [.ridge, .flt] s (acceptArm s e) := by
  have hc : codeClass 0x4502 ≠ 3 := by decide
  refine .trans (.trans ((endCause_onlyChanges hc s _ _).mono ?_) ((endCause_onlyChanges hc _ _ _).mono ?_))
    ((onEng_onlyChanges _ e _).mono ?_)
  all_goals simp
@[simp] theorem getEng_endCause (s : State) (c : BitVec 16) (sc d : BitVec 8) (e : Engine) : getEng (endCause s c sc d) e = getEng s e := by
  cases e <;> simp [getEng]
theorem acceptArm_same (s : State) (e : Engine) : getEng (acceptArm s e) e = { getEng s e with armed := false, swapPending := true } := by
  simp [acceptArm]
@[simp] theorem acceptArm_axes (s : State) (e : Engine) : (acceptArm s e).axes = s.axes := by simp [acceptArm]
@[simp] theorem acceptArm_cairn (s : State) (e : Engine) : (acceptArm s e).cairn = s.cairn := by simp [acceptArm]
@[simp] theorem inactiveBank_acceptArm (s : State) (e : Engine) : inactiveBank (acceptArm s e) e = inactiveBank s e := by
  simp [inactiveBank, acceptArm_same]
@[simp] theorem leadAxis_acceptArm (s : State) (e : Engine) : leadAxis (acceptArm s e) e = leadAxis s e := by
  simp [leadAxis, getAx]

/-- The copy of a hand-over is due, or nothing changes (07 R164). -/
theorem copyDue_cases (s : State) : copyDue s = s ∨ copyDue s = { s with ridge.copyPending := true } := by
  unfold copyDue
  dsimp only
  split
  · split
    · exact .inr rfl
    · exact .inl rfl
  · exact .inl rfl
theorem copyDue_onlyChanges (s : State) : OnlyChanges [.ridge] s (copyDue s) := by
  rcases copyDue_cases s with h | h
  · rw [h]
    exact onlyChanges_refl _ s
  · rw [h]
    refine ⟨rfl, fun p hp => ?_⟩
    cases p with
    | ridge => exact absurd (by decide) hp
    | _ => rfl
@[simp] theorem getEng_copyDue (s : State) (e : Engine) : getEng (copyDue s) e = getEng s e := by
  rcases copyDue_cases s with h | h
  · rw [h]
  · rw [h]
    cases e <;> rfl

/-- An axis at the swap of its new engine (07 R162, R163): hosted there, its init list due and its periods at 0. -/
def Rehosted (e : Engine) (a : AxisSt) : Prop := a.seq.host = some e ∧ a.seq.initPending = true ∧ a.seq.periods = 0

theorem swapEngine_onlyChanges (s : State) (e : Engine) : OnlyChanges [.ridge, .axisA, .axisB] s (swapEngine s e) := by
  refine .trans ((onEng_onlyChanges s e _).mono (by simp)) (OnlyChanges.of_foldl (fun t x _ => (onAx_onlyChanges t x _).mono ?_) _)
  cases x <;> simp [axPart]
theorem swapEngine_same (s : State) (e : Engine) :
    getEng (swapEngine s e) e = { getEng s e with active := !(getEng s e).active, swapPending := false, armed := false } := by
  simp [swapEngine, bothAxes, swapAxis]
@[simp] theorem swapEngine_cairn (s : State) (e : Engine) : (swapEngine s e).cairn = s.cairn := by
  simp [swapEngine, bothAxes, swapAxis]
/-- Each axis takes the new bank's side of the swap. -/
theorem swapEngine_axis (s : State) (e : Engine) (x : Axis) :
    getAx (swapEngine s e) x = getAx (swapAxis e (inactiveBank s e) s x) x := by
  cases x <;> simp [swapEngine, bothAxes, swapAxis, getAx, twoGet]
theorem swapEngine_rehosts {s : State} {e : Engine} {x : Axis} (h : bankHosts (inactiveBank s e) x = true) :
    Rehosted e (getAx (swapEngine s e) x) := by
  rw [swapEngine_axis]
  simp [swapAxis, h, Rehosted]
/-- A swap moves no gate and no axis state. -/
theorem swapEngine_unmoved (s : State) (e : Engine) (x : Axis) :
    (getAx (swapEngine s e) x).pwm = (getAx s x).pwm ∧ (getAx (swapEngine s e) x).start = (getAx s x).start := by
  rw [swapEngine_axis, swapAxis, getAx_onAx]
  split
  · exact ⟨rfl, rfl⟩
  split
  · exact ⟨rfl, rfl⟩
  · exact ⟨rfl, rfl⟩
/-- Without a placement that waits a swap is finished as it is. -/
theorem finishSwap_none {s : State} (h : s.cairn.arming = none) : finishSwap s = s := by simp [finishSwap, h]

theorem execBankArmCheck_refused {s : State} {e : Engine} (hb : bankOk (inactiveBank s e) = false) :
    execBankArmCheck e s = when_ s (getEng s e).armed (refuseArm s e) := by
  rw [execBankArmCheck_eq, if_pos (by rw [hb]; rfl)]
theorem execBankArmCheck_accepted {s : State} {e : Engine} (hb : bankOk (inactiveBank s e) = true) :
    execBankArmCheck e s = when_ s (getEng s e).armed
      (if (getAx s (leadAxis s e)).pwm.running then copyDue (acceptArm s e) else finishSwap (swapEngine (acceptArm s e) e)) := by
  rw [execBankArmCheck_eq, if_neg (by rw [hb]; decide), leadAxis_acceptArm]

/-! ### The arm check, outcome by outcome -/

theorem bankArmCheck_refuses {s : State} {e : Engine} (hc : Calm s) (ha : (getEng s e).armed = true)
    (hb : bankOk (inactiveBank s e) = false) :
    ∃ t, exec (.bankArmCheck e) s = .next t ∧ (getEng t e).bankBad = true ∧ (getEng t e).armed = false ∧
      (∀ f, (getEng t f).active = (getEng s f).active ∧ (getEng t f).bank0 = (getEng s f).bank0 ∧ (getEng t f).bank1 = (getEng s f).bank1) ∧
      t.cairn.active = s.cairn.active ∧ OnlyChanges [.ridge, .cairn] s t := by
  have hf := refuseArm_onlyChanges s e
  refine ⟨_, (execBankArmCheck_refused hb).trans (when_axes_kept ha hc hf (by decide)), ?_, ?_, refuseArm_banks s e, ?_, hf⟩
  · rw [refuseArm_same]
  · rw [refuseArm_same]
  · simp [refuseArm]

theorem bankArmCheck_waits {s : State} {e : Engine} (hc : Calm s) (ha : (getEng s e).armed = true)
    (hb : bankOk (inactiveBank s e) = true) (hr : (getAx s (leadAxis s e)).pwm.running = true) :
    ∃ t, exec (.bankArmCheck e) s = .next t ∧ (getEng t e).swapPending = true ∧ (getEng t e).armed = false ∧
      (getEng t e).active = (getEng s e).active ∧ OnlyChanges [.ridge, .flt] s t := by
  have hf : OnlyChanges [.ridge, .flt] s (copyDue (acceptArm s e)) :=
    (acceptArm_onlyChanges s e).trans ((copyDue_onlyChanges _).mono (by simp))
  have he := execBankArmCheck_accepted hb
  rw [if_pos hr] at he
  refine ⟨_, he.trans (when_axes_kept ha hc hf (by decide)), ?_, ?_, ?_, hf⟩
  all_goals rw [getEng_copyDue, acceptArm_same]

theorem bankArmCheck_swaps {s : State} {e : Engine} (hc : Calm s) (ha : (getEng s e).armed = true)
    (hb : bankOk (inactiveBank s e) = true) (hr : (getAx s (leadAxis s e)).pwm.running = false) (hn : s.cairn.arming = none) :
    ∃ t, exec (.bankArmCheck e) s = .next t ∧ (getEng t e).swapPending = false ∧ (getEng t e).armed = false ∧
      (getEng t e).active = !(getEng s e).active ∧
      (∀ x, bankHosts (inactiveBank s e) x = true → (getAx t x).seq.host = some e ∧ (getAx t x).seq.initPending = true ∧
        (getAx t x).seq.periods = 0) ∧ OnlyChanges [.ridge, .flt, .axisA, .axisB] s t := by
  have hf : OnlyChanges [.ridge, .flt, .axisA, .axisB] s (swapEngine (acceptArm s e) e) :=
    .trans ((acceptArm_onlyChanges s e).mono (by simp)) ((swapEngine_onlyChanges _ e).mono (by simp))
  have hx : ∀ x, getAx (acceptArm s e) x = getAx s x := fun x => by simp [getAx]
  have he := execBankArmCheck_accepted hb
  rw [if_neg (by simp [hr]), finishSwap_none (by simpa using hn)] at he
  refine ⟨_, he.trans (when_unmoved ha hc hf (by decide) fun x => ?_), ?_, ?_, ?_, fun x h => ?_, hf⟩
  · rw [← hx x]
    exact swapEngine_unmoved (acceptArm s e) e x
  · rw [swapEngine_same]
  · rw [swapEngine_same]
  · rw [swapEngine_same, acceptArm_same]
  · exact swapEngine_rehosts (by rwa [inactiveBank_acceptArm])

/-- Settles O20: the heartbeat crosses cell by cell, its loss runs over the engine's axes one after the other, and a checked bank is
refused, waits for its lead axis's boundary or becomes active at once. -/
theorem heartbeatAndArming : Obligations.HeartbeatAndArming :=
  ⟨fun _ => heartbeatWrite_counts, fun _ _ => heartbeatTimeout_loses, fun _ _ => bankArmCheck_refuses,
    fun _ _ => bankArmCheck_waits, fun _ _ => bankArmCheck_swaps⟩

end Sys2Proof.Machine
end

section
/-!
SUPPORT. Frames the power stage needs: raises that stop no axis, entries that leave the active list, changes of one axis, leg or chapter.
-/

namespace Sys2Proof.Machine
open Sys2Proof
set_option Elab.async false

/-! ### Raises and entries that leave -/

@[simp] theorem getAx_settle (z s : State) (x : Axis) : getAx (settle z s) x = getAx s x := by simp [getAx]
@[simp] theorem getAx_record (s : State) (c : BitVec 16) (sc d : BitVec 8) (v : F32) (a : Bool) (x : Axis) :
    getAx (record s c sc d v a) x = getAx s x := by simp [getAx]
@[simp] theorem getAx_endLong (s : State) (op : BitVec 16) (h : Hdr) (r d : Nat) (p : List Byte) (x : Axis) :
    getAx (endLong s op h r d p) x = getAx s x := by simp [getAx]
/-- Only a STOP acts on axes (12 Table 12.5). -/
theorem raise_eq_record {c : BitVec 16} (hc : codeClass c ≠ 4) (s : State) (sc d : BitVec 8) (v : F32) (a : Bool) :
    raise s c sc d v a = record s c sc d v a := by simp [raise, hc]
theorem raise_signals {c : BitVec 16} (hc : codeClass c ≠ 4) (s : State) (sc d : BitVec 8) (v : F32) (a : Bool) :
    OnlyChanges signals s (raise s c sc d v a) := by
  rw [raise_eq_record hc]
  exact record_onlyChanges s c sc d v a
theorem leaveList_onlyChanges (s : State) (e : FaultEntry) (n : Nat) : OnlyChanges signals s (leaveList s e n) := by
  refine ⟨by simp, fun p hp => ?_⟩
  cases p with
  | flt | nvLog | canMsg | hspMsg | mbxMsg => exact absurd (by decide) hp
  | _ => simp [Same]
theorem endCause_signals (s : State) (c : BitVec 16) (sc d : BitVec 8) : OnlyChanges signals s (endCause s c sc d) := by
  refine ⟨by simp, fun p hp => ?_⟩
  cases p with
  | flt | nvLog | canMsg | hspMsg | mbxMsg => exact absurd (by decide) hp
  | _ => simp [Same]
/-- Of a fault other than a LIMIT, every entry that stays listed has its cause ended (12 R277). -/
theorem endCause_inactive {c : BitVec 16} (hc : codeClass c ≠ 3) (s : State) (sc d : BitVec 8) :
    ∀ e ∈ (endCause s c sc d).flt.list, sameFault c sc d e = true → e.active = false := by
  unfold endCause
  split
  next hn =>
    intro e he hs
    exact absurd hs (List.find?_eq_none.mp hn e he)
  next =>
    rw [if_neg fun h => hc h.1]
    intro e he hs
    obtain ⟨f, -, rfl⟩ := List.mem_map.mp he
    split at hs
    next hf => rw [if_pos hf]
    next hf => exact absurd hs hf

/-! ### Axes, legs and registers -/

theorem OnlyChanges.getAx_both {ps : List Part} {s t : State} (h : OnlyChanges ps s t) (ha : Part.axisA ∉ ps) (hb : Part.axisB ∉ ps)
    (x : Axis) : getAx t x = getAx s x :=
  h.axis_eq (by cases x <;> assumption)
theorem abandonMotor_onlyChanges (s : State) (x : Axis) : OnlyChanges (axPart x :: .mbx :: signals) s (abandonMotor s x) :=
  .trans ((dropMotor_stops s x).onlyChanges.mono (by simp)) (endMotor_onlyChanges _ x)
theorem onLeg_onlyChanges (s : State) (x : Axis) (l : Leg) (f : LegSt → LegSt) : OnlyChanges [axPart x] s (onLeg s x l f) :=
  onAx_onlyChanges s x _
theorem getLeg_onLeg_other (s : State) (x : Axis) {l k : Leg} (h : k ≠ l) (f : LegSt → LegSt) :
    getLeg (onLeg s x l f) x k = getLeg s x k := by
  simp [getLeg, onLeg, sixGet_sixSet_other _ _ _ _ h.symm]
/-- What a change of one axis leaves of it, each axis keeps. -/
theorem onAx_keeps {α : Type} (p : AxisSt → α) {f : AxisSt → AxisSt} (s : State) (x y : Axis)
    (hf : ∀ a, p (f a) = p a := by intro _; rfl) : p (getAx (onAx s x f) y) = p (getAx s y) := by
  by_cases e : x = y
  · subst e
    rw [getAx_onAx, hf]
  · rw [getAx_onAx_other s x y f e]
/-- A change that moves no gate and no axis state of its axis moves none of either. -/
theorem onAx_unmoved {f : AxisSt → AxisSt} (s : State) (x y : Axis) (hp : ∀ a, (f a).pwm = a.pwm := by intro _; rfl)
    (hs : ∀ a, (f a).start = a.start := by intro _; rfl) :
    (getAx (onAx s x f) y).pwm = (getAx s y).pwm ∧ (getAx (onAx s x f) y).start = (getAx s y).start :=
  ⟨onAx_keeps AxisSt.pwm s x y hp, onAx_keeps AxisSt.start s x y hs⟩
theorem onLeg_unmoved (s : State) (x : Axis) (l : Leg) (f : LegSt → LegSt) (y : Axis) :
    (getAx (onLeg s x l f) y).pwm = (getAx s y).pwm ∧ (getAx (onLeg s x l f) y).start = (getAx s y).start :=
  onAx_unmoved s x y
theorem onLeg_stage (s : State) (x : Axis) (l : Leg) (f : LegSt → LegSt) (y : Axis) :
    (getAx (onLeg s x l f) y).stage = (getAx s y).stage :=
  onAx_keeps AxisSt.stage s x y
theorem setSto_onlyChanges (s : State) (v : Sto) : OnlyChanges [.sto] s { s with sto := v } := by
  refine ⟨rfl, fun p hp => ?_⟩
  cases p with
  | sto => exact absurd (by decide) hp
  | _ => rfl
theorem setPwr_onlyChanges (s : State) (v : Pwr) : OnlyChanges [.pwr] s { s with pwr := v } := by
  refine ⟨rfl, fun p hp => ?_⟩
  cases p with
  | pwr => exact absurd (by decide) hp
  | _ => rfl
theorem setScarp_onlyChanges (s : State) (v : Scarp) : OnlyChanges [.scarp] s { s with scarp := v } := by
  refine ⟨rfl, fun p hp => ?_⟩
  cases p with
  | scarp => exact absurd (by decide) hp
  | _ => rfl
theorem setCairn_onlyChanges (s : State) (v : CairnSt) : OnlyChanges [.cairn] s { s with cairn := v } := by
  refine ⟨rfl, fun p hp => ?_⟩
  cases p with
  | cairn => exact absurd (by decide) hp
  | _ => rfl

end Sys2Proof.Machine
end

section
/-!
SUPPORT. Safe torque off (04 R83 to R86; 03 R57), and the statement about it.
-/

namespace Sys2Proof.Machine
open Sys2Proof
set_option Elab.async false

/-! ### An axis without gate supply (04 R83, R84) -/

/-- An axis as safe torque off leaves it: gates and gate supply off, its brake engaged, DISABLED. -/
def TorqueOff (a : AxisSt) : Prop :=
  (a.pwm.switching = false ∧ a.pwm.shorted = false) ∧ a.stage.vgdOn = false ∧ a.stage.brake = .off ∧ a.start.ax = .disabled
/-- The gate supply of an axis goes, its brake engages and it leaves RUN (04 R84; 12 R274). -/
def cutGates (a : AxisSt) : AxisSt :=
  { (if a.start.ax = .disabled then gatesOff (brakeOff a) else disableAxis (brakeOff a)) with stage.vgdOn := false }
/-- Safe torque off acts on one axis: a motor measurement ends with its gates (17 Table 17.4a). -/
def cutTorque (s : State) (x : Axis) : State := abandonMotor (onAx s x cutGates) x

@[simp] theorem setAx_stage (st : AxState) (a : AxisSt) : (setAx st a).stage = a.stage := by
  unfold setAx
  dsimp only
  split <;> rfl
@[simp] theorem setAx_pwm (st : AxState) (a : AxisSt) : (setAx st a).pwm = a.pwm := by
  unfold setAx
  dsimp only
  split <;> rfl
theorem cutGates_torqueOff (a : AxisSt) : TorqueOff (cutGates a) := by
  unfold cutGates
  split
  next h => exact ⟨⟨rfl, rfl⟩, rfl, rfl, h⟩
  next => exact ⟨by simp [disableAxis, gatesOff], rfl, by simp [disableAxis, gatesOff, brakeOff], rfl⟩

/-- A motor measurement that is dropped turns gates off, and nothing else of an axis changes. -/
theorem getAx_dropMotor (s : State) (x y : Axis) :
    getAx (dropMotor s x) y = getAx s y ∨ getAx (dropMotor s x) y = motorOff (getAx s y) := by
  have hx : getAx (onAx s x motorOff) y = getAx s y ∨ getAx (onAx s x motorOff) y = motorOff (getAx s y) := by
    by_cases e : x = y
    · subst e
      exact .inr (getAx_onAx s x motorOff)
    · exact .inl (getAx_onAx_other s x y motorOff e)
  unfold dropMotor
  split
  · split
    · exact hx
    · exact .inl rfl
  · split
    · exact hx
    · exact .inl rfl
  · exact .inl rfl
/-- The end of a motor measurement leaves an axis's gates, stage and start as they are. -/
theorem endMotor_unmoved (s : State) (x y : Axis) : (getAx (endMotor s x) y).pwm = (getAx s y).pwm ∧
    (getAx (endMotor s x) y).stage = (getAx s y).stage ∧ (getAx (endMotor s x) y).start = (getAx s y).start := by
  unfold endMotor
  split
  · split
    · rw [getAx_endLong, getAx_record]
      exact ⟨onAx_keeps AxisSt.pwm s x y, onAx_keeps AxisSt.stage s x y, onAx_keeps AxisSt.start s x y⟩
    · exact ⟨rfl, rfl, rfl⟩
  · split
    · rw [getAx_endLong]
      exact ⟨rfl, rfl, rfl⟩
    · exact ⟨rfl, rfl, rfl⟩
  · exact ⟨rfl, rfl, rfl⟩
theorem abandonMotor_torqueOff {s : State} {y : Axis} (h : TorqueOff (getAx s y)) (x : Axis) : TorqueOff (getAx (abandonMotor s x) y) := by
  have hd : TorqueOff (getAx (dropMotor s x) y) := by
    rcases getAx_dropMotor s x y with e | e
    · rwa [e]
    · obtain ⟨-, hv, hb, ha⟩ := h
      rw [e]
      exact ⟨⟨rfl, rfl⟩, hv, hb, ha⟩
  obtain ⟨hp, hs, ht⟩ := endMotor_unmoved (dropMotor s x) x y
  rw [abandonMotor, TorqueOff, hp, hs, ht]
  exact hd

theorem cutTorque_onlyChanges (s : State) (x : Axis) : OnlyChanges (axPart x :: .mbx :: signals) s (cutTorque s x) :=
  .trans ((onAx_onlyChanges s x _).mono (by simp)) (abandonMotor_onlyChanges _ x)
theorem cutTorque_torqueOff (s : State) (x : Axis) : TorqueOff (getAx (cutTorque s x) x) :=
  abandonMotor_torqueOff (by simpa using cutGates_torqueOff (getAx s x)) x

/-! ### The low input (04 R83, R84) -/

/-- Both axes without gate supply. -/
def cutBoth (s : State) : State := cutTorque (cutTorque s .a) .b

theorem cutBoth_onlyChanges (s : State) : OnlyChanges ([Part.axisA, .axisB, .mbx] ++ signals) s (cutBoth s) :=
  .trans ((cutTorque_onlyChanges s .a).mono (by decide)) ((cutTorque_onlyChanges _ .b).mono (by decide))
theorem cutBoth_torqueOff (s : State) (x : Axis) : TorqueOff (getAx (cutBoth s) x) := by
  cases x with
  | a =>
    have h : getAx (cutBoth s) .a = getAx (cutTorque s .a) .a := (cutTorque_onlyChanges (cutTorque s .a) .b).axis_eq (by decide)
    rw [h]
    exact cutTorque_torqueOff s .a
  | b => exact cutTorque_torqueOff _ .b
@[simp] theorem cutBoth_reboot (s : State) : (cutBoth s).mbx.rebootAt = s.mbx.rebootAt := by simp [cutBoth, cutTorque]

theorem setSafe_pwr (s : State) : (setSafe s).pwr = { s.pwr with safe := true } := by
  unfold setSafe
  split
  next h =>
    have : s.pwr.safe = true := (Bool.and_eq_true_iff.mp h).1
    rw [← this]
  next => simp [raise1]
theorem setSafe_onlyChanges (s : State) : OnlyChanges (.pwr :: signals) s (setSafe s) := by
  unfold setSafe
  split
  · exact onlyChanges_refl _ s
  · exact .trans ((setPwr_onlyChanges s _).mono (by simp)) ((raise_signals (by decide) _ _ _ _ _).mono (by simp))
theorem setSafe_raised {s : State} (h : s.pwr.safe = false) : Raised (setSafe s) 0x6A01 0 0xFF := by
  rw [setSafe, if_neg (by simp [h])]
  exact raise_raised _ _ _ _ _ _

/-- A low of 1 ms always qualifies (04 R84). -/
theorem execStoRemove_low {s : State} {a b : Bool} {us : Nat} (hs : s.sum.on = true) (hu : thoevoUp s = true) (hl : (a || b) = true)
    (ht : 1000 ≤ us) : execStoRemove a b us s =
      when_ s true (setSafe (cutBoth { s with sto := { s.sto with in1Low := a, in2Low := b, highSeen := false } })) := by
  simp only [execStoRemove, stoQualifies, hs, hl, hu, ht, decide_true, Bool.true_or, Bool.and_true, ↓reduceIte]
  rfl
/-- A pulse below 500 µs never qualifies (04 R84). -/
theorem execStoRemove_short {s : State} {a b : Bool} {us : Nat} (ht : us < 500) : execStoRemove a b us s = .next s := by
  have h : stoQualifies s us = false := by
    have h1 : ¬ 1000 ≤ us := by omega
    have h2 : ¬ 500 ≤ us := by omega
    simp [stoQualifies, h1, h2]
  simp [execStoRemove, h, skip]

theorem stoRemove_cutsTorque {s : State} {a b : Bool} {us : Nat} (hc : Calm s) (hs : s.sum.on = true) (hu : thoevoUp s = true)
    (hl : (a || b) = true) (ht : 1000 ≤ us) :
    ∃ t, exec (.stoRemove a b us) s = .next t ∧ t.sto = { s.sto with in1Low := a, in2Low := b, highSeen := false } ∧
      (∀ x, GatesOff t x ∧ (getAx t x).stage.vgdOn = false ∧ (getAx t x).stage.brake = .off ∧ (getAx t x).start.ax = .disabled) ∧
      t.pwr = { s.pwr with safe := true } ∧ (s.pwr.safe = false → Raised t 0x6A01 0 0xFF) ∧
      OnlyChanges ([Part.sto, Part.axisA, Part.axisB, Part.pwr, Part.hsp, Part.mbx] ++ signals) s t := by
  let s0 : State := { s with sto := { s.sto with in1Low := a, in2Low := b, highSeen := false } }
  have h1 : OnlyChanges ([Part.axisA, .axisB, .mbx] ++ signals) s0 (cutBoth s0) := cutBoth_onlyChanges s0
  have h2 : OnlyChanges (.pwr :: signals) (cutBoth s0) (setSafe (cutBoth s0)) := setSafe_onlyChanges _
  have h12 : OnlyChanges (.pwr :: ([Part.axisA, .axisB, .mbx] ++ signals)) s0 (setSafe (cutBoth s0)) :=
    (h1.mono (by decide)).trans (h2.mono (by decide))
  have hp : (cutBoth s0).pwr = s.pwr := h1.2 .pwr (by decide)
  have hcalm : Calm (setSafe (cutBoth s0)) :=
    h2.calm (hc.of_eq (h1.2 .sum (by decide)) (h1.2 .bus (by decide)) (cutBoth_reboot s0)) (by decide)
  refine ⟨_, (execStoRemove_low hs hu hl ht).trans (when_settles rfl hcalm), ?_, fun x => ?_, ?_, fun h => ?_, ?_⟩
  · rw [settle_sto]
    exact h12.2 .sto (by decide)
  · have hx : getAx (setSafe (cutBoth s0)) x = getAx (cutBoth s0) x := h2.getAx_both (by decide) (by decide) x
    have : TorqueOff (getAx (settle s (setSafe (cutBoth s0))) x) := by
      rw [getAx_settle, hx]
      exact cutBoth_torqueOff s0 x
    exact this
  · rw [settle_pwr, setSafe_pwr, hp]
  · exact settle_raised (setSafe_raised (by rw [hp, h]))
  · exact .trans ((setSto_onlyChanges s _).mono (by decide)) (.trans (h12.mono (by decide)) ((settle_onlyChanges s _).mono (by decide)))

/-! ### Both inputs high again (04 R86) -/

/-- The inputs as 1 ms with both high leaves them. -/
def stoHigh (s : State) : State :=
  { s with sto := { s.sto with in1Low := false, in2Low := false, highSeen := true, discrepancy := false } }
/-- With its gate supply back, a READY drive powers the gates of its placement, and VGD is no longer low (04 R67; 05 R112). -/
def stoPowered (s : State) (back : Bool) : State := if isReady s && back then setRaw (powerGates (stoHigh s)) 26 false else stoHigh s
/-- SAFE clears, and the cause of its fault ends (03 R57). -/
def clearSafe (s : State) : State := { endCause s 0x6A01 0 noDetail with pwr.safe := false }

theorem execStoRestore_high {s : State} {us : Nat} {back : Bool} (hs : s.sum.on = true) (ht : 1000 ≤ us)
    (hb : isReady s = true → (hosted s .a = true ∨ hosted s .b = true) → back = true) :
    execStoRestore us back s = when_ s true (clearSafe (stoPowered s back)) := by
  have hp : (isReady s && (hosted s .a || hosted s .b) && !back) = false := by
    cases back with
    | true => simp
    | false =>
      simp only [Bool.not_false, Bool.and_true, Bool.and_eq_false_iff]
      by_cases hr : isReady s = true
      · right
        simpa using fun h => hb hr h
      · left
        simpa using hr
  simp only [execStoRestore, hs, ht, hp, decide_true, Bool.and_true, Bool.false_eq_true, ↓reduceIte]
  rfl

theorem setRaw_onlyChanges (s : State) (n : Nat) (b : Bool) : OnlyChanges [.scarp] s (setRaw s n b) := setScarp_onlyChanges s _
theorem setRaw_inactive (s : State) (n : Nat) : (setRaw s n false).scarp.raw.getLsbD n = false := by
  simp only [setRaw, Bool.false_eq_true, ↓reduceIte]
  by_cases h : n < 32 <;> simp [bitW, h]
theorem powerGates_onlyChanges (s : State) : OnlyChanges [.scarp, .axisA, .axisB] s (powerGates s) := by
  have hb : OnlyChanges [.scarp, .axisA, .axisB] s
      (bothAxes.foldl (fun t x => onAx t x fun a => { a with stage.vgdOn := a.seq.host.isSome && !stoHolds t }) s) :=
    OnlyChanges.of_foldl (fun t x _ => (onAx_onlyChanges t x _).mono (by cases x <;> decide)) s
  unfold powerGates
  dsimp only
  split
  · exact hb.trans ((setRaw_onlyChanges _ _ _).mono (by decide))
  · exact hb
/-- Gate supply follows the placement unless an input holds it off (04 R67, R83). -/
theorem powerGates_vgdOn (s : State) (x : Axis) : (getAx (powerGates s) x).stage.vgdOn = (hosted s x && !stoHolds s) := by
  unfold powerGates
  dsimp only
  split <;> cases x <;> rfl

theorem clearSafe_onlyChanges (s : State) : OnlyChanges [.flt, .pwr] s (clearSafe s) :=
  .trans ((endCause_onlyChanges (by decide) s _ _).mono (by decide)) ((setPwr_onlyChanges _ _).mono (by decide))
theorem stoPowered_onlyChanges (s : State) (back : Bool) : OnlyChanges [.sto, .scarp, .axisA, .axisB] s (stoPowered s back) := by
  have h0 : OnlyChanges [.sto, .scarp, .axisA, .axisB] s (stoHigh s) := (setSto_onlyChanges s _).mono (by decide)
  unfold stoPowered
  split
  · exact h0.trans (.trans ((powerGates_onlyChanges _).mono (by decide)) ((setRaw_onlyChanges _ _ _).mono (by decide)))
  · exact h0
theorem stoPowered_sto (s : State) (back : Bool) : (stoPowered s back).sto = (stoHigh s).sto := by
  unfold stoPowered
  split
  · exact (powerGates_onlyChanges (stoHigh s)).2 .sto (by decide)
  · rfl
theorem stoPowered_supplied {s : State} (hr : isReady s = true) :
    (stoPowered s true).scarp.raw.getLsbD 26 = false ∧ ∀ x, (getAx (stoPowered s true) x).stage.vgdOn = hosted s x := by
  rw [stoPowered, if_pos (by simp [hr])]
  refine ⟨setRaw_inactive _ 26, fun x => (powerGates_vgdOn (stoHigh s) x).trans ?_⟩
  have hh : stoHolds (stoHigh s) = false := rfl
  rw [hh, Bool.not_false, Bool.and_true]
  rfl

theorem stoRestore_clearsSafe {s : State} {us : Nat} {back : Bool} (hc : Calm s) (hs : s.sum.on = true) (ht : 1000 ≤ us)
    (hb : isReady s = true → (hosted s .a = true ∨ hosted s .b = true) → back = true) :
    ∃ t, exec (.stoRestore us back) s = .next t ∧
      t.sto = { s.sto with in1Low := false, in2Low := false, highSeen := true, discrepancy := false } ∧ t.pwr.safe = false ∧
      (isReady s = true → back = true → t.scarp.raw.getLsbD 26 = false ∧ ∀ x, (getAx t x).stage.vgdOn = hosted s x) ∧
      (∀ e ∈ t.flt.list, e.code = 0x6A01 → e.scope = 0 → e.detail = 0xFF → e.active = false) ∧
      OnlyChanges [.sto, .pwr, .scarp, .axisA, .axisB, .flt, .hspMsg, .mbxMsg] s t := by
  have h1 := stoPowered_onlyChanges s back
  have h2 := clearSafe_onlyChanges (stoPowered s back)
  have hcalm : Calm (clearSafe (stoPowered s back)) := h2.calm (h1.calm hc (by decide)) (by decide)
  refine ⟨_, (execStoRestore_high hs ht hb).trans (when_settles rfl hcalm), ?_, by simp [clearSafe], fun hr hk => ?_,
    fun e he hcode hsc hd => ?_, ?_⟩
  · rw [settle_sto]
    exact (h2.2 .sto (by decide)).trans (stoPowered_sto s back)
  · subst hk
    obtain ⟨hraw, hv⟩ := stoPowered_supplied hr
    refine ⟨?_, fun x => ?_⟩
    · rw [settle_scarp, show (clearSafe (stoPowered s true)).scarp = _ from h2.2 .scarp (by decide), hraw]
    · rw [getAx_settle, h2.getAx_both (by decide) (by decide) x, hv]
  · rw [settle_flt] at he
    exact endCause_inactive (by decide) _ _ _ e he (by simp [sameFault, noDetail, hcode, hsc, hd])
  · exact .trans (h1.mono (by decide)) (.trans (h2.mono (by decide)) ((settle_onlyChanges s _).mono (by decide)))

/-! ### Inputs that differ (04 R86) -/

theorem stoDiscrepancy_stops {s : State} {a b : Bool} (hc : Calm s) (hu : thoevoUp s = true) (hd : a ≠ b) :
    ∃ t, exec (.stoDiscrepancyTimeout a b) s = .next t ∧ t.sto = { s.sto with discrepancy := true, highSeen := false } ∧
      Raised t 0x4207 0 0xFF ∧ OnlyChanges ([Part.sto, Part.axisA, Part.axisB, Part.mbx] ++ signals) s t := by
  let s0 : State := { s with sto := { s.sto with discrepancy := true, highSeen := false } }
  have h0 : OnlyChanges [.sto] s s0 := setSto_onlyChanges s _
  have h1 : OnlyChanges ([Part.axisA, .axisB, .mbx] ++ signals) s0 (raise1 s0 0x4207 0 noDetail) :=
    (raise_onlyChanges s0 0x4207 0 noDetail fnan true).mono (by decide)
  have hcalm : Calm (raise1 s0 0x4207 0 noDetail) := hc.of_eq (h1.2 .sum (by decide)) (h1.2 .bus (by decide)) (raise1_reboot _ _ _ _)
  have hg : (thoevoUp s && a != b) = true := by simp [hu, hd]
  refine ⟨_, when_settles hg hcalm, ?_, settle_raised (raise_raised _ _ _ _ _ _), ?_⟩
  · rw [settle_sto]
    exact h1.2 .sto (by decide)
  · exact .trans (h0.mono (by decide)) (.trans (h1.mono (by decide)) ((settle_onlyChanges s _).mono (by decide)))

/-- Settles O12: a low of 1 ms cuts both axes one after the other and sets SAFE, a short pulse does not qualify, 1 ms with both
inputs high powers the gates and ends the cause of SAFE, and inputs that differ too long stop both axes. -/
theorem safeTorqueOff : Obligations.SafeTorqueOff :=
  ⟨fun _ _ _ _ => stoRemove_cutsTorque, fun _ _ _ _ => execStoRemove_short, fun _ _ _ => stoRestore_clearsSafe,
    fun _ _ _ => stoDiscrepancy_stops⟩

end Sys2Proof.Machine
end

section
/-!
SUPPORT. Edges, dead-times and refresh pulses of a leg (04 R68, R71, R73), and the statement about them.
-/

namespace Sys2Proof.Machine
open Sys2Proof
set_option Elab.async false

/-- A leg that no bypass holds off switches with its axis. -/
theorem legLive_of {s : State} {x : Axis} {l : Leg} (hs : (getAx s x).pwm.switching = true) (hl : l ∉ heldLegs s x) :
    legLive s x l = true := by simp [legLive, hs, hl]

/-! ### Refresh pulses (04 R68) -/

/-- One more refresh pulse counted. -/
def countRefresh (a : AxisSt) : AxisSt := { a with stage.bootRefresh := a.stage.bootRefresh + 1 }

theorem getLeg_countRefresh (s : State) (x : Axis) (l : Leg) : getLeg (onAx s x countRefresh) x l = getLeg s x l := by
  simp [getLeg, countRefresh]
/-- A leg's refresh pulse at the next valley of its carrier, counted. -/
def refreshLeg (s : State) (x : Axis) (l : Leg) : State :=
  onLeg (onAx s x countRefresh) x l (refreshAt (nextValley (getAx s x).pwm l (max (4 * s.clk.now) (getAx s x).pwm.carAt)))
theorem execBootRefreshPulse_eq (x : Axis) (l : Leg) (s : State) :
    execBootRefreshPulse x l s = when_ s (legLive s x l && (getLeg s x l).hi) (refreshLeg s x l) := rfl
theorem refreshLeg_onlyChanges (s : State) (x : Axis) (l : Leg) : OnlyChanges [axPart x] s (refreshLeg s x l) :=
  (onAx_onlyChanges s x _).trans (onLeg_onlyChanges _ x l _)
theorem refreshLeg_unmoved (s : State) (x : Axis) (l : Leg) (y : Axis) :
    (getAx (refreshLeg s x l) y).pwm = (getAx s y).pwm ∧ (getAx (refreshLeg s x l) y).start = (getAx s y).start := by
  obtain ⟨hp, hs⟩ := onAx_unmoved (f := countRefresh) s x y
  rw [← hp, ← hs]
  exact onLeg_unmoved _ x l _ y

theorem bootRefreshPulse_pulses {s : State} {x : Axis} {l : Leg} (hc : Calm s) (hs : (getAx s x).pwm.switching = true)
    (hl : l ∉ heldLegs s x) (hh : (getLeg s x l).hi = true) :
    ∃ t, exec (.bootRefreshPulse x l) s = .next t ∧
      (getAx t x).stage = { (getAx s x).stage with bootRefresh := (getAx s x).stage.bootRefresh + 1 } ∧
      (getAx t x).pwm = (getAx s x).pwm ∧
      (let v := nextValley (getAx s x).pwm l (max (4 * s.clk.now) (getAx s x).pwm.carAt)
       (getLeg t x l).trans = (v + 240, (getLeg s x l).dtRise, true) :: (v, (getLeg s x l).dtFall, false) :: (getLeg s x l).trans) ∧
      (∀ k, k ≠ l → getLeg t x k = getLeg s x k) ∧ OnlyChanges [axPart x] s t := by
  have hg : (legLive s x l && (getLeg s x l).hi) = true := by simp [legLive_of hs hl, hh]
  have hf := refreshLeg_onlyChanges s x l
  have hm := refreshLeg_unmoved s x l
  refine ⟨refreshLeg s x l, (execBootRefreshPulse_eq x l s).trans (when_unmoved hg hc hf (by cases x <;> decide) hm), ?_, (hm x).1, ?_,
    fun k hk => ?_, hf⟩
  · rw [refreshLeg, onLeg_stage, getAx_onAx]
    rfl
  · rw [refreshLeg, getLeg_onLeg, getLeg_countRefresh]
    rfl
  · rw [refreshLeg, getLeg_onLeg_other _ _ hk, getLeg_countRefresh]

/-! ### Edges (04 R71, R73) -/

theorem deadTime_eq (s : State) (x : Axis) (soft : Bool) (since : Nat) : deadTime s x soft since =
    if parX s x Par.dtAdapt = 0 then ticksOf (parX s x Par.dtInit)
    else if soft then min (max (since + ticksOf (parX s x Par.dtMargin)) (ticksOf (parX s x Par.dtMin))) (ticksOf (parX s x Par.dtMax))
    else ticksOf (parX s x Par.dtMin) := by simp [deadTime]

/-- An edge of a leg that switches reaches its port: its run of missing edges ends, and after 1,000 seen ones so does its mark. -/
def takeEdge (s : State) (x : Axis) (l : Leg) (rising soft : Bool) (tick since : Nat) (g : LegSt) : LegSt :=
  { edgeSeen s x l rising soft tick (deadTime s x soft since) g with
    missRun := 0, seenRun := if 1000 ≤ g.seenRun + 1 then 0 else g.seenRun + 1,
    edgeSuspect := g.edgeSuspect && decide (g.seenRun + 1 < 1000) }
/-- What a missing edge leaves of the dead-time of its kind (04 R71, R73; log 121). -/
def missDead (s : State) (x : Axis) : Nat :=
  if parX s x Par.dtAdapt == 0 then ticksOf (parX s x Par.dtInit) else ticksOf (parX s x Par.dtMax)
/-- A missing edge of a leg that switches: counted, taken at its commanded instant; the sixteenth in a row marks the leg. -/
def missEdge (s : State) (x : Axis) (l : Leg) (rising : Bool) (commanded : Nat) (g : LegSt) : LegSt :=
  { edgeSeen s x l rising false commanded (missDead s x) g with
    edgeMiss := g.edgeMiss + 1, missRun := (getLeg s x l).missRun + 1, seenRun := 0,
    edgeSuspect := g.edgeSuspect || decide ((getLeg s x l).missRun + 1 = 16) }
/-- The sixteenth missing edge in a row raises WARN 0x2202 with its leg. -/
def warnMissing (s : State) (x : Axis) (l : Leg) (n : Nat) : State :=
  if n = 16 then raise0 s 0x2202 (scopeOf x) (legIdx x l) else s

theorem execSwitchNodeEdge_eq (x : Axis) (l : Leg) (rising soft : Bool) (tick since : Nat) (s : State) :
    execSwitchNodeEdge x l rising soft tick since s = when_ s (legLive s x l) (onLeg s x l (takeEdge s x l rising soft tick since)) := rfl
theorem execEdgeMissing_eq (x : Axis) (l : Leg) (rising : Bool) (commanded : Nat) (s : State) :
    execEdgeMissing x l rising commanded s = when_ s (legLive s x l)
      (warnMissing (onLeg s x l (missEdge s x l rising commanded)) x l ((getLeg s x l).missRun + 1)) := rfl

theorem switchNodeEdge_taken {s : State} {x : Axis} {l : Leg} (rising soft : Bool) (tick since : Nat) (hc : Calm s)
    (hs : (getAx s x).pwm.switching = true) (hl : l ∉ heldLegs s x) :
    exec (.switchNodeEdge x l rising soft tick since) s = .next (onLeg s x l (takeEdge s x l rising soft tick since)) :=
  (execSwitchNodeEdge_eq x l rising soft tick since s).trans
    (when_unmoved (legLive_of hs hl) hc (onLeg_onlyChanges s x l _) (by cases x <;> decide) (onLeg_unmoved s x l _))

theorem switchNodeEdge_rises {s : State} {x : Axis} {l : Leg} {soft : Bool} {tick since : Nat} (hc : Calm s)
    (hs : (getAx s x).pwm.switching = true) (hl : l ∉ heldLegs s x) :
    ∃ t, exec (.switchNodeEdge x l true soft tick since) s = .next t ∧
      (getLeg t x l).riseAt = tick - (carrierStart (getAx s x).pwm l tick).getD 0 ∧
      (getLeg t x l).riseSoft = soft ∧ (getLeg t x l).missRun = 0 ∧ (getLeg t x l).edges = (tick, true) :: (getLeg s x l).edges ∧
      (getLeg t x l).dtRise = (if parX s x Par.dtAdapt = 0 then ticksOf (parX s x Par.dtInit)
        else if soft then min (max (since + ticksOf (parX s x Par.dtMargin)) (ticksOf (parX s x Par.dtMin))) (ticksOf (parX s x Par.dtMax))
        else ticksOf (parX s x Par.dtMin)) ∧
      (getLeg t x l).dtFall = (getLeg s x l).dtFall ∧ (∀ k, k ≠ l → getLeg t x k = getLeg s x k) ∧ OnlyChanges [axPart x] s t := by
  refine ⟨_, switchNodeEdge_taken true soft tick since hc hs hl, ?_⟩
  rw [getLeg_onLeg, ← deadTime_eq]
  exact ⟨rfl, rfl, rfl, rfl, rfl, rfl, fun k hk => getLeg_onLeg_other s x hk _, onLeg_onlyChanges s x l _⟩
theorem switchNodeEdge_falls {s : State} {x : Axis} {l : Leg} {soft : Bool} {tick since : Nat} (hc : Calm s)
    (hs : (getAx s x).pwm.switching = true) (hl : l ∉ heldLegs s x) :
    ∃ t, exec (.switchNodeEdge x l false soft tick since) s = .next t ∧
      (getLeg t x l).fallAt = tick - (carrierStart (getAx s x).pwm l tick).getD 0 ∧
      (getLeg t x l).fallSoft = soft ∧ (getLeg t x l).missRun = 0 ∧ (getLeg t x l).dtRise = (getLeg s x l).dtRise ∧
      (getLeg t x l).dtFall = (if parX s x Par.dtAdapt = 0 then ticksOf (parX s x Par.dtInit)
        else if soft then min (max (since + ticksOf (parX s x Par.dtMargin)) (ticksOf (parX s x Par.dtMin))) (ticksOf (parX s x Par.dtMax))
        else ticksOf (parX s x Par.dtMin)) ∧
      (∀ k, k ≠ l → getLeg t x k = getLeg s x k) ∧ OnlyChanges [axPart x] s t := by
  refine ⟨_, switchNodeEdge_taken false soft tick since hc hs hl, ?_⟩
  rw [getLeg_onLeg, ← deadTime_eq]
  exact ⟨rfl, rfl, rfl, rfl, rfl, fun k hk => getLeg_onLeg_other s x hk _, onLeg_onlyChanges s x l _⟩

/-! ### Missing edges (04 R73) -/

theorem warnMissing_onlyChanges (s : State) (x : Axis) (l : Leg) (n : Nat) : OnlyChanges signals s (warnMissing s x l n) := by
  unfold warnMissing
  split
  · exact raise_signals (by decide) s _ _ _ _
  · exact onlyChanges_refl _ s
theorem getAx_warnMissing (s : State) (x : Axis) (l : Leg) (n : Nat) (y : Axis) : getAx (warnMissing s x l n) y = getAx s y :=
  (warnMissing_onlyChanges s x l n).getAx_both (by decide) (by decide) y
@[simp] theorem getLeg_warnMissing (s : State) (x : Axis) (l : Leg) (n : Nat) (k : Leg) :
    getLeg (warnMissing s x l n) x k = getLeg s x k := by
  rw [getLeg, getAx_warnMissing, ← getLeg]

theorem edgeMissing_counts {s : State} {x : Axis} {l : Leg} {rising : Bool} {commanded : Nat} (hc : Calm s)
    (hs : (getAx s x).pwm.switching = true) (hl : l ∉ heldLegs s x) :
    ∃ t, exec (.edgeMissing x l rising commanded) s = .next t ∧ (getLeg t x l).edgeMiss = (getLeg s x l).edgeMiss + 1 ∧
      (getLeg t x l).missRun = (getLeg s x l).missRun + 1 ∧
      (if rising then (getLeg t x l).riseAt = commanded - (carrierStart (getAx s x).pwm l commanded).getD 0
       else (getLeg t x l).fallAt = commanded - (carrierStart (getAx s x).pwm l commanded).getD 0) ∧
      (parX s x Par.dtAdapt ≠ 0 →
        if rising then (getLeg t x l).dtRise = ticksOf (parX s x Par.dtMax) else (getLeg t x l).dtFall = ticksOf (parX s x Par.dtMax)) ∧
      ((getLeg s x l).missRun + 1 = 16 →
        (getLeg t x l).edgeSuspect = true ∧ Raised t 0x2202 (scopeOf x) (BitVec.ofNat 8 (axisNo x * 6 + legNo l))) ∧
      (∀ k, k ≠ l → getLeg t x k = getLeg s x k) ∧ OnlyChanges ([axPart x] ++ signals) s t := by
  let s1 := onLeg s x l (missEdge s x l rising commanded)
  let n := (getLeg s x l).missRun + 1
  have hf : OnlyChanges ([axPart x] ++ signals) s (warnMissing s1 x l n) :=
    .trans ((onLeg_onlyChanges s x l _).mono (by simp)) ((warnMissing_onlyChanges s1 x l n).mono (by simp))
  have hm : ∀ y, (getAx (warnMissing s1 x l n) y).pwm = (getAx s y).pwm ∧ (getAx (warnMissing s1 x l n) y).start = (getAx s y).start :=
    fun y => by rw [getAx_warnMissing]; exact onLeg_unmoved s x l _ y
  have hleg : getLeg (warnMissing s1 x l n) x l = missEdge s x l rising commanded (getLeg s x l) := by simp [s1]
  refine ⟨warnMissing s1 x l n, (execEdgeMissing_eq x l rising commanded s).trans
    (when_unmoved (legLive_of hs hl) hc hf (by cases x <;> decide) hm), ?_⟩
  rw [hleg]
  refine ⟨by cases rising <;> rfl, rfl, by cases rising <;> rfl, fun ha => ?_, fun h16 => ⟨?_, ?_⟩, fun k hk => ?_, hf⟩
  · have hd : missDead s x = ticksOf (parX s x Par.dtMax) := if_neg (by simpa using ha)
    rw [← hd]
    cases rising <;> rfl
  · simp [missEdge, h16]
  · rw [warnMissing, if_pos h16]
    exact raise_raised _ _ _ _ _ _
  · rw [getLeg_warnMissing]
    exact getLeg_onLeg_other s x hk _

/-- Settles O15: a leg that switches takes its refresh pulse, its rising and its falling edges, and its missing ones, each in its own
state alone; the sixteenth missing one raises its WARN besides. -/
theorem legEdges : Obligations.LegEdges :=
  ⟨fun _ _ _ => bootRefreshPulse_pulses, fun _ _ _ _ _ _ => switchNodeEdge_rises, fun _ _ _ _ _ _ => switchNodeEdge_falls,
    fun _ _ _ _ _ => edgeMissing_counts⟩

end Sys2Proof.Machine
end

section
/-!
SUPPORT. The bypass of a tripped leg and of a commanded one (04 R78 to R81; 05 R112).
-/

namespace Sys2Proof.Machine
open Sys2Proof
set_option Elab.async false

/-! ### The tripped leg (04 R80) -/

theorem legNo_legOf {k : Nat} (hk : k < 6) : legNo (legOf k) = k := by
  have legs : ∀ k < 6, legNo (legOf k) = k := by decide
  exact legs k hk
/-- The mask bit of a leg. -/
theorem legMask {k : Nat} (hk : k < 6) : (bitW k).setWidth 6 = (1 : BitVec 6) <<< k := by
  have legs : ∀ k < 6, (bitW k).setWidth 6 = (1 : BitVec 6) <<< k := by decide
  exact legs k hk
/-- The Scarp source that tripped an axis first. -/
def tripBit (s : State) (x : Axis) : Nat := (getAx s x).pwm.scarpFirst.toNat
/-- The tripped leg of an axis may be tested and bypassed (04 R79, R80). -/
def testsLeg (s : State) (x : Axis) : Bool :=
  isReady s && tripped s x && parX s x Par.legAutoBypass == 1 && mayBypass s x && hosted s x

theorem tripBit_comparator {s : State} {x : Axis} {k : Nat} (hk : k < 6)
    (hf : (getAx s x).pwm.scarpFirst = BitVec.ofNat 8 (axisNo x * 6 + k)) : tripBit s x = axisNo x * 6 + k := by
  rw [tripBit, hf, BitVec.toNat_ofNat]
  cases x <;> simp only [axisNo] <;> omega
/-- A first source that is a leg comparator names its leg. -/
theorem trippedLeg_comparator {s : State} {x : Axis} {k : Nat} (hk : k < 6)
    (hf : (getAx s x).pwm.scarpFirst = BitVec.ofNat 8 (axisNo x * 6 + k)) : trippedLeg s x = some k := by
  have hn := tripBit_comparator hk hf
  have hx : axisNo x ≤ 1 := by cases x <;> decide
  have h1 : (axisNo x * 6 + k) / 6 = axisNo x := by omega
  have h2 : (axisNo x * 6 + k) % 6 = k := by omega
  have h3 : axisNo x * 6 + k < 12 := by omega
  unfold tripBit at hn
  simp [trippedLeg, hn, h1, h2, h3]
/-- The comparators of an axis's legs turn its gates off (05 Table 5.2). -/
theorem axisBits_leg (x : Axis) {k : Nat} (hk : k < 6) : (axisBits x).getLsbD (axisNo x * 6 + k) = true := by
  have legs : ∀ k < 6, (axisBits x).getLsbD (axisNo x * 6 + k) = true := by cases x <;> decide
  exact legs k hk
theorem tripped_of_latch {s : State} {x : Axis} {n : Nat} (hl : s.scarp.latch.getLsbD n = true) (hx : (axisBits x).getLsbD n = true) :
    tripped s x = true := by
  have hb : (s.scarp.latch &&& axisBits x).getLsbD n = true := by simp [hl, hx]
  have hne : s.scarp.latch &&& axisBits x ≠ 0 := fun h => by simp [h] at hb
  simpa [tripped] using hne
theorem testsLeg_of {s : State} {x : Axis} {k : Nat} (hr : isReady s = true) (hh : hosted s x = true) (hp : parX s x Par.legAutoBypass = 1)
    (hd : dualStar s x = true ∨ parX s x Par.phaseSatOk = 1) (hm : (getAx s x).stage.bypassMask = 0) (hk : k < 6)
    (hl : s.scarp.latch.getLsbD (axisNo x * 6 + k) = true) : testsLeg s x = true := by
  have ht := tripped_of_latch hl (axisBits_leg x hk)
  simpa [testsLeg, mayBypass, hr, ht, hp, hm, hh] using hd

/-! ### Latches that clear (05 R112) -/

theorem bitW_getLsbD (n k : Nat) : (bitW n).getLsbD k = (decide (k < 32) && decide (k = n)) := by
  unfold bitW
  by_cases h : k = n
  · subst h
    by_cases hk : k < 32 <;> simp [hk]
  · rcases Nat.lt_or_gt_of_ne h with hlt | hgt
    · simp [h, hlt]
    · have : k - n ≠ 0 := by omega
      simp [h, this]
/-- Bits collected one by one: one that is named and chosen is set. -/
theorem foldl_bits_getLsbD (p : Nat → Bool) {l : List Nat} {m : Word} {k : Nat} (hk : k < 32)
    (h : m.getLsbD k = true ∨ k ∈ l ∧ p k = true) :
    (l.foldl (fun m n => if p n then m ||| bitW n else m) m).getLsbD k = true := by
  induction l generalizing m with
  | nil => simpa using h
  | cons n l ih =>
    refine ih ?_
    rcases h with h | ⟨hm, hp⟩
    · left
      dsimp only
      split <;> simp [h]
    · rcases List.mem_cons.mp hm with rfl | hm
      · left
        simp [hp, bitW_getLsbD, hk]
      · exact .inr ⟨hm, hp⟩

theorem settleTrip_onlyChanges (s : State) : OnlyChanges [.axisA, .axisB] s (settleTrip s) := by
  refine OnlyChanges.of_foldl (fun t x _ => ?_) s
  split
  · exact onlyChanges_refl _ t
  · exact (onAx_onlyChanges t x _).mono (by cases x <;> decide)
theorem settleTrip_stage (s : State) (x : Axis) : (getAx (settleTrip s) x).stage = (getAx s x).stage := by
  refine foldl_keeps (fun t : State => (getAx t x).stage) _ (fun t y => ?_) _ _
  split
  · rfl
  · exact onAx_keeps AxisSt.stage t y x
theorem clearLatch_onlyChanges (s : State) (bits : Word) : OnlyChanges [.scarp, .axisA, .axisB] s (clearLatch s bits) :=
  .trans ((setScarp_onlyChanges s _).mono (by decide)) ((settleTrip_onlyChanges _).mono (by decide))
theorem clearLatch_stage (s : State) (bits : Word) (x : Axis) : (getAx (clearLatch s bits) x).stage = (getAx s x).stage :=
  settleTrip_stage _ x
/-- A named latch bit whose source is inactive clears. -/
theorem clearLatch_clears {s : State} {bits : Word} {n : Nat} (hn : n < 32) (hb : bits.getLsbD n = true)
    (hi : sourceInactive s n = true) : (clearLatch s bits).scarp.latch.getLsbD n = false := by
  have hm := foldl_bits_getLsbD (fun n => bits.getLsbD n && sourceInactive s n) (l := List.range 32) (m := 0) hn
    (.inr ⟨List.mem_range.mpr hn, by simp [hb, hi]⟩)
  unfold clearLatch
  dsimp only
  rw [show (settleTrip _).scarp = _ from (settleTrip_onlyChanges _).2 .scarp (by decide)]
  simp only [BitVec.getLsbD_and, BitVec.getLsbD_not]
  rw [hm]
  simp

/-! ### The bypass (04 R78 to R81) -/

/-- The trip of an axis's first source cleared for this cause: its latch, and its entries in the list. -/
def clearTrip (s : State) (x : Axis) : State :=
  let s1 := clearLatch s (bitW (tripBit s x))
  (s1.flt.list.filter (fun e => entryBit e == some (tripBit s x))).foldl (fun t e => leaveList t e 2) s1
/-- A flying start follows the bypass. -/
def restartsAfter (s : State) (x : Axis) : Bool := (getAx s x).stage.autoBypass && !tripped (clearTrip s x) x && !s.pwr.safe
/-- The tripped leg is bypassed. -/
def bypassLeg (s : State) (x : Axis) (k : Nat) : State :=
  onAx (setBypass (clearTrip s x) x (legOf k)) x (fun a =>
    { a with stage.autoBypass := false, stage.tripHold := a.stage.tripHold && !restartsAfter s x })

theorem execLegAutoBypass_eq {s : State} {x : Axis} {k : Nat} (h : trippedLeg s x = some k) (ma : Nat) :
    execLegAutoBypass x ma s = when_ s (testsLeg s x)
      (if 10000 < ma then raise1 s 0x5209 (scopeOf x) (legIdx x (legOf k))
       else if (clearLatch s (bitW (tripBit s x))).scarp.latch.getLsbD (tripBit s x) then s
       else if restartsAfter s x then beginAttempt (bypassLeg s x k) x .flying 0 else bypassLeg s x k) := by
  unfold execLegAutoBypass
  rw [h]
  rfl

theorem clearTrip_onlyChanges (s : State) (x : Axis) : OnlyChanges ([Part.scarp, .axisA, .axisB] ++ signals) s (clearTrip s x) :=
  .trans ((clearLatch_onlyChanges s _).mono (by decide))
    (OnlyChanges.of_foldl (fun t e _ => (leaveList_onlyChanges t e 2).mono (by decide)) _)
theorem clearTrip_stage (s : State) (x y : Axis) : (getAx (clearTrip s x) y).stage = (getAx s y).stage :=
  (foldl_keeps (fun t : State => (getAx t y).stage) _ (fun t e => by simp [getAx]) _ _).trans (clearLatch_stage s _ y)
theorem clearTrip_scarp (s : State) (x : Axis) : (clearTrip s x).scarp = (clearLatch s (bitW (tripBit s x))).scarp :=
  foldl_keeps State.scarp _ (fun t e => by simp) _ _

/-- A leg held off by a bypass made at an instant. -/
def holdLeg (l : Leg) (now : Nat) (a : AxisSt) : AxisSt :=
  { a with stage.bypassMask := a.stage.bypassMask ||| (bitW (legNo l)).setWidth 6, stage.bypass := .none, stage.bypassAt := now }
theorem setBypass_eq (s : State) (x : Axis) (l : Leg) : setBypass s x l =
    raise1 (onAx { s with cairn.pendingTr := s.cairn.pendingTr ++ [(.legBypassed x l, s.clk.now)] } x (holdLeg l s.clk.now))
      0x3205 (scopeOf x) (legIdx x l) := rfl
theorem setBypass_onlyChanges (s : State) (x : Axis) (l : Leg) : OnlyChanges ([Part.cairn, axPart x] ++ signals) s (setBypass s x l) := by
  rw [setBypass_eq]
  exact .trans ((setCairn_onlyChanges s _).mono (by simp)) (.trans ((onAx_onlyChanges _ x _).mono (by simp))
    ((raise_signals (by decide) _ _ _ _ _).mono (by simp)))
theorem setBypass_axis (s : State) (x : Axis) (l : Leg) : getAx (setBypass s x l) x = holdLeg l s.clk.now (getAx s x) := by
  rw [setBypass_eq, raise1, raise_eq_record (by decide), getAx_record, getAx_onAx]
  rfl
theorem setBypass_raised (s : State) (x : Axis) (l : Leg) : Raised (setBypass s x l) 0x3205 (scopeOf x) (legIdx x l) :=
  raise_raised _ _ _ _ _ _
theorem setBypass_cairn (s : State) (x : Axis) (l : Leg) :
    (setBypass s x l).cairn = { s.cairn with pendingTr := s.cairn.pendingTr ++ [(.legBypassed x l, s.clk.now)] } := by
  simp [setBypass_eq, raise1]

theorem bypassLeg_onlyChanges (s : State) (x : Axis) (k : Nat) :
    OnlyChanges ([Part.scarp, .cairn, .axisA, .axisB] ++ signals) s (bypassLeg s x k) :=
  .trans ((clearTrip_onlyChanges s x).mono (by decide))
    (.trans ((setBypass_onlyChanges _ x _).mono (by cases x <;> decide)) ((onAx_onlyChanges _ x _).mono (by cases x <;> decide)))
theorem bypassLeg_stage (s : State) (x : Axis) (k : Nat) :
    (getAx (bypassLeg s x k) x).stage.bypassMask = (getAx s x).stage.bypassMask ||| (bitW (legNo (legOf k))).setWidth 6 ∧
      (getAx (bypassLeg s x k) x).stage.bypassAt = s.clk.now := by
  have hc : (clearTrip s x).clk = s.clk := (clearTrip_onlyChanges s x).2 .clk (by decide)
  rw [bypassLeg, getAx_onAx, setBypass_axis]
  simp [holdLeg, clearTrip_stage, hc]
theorem bypassLeg_raised (s : State) (x : Axis) (k : Nat) : Raised (bypassLeg s x k) 0x3205 (scopeOf x) (legIdx x (legOf k)) :=
  (onAx_raisesKept _ x _).raised (setBypass_raised _ x _)
theorem bypassLeg_pendingTr (s : State) (x : Axis) (k : Nat) :
    (bypassLeg s x k).cairn.pendingTr = s.cairn.pendingTr ++ [(.legBypassed x (legOf k), s.clk.now)] := by
  have hc : (clearTrip s x).clk = s.clk := (clearTrip_onlyChanges s x).2 .clk (by decide)
  have hn : (clearTrip s x).cairn = s.cairn := (clearTrip_onlyChanges s x).2 .cairn (by decide)
  simp [bypassLeg, setBypass_cairn, hc, hn]
theorem bypassLeg_scarp (s : State) (x : Axis) (k : Nat) : (bypassLeg s x k).scarp = (clearLatch s (bitW (tripBit s x))).scarp := by
  have hb : (setBypass (clearTrip s x) x (legOf k)).scarp = (clearTrip s x).scarp :=
    (setBypass_onlyChanges _ x _).2 .scarp (by cases x <;> decide)
  rw [bypassLeg, onAx_scarp, hb, clearTrip_scarp]

theorem legAutoBypass_shorted {s : State} {x : Axis} {k ma : Nat} (hc : Calm s) (hr : isReady s = true) (hh : hosted s x = true)
    (hp : parX s x Par.legAutoBypass = 1) (hd : dualStar s x = true ∨ parX s x Par.phaseSatOk = 1)
    (hm : (getAx s x).stage.bypassMask = 0) (hk : k < 6) (hf : (getAx s x).pwm.scarpFirst = BitVec.ofNat 8 (axisNo x * 6 + k))
    (hl : s.scarp.latch.getLsbD (axisNo x * 6 + k) = true) (ha : 10000 < ma) :
    ∃ t, exec (.legAutoBypass x ma) s = .next t ∧ Raised t 0x5209 (scopeOf x) (BitVec.ofNat 8 (axisNo x * 6 + k)) ∧
      t.scarp = s.scarp ∧ getAx t x = getAx s x ∧ OnlyChanges signals s t := by
  have hs : OnlyChanges signals s (raise1 s 0x5209 (scopeOf x) (legIdx x (legOf k))) := raise_signals (by decide) _ _ _ _ _
  have he := execLegAutoBypass_eq (trippedLeg_comparator hk hf) ma
  rw [if_pos ha] at he
  refine ⟨_, he.trans (when_axes_kept (testsLeg_of hr hh hp hd hm hk hl) hc hs (by decide)), ?_, hs.2 .scarp (by decide),
    hs.getAx_both (by decide) (by decide) x, hs⟩
  rw [legIdx, legNo_legOf hk]
  exact raise_raised _ _ _ _ _ _

theorem legAutoBypass_bypasses {s : State} {x : Axis} {k ma : Nat} (hc : Calm s) (hr : isReady s = true) (hh : hosted s x = true)
    (hp : parX s x Par.legAutoBypass = 1) (hd : dualStar s x = true ∨ parX s x Par.phaseSatOk = 1)
    (hm : (getAx s x).stage.bypassMask = 0) (hk : k < 6) (hf : (getAx s x).pwm.scarpFirst = BitVec.ofNat 8 (axisNo x * 6 + k))
    (hl : s.scarp.latch.getLsbD (axisNo x * 6 + k) = true) (hw : s.scarp.raw.getLsbD (axisNo x * 6 + k) = false)
    (hb : (getAx s x).stage.autoBypass = false) (ha : ma ≤ 10000) :
    ∃ t, exec (.legAutoBypass x ma) s = .next t ∧ t.scarp.latch.getLsbD (axisNo x * 6 + k) = false ∧
      (getAx t x).stage.bypassMask = (1 : BitVec 6) <<< k ∧ (getAx t x).stage.bypassAt = s.clk.now ∧
      Raised t 0x3205 (scopeOf x) (BitVec.ofNat 8 (axisNo x * 6 + k)) ∧
      t.cairn.pendingTr = s.cairn.pendingTr ++ [(.legBypassed x (legOf k), s.clk.now)] ∧
      OnlyChanges ([Part.scarp, Part.cairn, Part.axisA, Part.axisB] ++ signals) s t := by
  have hn : axisNo x * 6 + k < 12 := by
    have : axisNo x ≤ 1 := by cases x <;> decide
    omega
  have ht := tripBit_comparator hk hf
  have hq : (clearLatch s (bitW (tripBit s x))).scarp.latch.getLsbD (tripBit s x) = false := by
    rw [ht]
    refine clearLatch_clears (by omega) (by simp [bitW_getLsbD]; omega) ?_
    rw [sourceInactive, if_pos (by omega), hw]
    rfl
  have he := execLegAutoBypass_eq (trippedLeg_comparator hk hf) ma
  rw [if_neg (by omega), if_neg (by simp [hq]), if_neg (by simp [restartsAfter, hb])] at he
  have hf' := bypassLeg_onlyChanges s x k
  obtain ⟨hmask, hat⟩ := bypassLeg_stage s x k
  refine ⟨_, he.trans (when_settles (testsLeg_of hr hh hp hd hm hk hl) (hf'.calm hc (by decide))), ?_, ?_, ?_, ?_, ?_, ?_⟩
  · rw [settle_scarp, bypassLeg_scarp, ← ht, hq]
  · rw [getAx_settle, hmask, hm, legNo_legOf hk, legMask hk]
    exact BitVec.zero_or
  · rw [getAx_settle, hat]
  · have := settle_raised (z := s) (bypassLeg_raised s x k)
    rwa [legIdx, legNo_legOf hk] at this
  · rw [settle_cairn, bypassLeg_pendingTr]
  · exact hf'.trans ((settle_onlyChanges s _).mono (by decide))

/-! ### The end of a commanded ramp (04 R81) -/

/-- A ramp that has ended waits for the boundary at which its leg is held off. -/
def rampEnded (l : Leg) (a : AxisSt) : AxisSt := { a with stage := { a.stage with bypass := .atSwap l } }
theorem execLegBypassRampEnd_ramp {s : State} {x : Axis} {l : Leg} (hb : (getAx s x).stage.bypass = .ramp l) :
    execLegBypassRampEnd x s = when_ s true (onAx s x (rampEnded l)) := by
  rw [execLegBypassRampEnd, hb]
  rfl
theorem legBypassRampEnd_waits {s : State} {x : Axis} {l : Leg} (hc : Calm s) (hb : (getAx s x).stage.bypass = .ramp l) :
    ∃ t, exec (.legBypassRampEnd x) s = .next t ∧
      getAx t x = { getAx s x with stage := { (getAx s x).stage with bypass := .atSwap l } } ∧ OnlyChanges [axPart x] s t := by
  have hf := onAx_onlyChanges s x (rampEnded l)
  have hm := onAx_unmoved (f := rampEnded l) s x
  exact ⟨_, (execLegBypassRampEnd_ramp hb).trans (when_unmoved rfl hc hf (by cases x <;> decide) hm), getAx_onAx s x _, hf⟩

end Sys2Proof.Machine
end

section
/-!
SUPPORT. The imbalance of phases and the ratings (04 R64, R75 to R77), and the statement about bypass, imbalance and ratings.
-/

namespace Sys2Proof.Machine
open Sys2Proof
set_option Elab.async false

/-! ### Imbalance (04 R64) -/

/-- Mean of a phase over the block that ends. -/
def imbMean (s : State) (x : Axis) (t : F32) : F32 := fThoevo (fval t / ((max (getAx s x).stage.imbN 1 : Nat) : Rat))
/-- The three phases judged one after the other. -/
def judgePhases (s : State) (x : Axis) : State :=
  let g := (getAx s x).stage
  [(0, imbMean s x g.imbU), (1, imbMean s x g.imbV), (2, imbMean s x g.imbW)].foldl (imbPhase x) s
/-- The next block begins. -/
def newBlock (a : AxisSt) : AxisSt := { a with stage.imbU := 0, stage.imbV := 0, stage.imbW := 0, stage.imbN := 0 }
/-- A phase marked, or not, as one that exceeded the limit. -/
def markPhase (exceeds : Bool) (p : Nat) (a : AxisSt) : AxisSt :=
  { a with stage.imbRaised :=
      if exceeds then a.stage.imbRaised ||| (bitW p).setWidth 3 else a.stage.imbRaised &&& ~~~((bitW p).setWidth 3) }

theorem execLegImbBlockEnd_eq (x : Axis) (s : State) : execLegImbBlockEnd x s =
    when_ s (!dualStar s x && decide (0 < (getAx s x).stage.imbN)) (onAx (judgePhases s x) x newBlock) := rfl
theorem imbPhase_eq (x : Axis) (s : State) (p : Nat × F32) : imbPhase x s p =
    if flt (parX s x Par.legImbWarn) (fabs p.2) && !(getAx s x).stage.imbRaised.getLsbD p.1 then
      raise (onAx s x (markPhase (flt (parX s x Par.legImbWarn) (fabs p.2)) p.1)) 0x2201 (scopeOf x) (BitVec.ofNat 8 p.1) p.2 false
    else onAx s x (markPhase (flt (parX s x Par.legImbWarn) (fabs p.2)) p.1) := rfl
/-- Of the axes, a judged phase changes its own mark. -/
theorem getAx_imbPhase (x : Axis) (s : State) (p : Nat × F32) (y : Axis) : getAx (imbPhase x s p) y =
    getAx (onAx s x (markPhase (flt (parX s x Par.legImbWarn) (fabs p.2)) p.1)) y := by
  rw [imbPhase_eq]
  split
  · rw [raise_eq_record (by decide), getAx_record]
  · rfl
theorem imbPhase_onlyChanges (x : Axis) (s : State) (p : Nat × F32) : OnlyChanges ([axPart x] ++ signals) s (imbPhase x s p) := by
  have h := (onAx_onlyChanges s x (markPhase (flt (parX s x Par.legImbWarn) (fabs p.2)) p.1)).mono
    (List.subset_append_left [axPart x] signals)
  rw [imbPhase_eq]
  split
  · exact h.trans ((raise_signals (by decide) _ _ _ _ _).mono (List.subset_append_right _ _))
  · exact h
theorem imbPhase_raisesKept (x : Axis) (s : State) (p : Nat × F32) : RaisesKept s (imbPhase x s p) := by
  rw [imbPhase_eq]
  split
  · rw [raise_eq_record (by decide)]
    exact (onAx_raisesKept s x _).trans (record_raisesKept _ (by decide) _ _ _ _)
  · exact onAx_raisesKept s x _
theorem imbPhase_unmoved (x : Axis) (s : State) (p : Nat × F32) (y : Axis) :
    (getAx (imbPhase x s p) y).pwm = (getAx s y).pwm ∧ (getAx (imbPhase x s p) y).start = (getAx s y).start := by
  rw [getAx_imbPhase]
  exact onAx_unmoved s x y
/-- A phase keeps the marks of the others. -/
theorem imbPhase_marks_kept (x : Axis) (s : State) (p : Nat × F32) {j : Nat} (hj : j ≠ p.1) :
    (getAx (imbPhase x s p) x).stage.imbRaised.getLsbD j = (getAx s x).stage.imbRaised.getLsbD j := by
  rw [getAx_imbPhase, getAx_onAx]
  by_cases h3 : j < 3
  · cases flt (parX s x Par.legImbWarn) (fabs p.2) <;> simp [markPhase, bitW_getLsbD, hj, h3]
  · rw [BitVec.getLsbD_of_ge _ _ (by omega), BitVec.getLsbD_of_ge _ _ (by omega)]
/-- A phase that exceeds the limit and did not in the block before is marked and raised. -/
theorem imbPhase_raises {x : Axis} {s : State} {p : Nat × F32} (hp : p.1 < 3) (he : flt (parX s x Par.legImbWarn) (fabs p.2) = true)
    (hw : (getAx s x).stage.imbRaised.getLsbD p.1 = false) :
    (getAx (imbPhase x s p) x).stage.imbRaised.getLsbD p.1 = true ∧
      Raised (imbPhase x s p) 0x2201 (scopeOf x) (BitVec.ofNat 8 p.1) := by
  constructor
  · rw [getAx_imbPhase, getAx_onAx, he]
    have h32 : p.1 < 32 := by omega
    simp [markPhase, bitW_getLsbD, hp, h32]
  · rw [imbPhase_eq, if_pos (by simp [he, hw])]
    exact raise_raised _ _ _ _ _ _

theorem judgePhases_onlyChanges (s : State) (x : Axis) : OnlyChanges ([axPart x] ++ signals) s (judgePhases s x) :=
  OnlyChanges.of_foldl (fun t p _ => imbPhase_onlyChanges x t p) s
theorem judgePhases_unmoved (s : State) (x y : Axis) :
    (getAx (judgePhases s x) y).pwm = (getAx s y).pwm ∧ (getAx (judgePhases s x) y).start = (getAx s y).start :=
  ⟨foldl_keeps (fun t : State => (getAx t y).pwm) _ (fun t p => (imbPhase_unmoved x t p y).1) _ s,
    foldl_keeps (fun t : State => (getAx t y).start) _ (fun t p => (imbPhase_unmoved x t p y).2) _ s⟩
/-- Phase U is judged first; the two after it keep its mark and its WARN. -/
theorem judgePhases_raises_u {s : State} {x : Axis} (he : flt (parX s x Par.legImbWarn) (fabs (imbMean s x (getAx s x).stage.imbU)) = true)
    (hw : (getAx s x).stage.imbRaised.getLsbD 0 = false) :
    (getAx (judgePhases s x) x).stage.imbRaised.getLsbD 0 = true ∧ Raised (judgePhases s x) 0x2201 (scopeOf x) 0 := by
  obtain ⟨hm, hr⟩ := imbPhase_raises (x := x) (p := (0, imbMean s x (getAx s x).stage.imbU)) (by simp) he hw
  constructor
  · exact (imbPhase_marks_kept x _ _ (by simp)).trans ((imbPhase_marks_kept x _ _ (by simp)).trans hm)
  · exact (imbPhase_raisesKept x _ _).raised ((imbPhase_raisesKept x _ _).raised hr)

theorem legImbBlockEnd_ends {s : State} {x : Axis} (hc : Calm s) (hd : dualStar s x = false) (hn : 0 < (getAx s x).stage.imbN) :
    ∃ t, exec (.legImbBlockEnd x) s = .next t ∧ (getAx t x).stage.imbN = 0 ∧ (getAx t x).stage.imbU = 0 ∧
      (getAx t x).stage.imbV = 0 ∧ (getAx t x).stage.imbW = 0 ∧
      (flt (parX s x Par.legImbWarn) (fabs (frnd (fval (getAx s x).stage.imbU / (getAx s x).stage.imbN))) = true →
        (getAx s x).stage.imbRaised.getLsbD 0 = false →
        (getAx t x).stage.imbRaised.getLsbD 0 = true ∧ Raised t 0x2201 (scopeOf x) 0) ∧
      OnlyChanges ([axPart x] ++ signals) s t := by
  have hg : (!dualStar s x && decide (0 < (getAx s x).stage.imbN)) = true := by simp [hd, hn]
  have hf : OnlyChanges ([axPart x] ++ signals) s (onAx (judgePhases s x) x newBlock) :=
    (judgePhases_onlyChanges s x).trans ((onAx_onlyChanges _ x _).mono (List.subset_append_left _ _))
  have hm : ∀ y, (getAx (onAx (judgePhases s x) x newBlock) y).pwm = (getAx s y).pwm ∧
      (getAx (onAx (judgePhases s x) x newBlock) y).start = (getAx s y).start := fun y => by
    obtain ⟨hp, hs⟩ := judgePhases_unmoved s x y
    rw [← hp, ← hs]
    exact onAx_unmoved _ x y
  refine ⟨_, (execLegImbBlockEnd_eq x s).trans (when_unmoved hg hc hf (by cases x <;> decide) hm), ?_⟩
  rw [getAx_onAx]
  refine ⟨rfl, rfl, rfl, rfl, fun he hw => ?_, hf⟩
  have hu : imbMean s x (getAx s x).stage.imbU = frnd (fval (getAx s x).stage.imbU / (getAx s x).stage.imbN) := by
    rw [imbMean, fThoevo, Nat.max_eq_left hn]
  obtain ⟨hmark, hr⟩ := judgePhases_raises_u (hu ▸ he) hw
  exact ⟨hmark, (onAx_raisesKept _ x _).raised hr⟩

/-! ### Ratings (04 R75 to R77) -/

/-- The ratings of an axis in force, and this millisecond's share of its legs' windows. -/
def rateLegs (s : State) (x : Axis) : State :=
  allLegs.foldl (fun t l => onLeg t x l (fun g =>
    { g with i2Window := pushI2 g.i2Window ((s.th.iSq[axisNo x * 6 + legNo l]?).getD 0) }))
    (onAx s x (fun a => { a with stage.iCont := (ratings s x).1, stage.iPeak := (ratings s x).2 }))
/-- The I²t limit of an axis stands, or not. -/
def setI2t (b : Bool) (a : AxisSt) : AxisSt := { a with stage.i2tLimit := b }

/-- The tick of an axis: its limit begins, ends or stays (04 R77). -/
theorem rateAxis_cases (s : State) (x : Axis) :
    rateAxis s x = raise1 (onAx (rateLegs s x) x (setI2t true)) 0x3206 (scopeOf x) noDetail ∨
      rateAxis s x = endCause (onAx (rateLegs s x) x (setI2t false)) 0x3206 (scopeOf x) noDetail ∨ rateAxis s x = rateLegs s x := by
  unfold rateAxis
  dsimp only
  split
  · exact .inl rfl
  · split
    · exact .inr (.inl rfl)
    · exact .inr (.inr rfl)
theorem rateLegs_onlyChanges (s : State) (x : Axis) : OnlyChanges [axPart x] s (rateLegs s x) :=
  (onAx_onlyChanges s x _).trans (OnlyChanges.of_foldl (fun t l _ => onLeg_onlyChanges t x l _) _)
theorem rateLegs_rated (s : State) (x : Axis) :
    ((getAx (rateLegs s x) x).stage.iCont, (getAx (rateLegs s x) x).stage.iPeak) = ratings s x := by
  have h : (getAx (rateLegs s x) x).stage = { (getAx s x).stage with iCont := (ratings s x).1, iPeak := (ratings s x).2 } :=
    (foldl_keeps (fun t : State => (getAx t x).stage) _ (fun t l => onLeg_stage t x l _ x) _ _).trans (by rw [getAx_onAx])
  rw [h]
theorem rateAxis_onlyChanges (s : State) (x : Axis) : OnlyChanges ([axPart x] ++ signals) s (rateAxis s x) := by
  have hl : OnlyChanges ([axPart x] ++ signals) s (rateLegs s x) := (rateLegs_onlyChanges s x).mono (List.subset_append_left _ _)
  have hs : ∀ b, OnlyChanges ([axPart x] ++ signals) s (onAx (rateLegs s x) x (setI2t b)) := fun b =>
    hl.trans ((onAx_onlyChanges _ x _).mono (List.subset_append_left _ _))
  rcases rateAxis_cases s x with h | h | h <;> rw [h]
  · exact (hs true).trans ((raise_signals (by decide) _ _ _ _ _).mono (List.subset_append_right _ _))
  · exact (hs false).trans ((endCause_signals _ _ _ _).mono (List.subset_append_right _ _))
  · exact hl
theorem rateAxis_rated (s : State) (x : Axis) :
    ((getAx (rateAxis s x) x).stage.iCont, (getAx (rateAxis s x) x).stage.iPeak) = ratings s x := by
  have hs : ∀ b, ((getAx (onAx (rateLegs s x) x (setI2t b)) x).stage.iCont,
      (getAx (onAx (rateLegs s x) x (setI2t b)) x).stage.iPeak) = ratings s x := fun b => by
    rw [getAx_onAx, ← rateLegs_rated s x]
    rfl
  rcases rateAxis_cases s x with h | h | h <;> rw [h]
  · rw [raise1, raise_eq_record (by decide), getAx_record, hs]
  · rw [(endCause_signals _ _ _ _).getAx_both (by decide) (by decide) x, hs]
  · exact rateLegs_rated s x
/-- The ratings of an axis rest on its own stage, the case, the bus, the placement and the parameters in force. -/
theorem ratings_kept {s t : State} {x : Axis} (hx : getAx t x = getAx s x) (hth : t.th = s.th) (hb : t.bus = s.bus)
    (hn : t.cairn = s.cairn) (hp : t.inForce = s.inForce) : ratings t x = ratings s x := by
  have hplace : placedAx t x = placedAx s x := by
    unfold placedAx
    rw [hn]
  have hfreq : pwmFreqAct t x = pwmFreqAct s x := by
    unfold pwmFreqAct
    rw [hplace]
  have hvm : vmHi t = vmHi s := by rw [vmHi, vmHi, hb]
  have hfull : fullRatings t x = fullRatings s x := by
    unfold fullRatings
    rw [hth, hvm, hfreq]
  have hstar : dualStar t x = dualStar s x := by simp only [dualStar, parX, inForceAt, hp]
  simp only [ratings, hx, hfull, hstar]

/-- Both axes are rated, one after the other. -/
def rateBoth (s : State) : State := rateAxis (rateAxis s .a) .b
theorem rateBoth_onlyChanges (s : State) : OnlyChanges ([Part.axisA, .axisB] ++ signals) s (rateBoth s) :=
  .trans ((rateAxis_onlyChanges s .a).mono (by decide)) ((rateAxis_onlyChanges _ .b).mono (by decide))
theorem rateBoth_rated (s : State) (x : Axis) : ((getAx (rateBoth s) x).stage.iCont, (getAx (rateBoth s) x).stage.iPeak) = ratings s x := by
  have ha := rateAxis_onlyChanges s .a
  cases x with
  | a =>
    rw [rateBoth, (rateAxis_onlyChanges (rateAxis s .a) .b).axis_eq (by decide)]
    exact rateAxis_rated s .a
  | b =>
    rw [rateBoth, rateAxis_rated]
    exact ratings_kept (ha.axis_eq (by decide)) (ha.2 .th (by decide)) (ha.2 .bus (by decide)) (ha.2 .cairn (by decide))
      (ha.2 .inForce (by decide))

theorem ratingUpdateTick_rates {s : State} (hc : Calm s) (hu : thoevoUp s = true) :
    ∃ t, exec .ratingUpdateTick s = .next t ∧
      (∀ x, ((getAx t x).stage.iCont, (getAx t x).stage.iPeak) = ratings s x) ∧
      OnlyChanges ([Part.axisA, Part.axisB] ++ signals) s t := by
  have hf := rateBoth_onlyChanges s
  have he : execRatingUpdateTick s = when_ s (thoevoUp s) (rateBoth s) := rfl
  refine ⟨_, he.trans (when_settles hu (hf.calm hc (by decide))), fun x => ?_, hf.trans ((settle_onlyChanges s _).mono (by decide))⟩
  rw [getAx_settle]
  exact rateBoth_rated s x

/-- Settles O16: the pulse test of the tripped leg ends in TRIP 0x5209 or in a bypass with its trip cleared, a ramp's end waits for
the swap, a block judges its phases one by one, and each axis is rated from a state its partner's tick leaves. -/
theorem legBypassAndRatings : Obligations.LegBypassAndRatings :=
  ⟨fun _ _ _ _ => legAutoBypass_shorted, fun _ _ _ _ => legAutoBypass_bypasses, fun _ _ _ => legBypassRampEnd_waits,
    fun _ _ => legImbBlockEnd_ends, fun _ => ratingUpdateTick_rates⟩

end Sys2Proof.Machine
end

section
/-!
SUPPORT. A Scarp source that trips: what it leaves of the axes it stops, of its latch and of what waits to act by itself (05 R109 to
R111, Tables 5.2, 5.4, 5.9).
-/

namespace Sys2Proof.Machine
open Sys2Proof
set_option Elab.async false

/-! ### What waits to act by itself (21 R430, R431; 12 R273) -/

/-- What `Calm` looks at: the waiting watchdog and commanded resets, and stage E2. -/
def actsDue (s : State) : Bool × Option Nat × Bool := (s.sum.wdogWait, s.mbx.rebootAt, s.bus.e2)
theorem calm_iff_actsDue (s : State) : Calm s ↔ actsDue s = (false, none, false) := by simp [Calm, actsDue]
theorem Calm.of_actsDue {s t : State} (h : Calm s) (e : actsDue t = actsDue s) : Calm t := by
  rw [calm_iff_actsDue] at h ⊢
  rw [e, h]
@[simp] theorem actsDue_onAx (s : State) (x : Axis) (f : AxisSt → AxisSt) : actsDue (onAx s x f) = actsDue s := by simp [actsDue]
@[simp] theorem actsDue_abandonMotor (s : State) (x : Axis) : actsDue (abandonMotor s x) = actsDue s := by simp [actsDue]
@[simp] theorem actsDue_raise (s : State) (c : BitVec 16) (sc d : BitVec 8) (v : F32) (a : Bool) : actsDue (raise s c sc d v a) = actsDue s := by
  simp [actsDue]
@[simp] theorem actsDue_setChop (p : ChopPhase) (s : State) : actsDue (setChop p s) = actsDue s := rfl

/-! ### An axis that trips (05 R111, Table 5.9) -/

@[simp] theorem setAx_seqTrip (st : AxState) (a : AxisSt) : (setAx st a).seq.trip = a.seq.trip := by
  unfold setAx
  dsimp only
  split <;> rfl
@[simp] theorem setAx_legs (st : AxState) (a : AxisSt) : (setAx st a).legs = a.legs := by
  unfold setAx
  dsimp only
  split <;> rfl

/-- What a trip leaves of the axis `a` it meets; `was` tells whether a latch held its gates off before. -/
structure Trips (n : Nat) (was : Bool) (a b : AxisSt) : Prop where
  gates : b.pwm.switching = false ∧ b.pwm.shorted = false
  ax : b.start.ax = .disabled
  flag : b.seq.trip = true
  first : a.pwm.scarpFirst = 0xFF → b.pwm.scarpFirst = BitVec.ofNat 8 n
  count : was = false → b.pwm.tripCount = a.pwm.tripCount + 1

/-- The first source of an axis is all `firstSource` changes of it, with its tick. -/
theorem firstSource_eq (n tick : Nat) (a : AxisSt) : ∃ p : Pwm, firstSource n tick a = { a with pwm := p } ∧
    (a.pwm.scarpFirst = 0xFF → p.scarpFirst = BitVec.ofNat 8 n) := by
  unfold firstSource
  split
  next => exact ⟨_, rfl, fun _ => rfl⟩
  next h =>
    split
    next => exact ⟨_, rfl, fun e => absurd e h⟩
    next => exact ⟨a.pwm, rfl, fun e => absurd e h⟩
/-- Gates go off in either way an axis leaves RUN: it stays DISABLED, or it enters that state. -/
theorem leaveRun_trips {n : Nat} {was : Bool} {a b : AxisSt} (hflag : b.seq.trip = true)
    (hfirst : a.pwm.scarpFirst = 0xFF → b.pwm.scarpFirst = BitVec.ofNat 8 n)
    (hcount : was = false → b.pwm.tripCount = a.pwm.tripCount + 1) (hax : b.start.ax = a.start.ax) :
    Trips n was a (if a.start.ax = .disabled then gatesOff b else disableAxis b) := by
  split
  next h => exact ⟨⟨rfl, rfl⟩, hax.trans h, hflag, hfirst, hcount⟩
  next =>
    have hp : (disableAxis b).pwm = (gatesOff b).pwm := setAx_pwm _ _
    have hs : (disableAxis b).seq.trip = b.seq.trip := setAx_seqTrip _ _
    refine ⟨?_, rfl, hs.trans hflag, ?_, ?_⟩ <;> rw [hp]
    · exact ⟨rfl, rfl⟩
    · exact hfirst
    · exact hcount
theorem tripAxis_trips (n tick : Nat) (was : Bool) (a : AxisSt) : Trips n was a (tripAxis n tick was a) := by
  obtain ⟨p, hp, hfirst⟩ := firstSource_eq n tick a
  unfold tripAxis
  rw [hp]
  dsimp only
  by_cases h29 : n = 29
  · rw [if_pos h29]
    exact leaveRun_trips rfl hfirst (fun h => by simp [brakeOff, h]) rfl
  · rw [if_neg h29]
    exact leaveRun_trips rfl hfirst (fun h => by simp [h]) rfl
theorem tripAxis_legs (n tick : Nat) (was : Bool) (a : AxisSt) : (tripAxis n tick was a).legs = a.legs := by
  obtain ⟨p, hp, -⟩ := firstSource_eq n tick a
  unfold tripAxis
  rw [hp]
  dsimp only
  split <;> split <;> simp [disableAxis, gatesOff, brakeOff]

/-! ### The motor measurement a trip abandons (17 Table 17.4a) -/

/-- What its end leaves of an axis: all but the state of Crest. -/
theorem getAx_endMotor (s : State) (x y : Axis) : ∃ c : CrestSt, getAx (endMotor s x) y = { getAx s y with crest := c } := by
  have hself : ∃ c : CrestSt, getAx s y = { getAx s y with crest := c } := ⟨_, rfl⟩
  unfold endMotor
  split
  · split
    · rw [getAx_endLong, getAx_record]
      by_cases e : x = y
      · subst e
        rw [getAx_onAx]
        exact ⟨_, rfl⟩
      · rwa [getAx_onAx_other s x y _ e]
    · exact hself
  · split
    · rwa [getAx_endLong]
    · exact hself
  · exact hself
/-- What gates that go off and Crest leave of an axis, an abandoned measurement leaves of it. -/
theorem abandonMotor_keeps {p : AxisSt → Prop} (hm : ∀ a, p a → p (motorOff a)) (hc : ∀ a c, p a → p { a with crest := c })
    {s : State} {y : Axis} (h : p (getAx s y)) (x : Axis) : p (getAx (abandonMotor s x) y) := by
  have hd : p (getAx (dropMotor s x) y) := by
    rcases getAx_dropMotor s x y with e | e <;> rw [e]
    · exact h
    · exact hm _ h
  obtain ⟨c, e⟩ := getAx_endMotor (dropMotor s x) x y
  rw [abandonMotor, e]
  exact hc _ c hd
theorem abandonMotor_trips {n : Nat} {was : Bool} {a : AxisSt} {s : State} {y : Axis} (h : Trips n was a (getAx s y)) (x : Axis) :
    Trips n was a (getAx (abandonMotor s x) y) :=
  abandonMotor_keeps (fun _ h => ⟨⟨rfl, rfl⟩, h.ax, h.flag, h.first, h.count⟩)
    (fun _ _ h => ⟨h.gates, h.ax, h.flag, h.first, h.count⟩) h x
@[simp] theorem abandonMotor_legs (s : State) (x y : Axis) : (getAx (abandonMotor s x) y).legs = (getAx s y).legs :=
  abandonMotor_keeps (p := fun a => a.legs = (getAx s y).legs) (fun _ h => h) (fun _ _ h => h) rfl x

/-! ### The axes a source stops (05 Tables 5.2, 5.4) -/

/-- Source `n` trips one axis; `s` is the state before its latch was set. -/
def tripOne (s : State) (n : Nat) (t : State) (x : Axis) : State :=
  abandonMotor (onAx t x (tripAxis n (max s.scarp.tick (nowTick s)) (tripped s x))) x
/-- Source `n` trips the axes whose gates it turns off, one after the other. -/
def tripAll (s : State) (n : Nat) : State :=
  (sourceAxes n).foldl (tripOne s n) { s with scarp.latch := s.scarp.latch ||| bitW n }

@[simp] theorem mem_sourceAxes {n : Nat} {x : Axis} : x ∈ sourceAxes n ↔ (axisBits x).getLsbD n = true := by
  cases x <;> simp [sourceAxes, bothAxes]
theorem sourceAxes_nodup (n : Nat) : (sourceAxes n).Nodup := List.Pairwise.filter _ (by decide : bothAxes.Nodup)

theorem tripOne_onlyChanges (s : State) (n : Nat) (t : State) (x : Axis) :
    OnlyChanges (axPart x :: .mbx :: signals) t (tripOne s n t x) :=
  .trans ((onAx_onlyChanges t x _).mono (by simp)) (abandonMotor_onlyChanges _ x)
theorem tripOne_trips (s : State) (n : Nat) (t : State) (x : Axis) :
    Trips n (tripped s x) (getAx t x) (getAx (tripOne s n t x) x) := by
  refine abandonMotor_trips ?_ x
  rw [getAx_onAx]
  exact tripAxis_trips _ _ _ _
theorem tripOne_legs (s : State) (n : Nat) (t : State) (x y : Axis) : (getAx (tripOne s n t x) y).legs = (getAx t y).legs :=
  (abandonMotor_legs _ x y).trans (onAx_keeps AxisSt.legs t x y (tripAxis_legs _ _ _))
theorem foldl_tripOne_onlyChanges (s : State) (n : Nat) (l : List Axis) (t : State) :
    OnlyChanges (l.map axPart ++ .mbx :: signals) t (l.foldl (tripOne s n) t) :=
  OnlyChanges.of_foldl (fun u x hx => (tripOne_onlyChanges s n u x).mono
    (List.cons_subset.mpr ⟨by simpa using Or.inl hx, List.subset_append_right _ _⟩)) t
/-- Each axis trips from the state the others' trips leave of it: its own. -/
theorem foldl_tripOne_trips (s : State) (n : Nat) {l : List Axis} (hl : l.Nodup) {x : Axis} (hx : x ∈ l) (t : State) :
    Trips n (tripped s x) (getAx t x) (getAx (l.foldl (tripOne s n) t) x) := by
  induction l generalizing t with
  | nil => cases hx
  | cons y l ih =>
    obtain ⟨hy, hn⟩ := List.nodup_cons.mp hl
    have other : ∀ p ∈ (.mbx :: signals : List Part), axPart x ≠ p := by cases x <;> decide
    rcases List.mem_cons.mp hx with rfl | hm
    · have hrest := (foldl_tripOne_onlyChanges s n l (tripOne s n t x)).axis_eq (x := x) (fun m => by
        rcases List.mem_append.mp m with m | m
        · exact hy (by simpa using m)
        · exact other _ m rfl)
      rw [List.foldl_cons, hrest]
      exact tripOne_trips s n t x
    · have hne : x ≠ y := fun e => hy (e ▸ hm)
      have hhead := (tripOne_onlyChanges s n t y).axis_eq (x := x) (fun m => by
        rcases List.mem_cons.mp m with m | m
        · exact hne (axPart_inj.mp m)
        · exact other _ m rfl)
      rw [List.foldl_cons, ← hhead]
      exact ih hn hm _

/-! ### The latch (05 R109) -/

theorem latchSource_unset {s : State} {n : Nat} (h17 : n ≠ 17) (hn : n < 32) (hl : s.scarp.latch.getLsbD n = false) :
    latchSource s n = if n = 16 ∨ n = 29 then setChop .off (tripAll s n) else tripAll s n := by
  rw [latchSource, if_neg (by simp [h17, hl]; omega)]
  rfl
theorem latchSource_set {s : State} {n : Nat} (hl : s.scarp.latch.getLsbD n = true) : latchSource s n = s := by
  rw [latchSource, if_pos (.inr (.inr hl))]
theorem or_bitW_of_set {w : Word} {n : Nat} (h : w.getLsbD n = true) : w ||| bitW n = w := by
  refine BitVec.eq_of_getLsbD_eq fun k _ => ?_
  by_cases e : k = n
  · subst e
    simp [h]
  · simp [bitW_getLsbD, e]
theorem tripAll_scarp (s : State) (n : Nat) : (tripAll s n).scarp = { s.scarp with latch := s.scarp.latch ||| bitW n } :=
  foldl_keeps State.scarp _ (fun t x => by simp [tripOne]) _ _
theorem actsDue_tripAll (s : State) (n : Nat) : actsDue (tripAll s n) = actsDue s :=
  foldl_keeps actsDue _ (fun t x => by simp [tripOne]) _ _
theorem tripAll_legs (s : State) (n : Nat) (x : Axis) : (getAx (tripAll s n) x).legs = (getAx s x).legs :=
  foldl_keeps (fun t => (getAx t x).legs) _ (fun t y => tripOne_legs s n t y x) _ _
theorem tripAll_onlyChanges (s : State) (n : Nat) :
    OnlyChanges (.scarp :: ((sourceAxes n).map axPart ++ .mbx :: signals)) s (tripAll s n) :=
  .trans ((setScarp_onlyChanges s _).mono (by simp)) ((foldl_tripOne_onlyChanges s n _ _).mono (List.subset_cons_self _ _))
theorem tripAll_trips (s : State) {n : Nat} {x : Axis} (hx : (axisBits x).getLsbD n = true) :
    Trips n (tripped s x) (getAx s x) (getAx (tripAll s n) x) :=
  foldl_tripOne_trips s n (sourceAxes_nodup n) (mem_sourceAxes.mpr hx) { s with scarp.latch := s.scarp.latch ||| bitW n }

theorem setBus_onlyChanges (s : State) (v : BusSt) : OnlyChanges [.bus] s { s with bus := v } := by
  refine ⟨rfl, fun p hp => ?_⟩
  cases p with
  | bus => exact absurd (by decide) hp
  | _ => rfl
theorem setChop_onlyChanges (p : ChopPhase) (s : State) : OnlyChanges [.bus] s (setChop p s) := setBus_onlyChanges s _

/-- What a source that latches may touch: its latch, the axes it stops, and for those that hold the chopper off the bus. -/
def latchParts (n : Nat) : List Part :=
  (if n = 16 ∨ n = 29 then [.bus] else []) ++ .scarp :: ((sourceAxes n).map axPart ++ .mbx :: signals)
theorem latchParts_subset (n : Nat) : latchParts n ⊆ [Part.scarp, .axisA, .axisB, .bus, .mbx] ++ signals := by
  have hx : (sourceAxes n).map axPart ⊆ [Part.scarp, .axisA, .axisB, .bus, .mbx] ++ signals := fun p hp => by
    obtain ⟨x, -, rfl⟩ := List.mem_map.mp hp
    cases x <;> decide
  refine List.append_subset.mpr ⟨?_, List.cons_subset.mpr ⟨by decide, List.append_subset.mpr ⟨hx, by decide⟩⟩⟩
  split <;> decide

/-- A source that trips: latched, whether or not it was; where it was not, the axes it stops trip. -/
structure Latched (n : Nat) (s t : State) : Prop where
  scarp : t.scarp = { s.scarp with latch := s.scarp.latch ||| bitW n }
  trips : s.scarp.latch.getLsbD n = false → ∀ x, (axisBits x).getLsbD n = true → Trips n (tripped s x) (getAx s x) (getAx t x)
  legs : ∀ x, (getAx t x).legs = (getAx s x).legs
  due : actsDue t = actsDue s
  only : OnlyChanges (latchParts n) s t

theorem latchSource_latched (s : State) {n : Nat} (h17 : n ≠ 17) (hn : n < 32) : Latched n s (latchSource s n) := by
  have hsub : (.scarp :: ((sourceAxes n).map axPart ++ .mbx :: signals) : List Part) ⊆ latchParts n := List.subset_append_right _ _
  by_cases hl : s.scarp.latch.getLsbD n = true
  · rw [latchSource_set hl]
    exact ⟨by rw [or_bitW_of_set hl], fun h => by simp [hl] at h, fun _ => rfl, rfl, onlyChanges_refl _ s⟩
  · rw [latchSource_unset h17 hn (by simpa using hl)]
    have hall : Latched n s (tripAll s n) := ⟨tripAll_scarp s n, fun _ _ => tripAll_trips s, tripAll_legs s n, actsDue_tripAll s n,
      (tripAll_onlyChanges s n).mono hsub⟩
    split
    next h =>
      have hbus : [Part.bus] ⊆ latchParts n := by simp [latchParts, h]
      exact ⟨hall.scarp, hall.trips, hall.legs, hall.due, hall.only.trans ((setChop_onlyChanges _ _).mono hbus)⟩
    next => exact hall
/-- What comes after a latch, and leaves latch and axes, leaves it latched. -/
theorem Latched.then {n : Nat} {s t u : State} (h : Latched n s t) {ps : List Part} (k : OnlyChanges ps t u)
    (hp : ∀ p ∈ [Part.scarp, .axisA, .axisB], p ∉ ps) (hs : ps ⊆ latchParts n) (hw : actsDue u = actsDue t) :
    Latched n s u := by
  have hx : ∀ x, getAx u x = getAx t x := k.getAx_both (hp _ (by decide)) (hp _ (by decide))
  refine ⟨(k.2 .scarp (hp _ (by decide))).trans h.scarp, fun hl x => ?_, fun x => ?_, hw.trans h.due, h.only.trans (k.mono hs)⟩
  · rw [hx]
    exact h.trips hl x
  · rw [hx]
    exact h.legs x

end Sys2Proof.Machine
end

section
/-!
SUPPORT. The code a Scarp source raises (05 Table 5.4), and the trips of the comparators (05 R106 to R111).
-/

namespace Sys2Proof.Machine
open Sys2Proof
set_option Elab.async false

/-! ### The code of a source (05 Table 5.4) -/

theorem sourceCode_comparator {n : Nat} (h : n < 12) (s : State) (d : BitVec 8) :
    sourceCode s n d = raise1 s 0x5310 (scopeOf (cmpAxis n)) (BitVec.ofNat 8 n) := if_pos h
theorem sourceCode_window {n : Nat} (h18 : 18 ≤ n) (h24 : n < 24) (s : State) (d : BitVec 8) :
    sourceCode s n d = raise1 s 0x5311 (scopeOf (cmpAxis n)) (BitVec.ofNat 8 (pvLeg s n)) := by
  rw [sourceCode, if_neg (by omega), if_neg (by omega), if_neg (by omega), if_neg (by omega), if_neg (by omega), if_neg (by omega),
    if_pos ⟨h18, h24⟩]
/-- Comparator 16 makes the chopper faulty besides (12 R270). -/
theorem sourceCode_chopper (s : State) (d : BitVec 8) : sourceCode s 16 d = chopFault (raise1 s 0x5A02 0 noDetail) 2 := by
  simp [sourceCode]

/-- A faulty chopper before its LIMIT is raised: off, with its cause, and stage E1 in force (12 R270, R273). -/
def chopOffFaulty (s : State) (cause : BitVec 8) : State :=
  setChop .off { s with bus := { s.bus with chopCause := some cause, misses := 0, e1 := true } }
theorem chopFault_eq (s : State) (cause : BitVec 8) : chopFault s cause = raise1 (chopOffFaulty s cause) 0x3A04 0 cause := rfl
theorem chopOffFaulty_onlyChanges (s : State) (cause : BitVec 8) : OnlyChanges [.bus] s (chopOffFaulty s cause) :=
  setBus_onlyChanges s _
theorem chopFault_onlyChanges (s : State) (cause : BitVec 8) : OnlyChanges (.bus :: signals) s (chopFault s cause) :=
  .trans ((chopOffFaulty_onlyChanges s cause).mono (by decide)) ((raise_signals (by decide) _ _ _ _ _).mono (by decide))
@[simp] theorem actsDue_chopFault (s : State) (cause : BitVec 8) : actsDue (chopFault s cause) = actsDue s :=
  actsDue_raise _ _ _ _ _ _
theorem chopFault_off (s : State) (cause : BitVec 8) : (chopFault s cause).bus.chop = .off := by
  simp [chopFault_eq, raise1, chopOffFaulty, setChop]
theorem raise1_raised (s : State) (c : BitVec 16) (sc d : BitVec 8) : Raised (raise1 s c sc d) c sc d := raise_raised s c sc d fnan true
theorem chopFault_raised (s : State) (cause : BitVec 8) : Raised (chopFault s cause) 0x3A04 0 cause := by
  rw [chopFault_eq]
  exact raise1_raised _ _ _ _
/-- With room for one more code, what was raised before a chopper fault stays raised. -/
theorem chopFault_keeps_raised {s : State} (h : Room s 1) {c : BitVec 16} {sc d : BitVec 8} (hr : Raised s c sc d) (cause : BitVec 8) :
    Raised (chopFault s cause) c sc d :=
  raise_keeps_raised (n := 0) (s := chopOffFaulty s cause) h _ _ _ _ _
    (RaisesKept.raised (.of_eq rfl rfl rfl rfl rfl) hr)

theorem ite_intro {p : State → Prop} {c : Prop} [Decidable c] {a b : State} (ha : c → p a) (hb : p b) : p (if c then a else b) := by
  split
  next h => exact ha h
  next => exact hb
/-- A source raises one TRIP code, comparator 16 makes the chopper faulty too, and a source without a code changes nothing. -/
theorem sourceCode_intro {p : State → Prop} {s : State} {n : Nat} {d : BitVec 8}
    (hr : ∀ c sc e a, codeClass c = 5 → p (raise s c sc e fnan a)) (hc : n = 16 → p (chopFault (raise1 s 0x5A02 0 noDetail) 2))
    (hs : p s) : p (sourceCode s n d) := by
  unfold sourceCode
  iterate 5 refine ite_intro (p := p) (fun _ => hr _ _ _ _ (by decide)) ?_
  refine ite_intro (p := p) hc ?_
  iterate 8 refine ite_intro (p := p) (fun _ => hr _ _ _ _ (by decide)) ?_
  exact hs
/-- A source's code is recorded, none of them stops an axis; comparator 16 acts on the chopper besides. -/
theorem sourceCode_onlyChanges (s : State) (n : Nat) (d : BitVec 8) :
    OnlyChanges (if n = 16 then .bus :: signals else signals) s (sourceCode s n d) := by
  have hsub : signals ⊆ if n = 16 then .bus :: signals else signals := by split <;> simp
  refine sourceCode_intro (p := OnlyChanges _ s) (fun c sc e a h => ?_) (fun h => ?_) (onlyChanges_refl _ s)
  · exact (raise_signals (by rw [h]; decide) s sc e fnan a).mono hsub
  · rw [if_pos h]
    exact .trans ((raise_signals (c := 0x5A02) (by decide) s 0 noDetail fnan true).mono (by decide)) (chopFault_onlyChanges _ 2)
@[simp] theorem actsDue_sourceCode (s : State) (n : Nat) (d : BitVec 8) : actsDue (sourceCode s n d) = actsDue s :=
  sourceCode_intro (p := fun t => actsDue t = actsDue s) (fun _ _ _ _ _ => actsDue_raise _ _ _ _ _ _)
    (fun _ => (actsDue_chopFault _ 2).trans (actsDue_raise _ _ _ _ _ _)) rfl

/-- A source that trips: its latch and the axes it stops, and then its code (05 R109, R110). -/
theorem scarpFire_latched (s : State) {n : Nat} (d : BitVec 8) (h17 : n ≠ 17) (hn : n < 32) : Latched n s (scarpFire s n d) := by
  have hp : ∀ p ∈ [Part.scarp, .axisA, .axisB], p ∉ (if n = 16 then .bus :: signals else signals) := by split <;> decide
  have hs : (if n = 16 then .bus :: signals else signals) ⊆ latchParts n := by
    split
    next h => subst h; decide
    next =>
      intro p hm
      simp [latchParts, hm]
  exact (latchSource_latched s h17 hn).then (sourceCode_onlyChanges _ n d) hp hs (actsDue_sourceCode _ n d)
theorem Latched.settle {n : Nat} {s t : State} (h : Latched n s t) (z : State) : Latched n s (settle z t) :=
  h.then (settle_onlyChanges z t) (by decide) (fun p hp => by
    have : p ∈ signals := by revert p; decide
    simp [latchParts, this]) (by simp [actsDue])
/-- A guarded trip in a calm state ends in its latch, its axes and its code, and the observers' messages. -/
theorem when_fires {s u : State} {n : Nat} {d : BitVec 8} {g : Bool} (hg : g = true) (hu : Calm u) (h17 : n ≠ 17) (hn : n < 32) :
    when_ s g (scarpFire u n d) = .next (settle s (scarpFire u n d)) :=
  when_settles hg (hu.of_actsDue (scarpFire_latched u d h17 hn).due)

/-! ### What a comparator raises (05 Table 5.4) -/

theorem pvLeg_kept {s t : State} (h : t.inForce = s.inForce) (n : Nat) : pvLeg t n = pvLeg s n := by
  have hp : ∀ x i, parX t x i = parX s x i := fun x i => by simp [parX, inForceAt, h]
  simp only [pvLeg, hp]
theorem latchSource_inForce (s : State) {n : Nat} (h17 : n ≠ 17) (hn : n < 32) : (latchSource s n).inForce = s.inForce :=
  (latchSource_latched s h17 hn).only.2 .inForce fun m => absurd (latchParts_subset n m) (by decide)
theorem scopeOf_cmpAxis {n : Nat} (h : n < 12) : scopeOf (cmpAxis n) = if n < 6 then 1 else 2 := by
  unfold cmpAxis
  by_cases h6 : n < 6
  · rw [if_pos (.inl h6), if_pos h6]
    rfl
  · rw [if_neg (by omega), if_neg h6]
    rfl

theorem scarpFire_raises_leg {n : Nat} (h : n < 12) (s : State) (d : BitVec 8) :
    Raised (scarpFire s n d) 0x5310 (if n < 6 then 1 else 2) (BitVec.ofNat 8 n) := by
  rw [scarpFire, sourceCode_comparator h, ← scopeOf_cmpAxis h]
  exact raise1_raised _ _ _ _
theorem scarpFire_raises_window {n : Nat} (h18 : 18 ≤ n) (h24 : n < 24) (s : State) (d : BitVec 8) :
    Raised (scarpFire s n d) 0x5311 (scopeOf (cmpAxis n)) (BitVec.ofNat 8 (pvLeg s n)) := by
  rw [scarpFire, sourceCode_window h18 h24, pvLeg_kept (latchSource_inForce s (by omega) (by omega))]
  exact raise1_raised _ _ _ _
theorem scarpFire_raises {s : State} {n : Nat} {d : BitVec 8} {c : BitVec 16} {sc e : BitVec 8} {a : Bool}
    (h : ∀ t, sourceCode t n d = raise t c sc e fnan a) : Raised (scarpFire s n d) c sc e := by
  rw [scarpFire, h]
  exact raise_raised _ _ _ _ _ _
/-- Comparators 12 to 15 watch current and voltage of the two bridges. -/
theorem scarpFire_raises_bridge (s : State) (n : Nat) (d : BitVec 8) :
    (n = 12 → Raised (scarpFire s n d) 0x5A01 0 0) ∧ (n = 13 → Raised (scarpFire s n d) 0x5101 0 0) ∧
      (n = 14 → Raised (scarpFire s n d) 0x5A01 0 1) ∧ (n = 15 → Raised (scarpFire s n d) 0x5101 0 1) := by
  refine ⟨?_, ?_, ?_, ?_⟩
  all_goals
    rintro rfl
    exact scarpFire_raises (a := true) fun t => by simp [sourceCode, raise1]
/-- The chopper's comparator holds the chopper off and makes it faulty; with room for both codes it raises its own too. -/
theorem scarpFire_chopper {n : Nat} (h : n = 16) (s : State) (d : BitVec 8) (hl : s.scarp.latch.getLsbD n = false) :
    (scarpFire s n d).bus.chop = .off ∧ Raised (scarpFire s n d) 0x3A04 0 2 ∧ (Room s 2 → Raised (scarpFire s n d) 0x5A02 0 0xFF) := by
  subst h
  rw [scarpFire, sourceCode_chopper]
  refine ⟨chopFault_off _ 2, chopFault_raised _ 2, fun h => ?_⟩
  have hr : Room (latchSource s 16) 2 := by
    rw [latchSource_unset (by decide) (by decide) hl]
    exact h
  exact chopFault_keeps_raised (raise_room hr _ _ _ _ _) (raise1_raised _ _ _ _) 2

/-! ### The instant and the level of a trip input (05 R103, R111) -/

theorem scarpOn_of {s : State} (ha : Awake s) (hb : s.boot.service = .none) : scarpOn s = true := by
  obtain ⟨hu, hp⟩ := ha
  simp [scarpOn, hu, hp, hb]
theorem atTick_onlyChanges (s : State) (tick : Nat) : OnlyChanges [.clk, .scarp] s (atTick s tick) :=
  .trans ((setClk_onlyChanges s _).mono (by decide)) ((setScarp_onlyChanges _ _).mono (by decide))
theorem setRaw_level (s : State) {n : Nat} (hn : n < 32) (b : Bool) : (setRaw s n b).scarp.raw.getLsbD n = b := by
  cases b with
  | false => exact setRaw_inactive s n
  | true => simp [setRaw, bitW_getLsbD, hn]
/-- A comparator's level taken at a tick. -/
def rawAt (s : State) (n : Nat) (b : Bool) (tick : Nat) : State := setRaw (atTick s tick) n b
theorem rawAt_onlyChanges (s : State) (n : Nat) (b : Bool) (tick : Nat) : OnlyChanges [.clk, .scarp] s (rawAt s n b tick) :=
  (atTick_onlyChanges s tick).trans ((setRaw_onlyChanges _ n b).mono (by decide))

/-! ### The comparators (05 R106 to R110) -/

theorem execScarpTrip_closed {s : State} {c : Fin 24} {stays : Bool} {tick : Nat} (hc : c.val ≠ 17)
    (hl : s.scarp.latch.getLsbD c.val = false) :
    execScarpTrip c stays tick s = when_ s (scarpOn s && !windowOpen s c.val tick) (scarpFire (rawAt s c.val stays tick) c.val 0) := by
  have h : cmpTrip (atTick s tick) c.val stays = scarpFire (rawAt s c.val stays tick) c.val 0 :=
    if_neg (not_or.mpr ⟨hc, by rw [show (atTick s tick).scarp.latch = s.scarp.latch from rfl, hl]; decide⟩)
  rw [execScarpTrip, h]

theorem scarpTrip_trips {s : State} {c : Fin 24} {stays : Bool} {tick : Nat} (hcalm : Calm s) (ha : Awake s)
    (hb : s.boot.service = .none) (hc : c.val ≠ 17) (hl : s.scarp.latch.getLsbD c.val = false) (hw : windowOpen s c.val tick = false) :
    ∃ t, exec (.scarpTrip c stays tick) s = .next t ∧ t.scarp.latch = s.scarp.latch ||| ((1 : Word) <<< c.val) ∧
      t.scarp.raw.getLsbD c.val = stays ∧ t.clk.now = max s.clk.now (tick / 4) ∧
      (∀ x, (axisBits x).getLsbD c.val = true → GatesOff t x ∧ (getAx t x).start.ax = .disabled ∧ (getAx t x).seq.trip = true ∧
        ((getAx s x).pwm.scarpFirst = 0xFF → (getAx t x).pwm.scarpFirst = BitVec.ofNat 8 c.val)) ∧
      (c.val < 12 → Raised t 0x5310 (if c.val < 6 then 1 else 2) (BitVec.ofNat 8 c.val)) ∧
      (c.val = 12 → Raised t 0x5A01 0 0) ∧ (c.val = 13 → Raised t 0x5101 0 0) ∧
      (c.val = 14 → Raised t 0x5A01 0 1) ∧ (c.val = 15 → Raised t 0x5101 0 1) ∧
      (c.val = 16 → t.bus.chop = .off ∧ Raised t 0x3A04 0 2 ∧ (Room s 2 → Raised t 0x5A02 0 0xFF)) ∧
      (18 ≤ c.val → Raised t 0x5311 (scopeOf (cmpAxis c.val)) (BitVec.ofNat 8 (pvLeg s c.val))) ∧
      OnlyChanges ([Part.clk, Part.scarp, Part.axisA, Part.axisB, Part.bus, Part.mbx] ++ signals) s t := by
  let u := rawAt s c.val stays tick
  have hn : c.val < 32 := by omega
  have hu : OnlyChanges [.clk, .scarp] s u := rawAt_onlyChanges s c.val stays tick
  have hg : (scarpOn s && !windowOpen s c.val tick) = true := by simp [scarpOn_of ha hb, hw]
  have hf : Latched c.val u (settle s (scarpFire u c.val 0)) := (scarpFire_latched u 0 hc hn).settle s
  obtain ⟨h12, h13, h14, h15⟩ := scarpFire_raises_bridge u c.val 0
  refine ⟨_, (execScarpTrip_closed hc hl).trans (when_fires hg (hu.calm hcalm (by decide)) hc hn), ?_, ?_, ?_, fun x hx => ?_,
    fun h => settle_raised (scarpFire_raises_leg h u 0), fun h => settle_raised (h12 h), fun h => settle_raised (h13 h),
    fun h => settle_raised (h14 h), fun h => settle_raised (h15 h), fun h => ?_,
    fun h => settle_raised (scarpFire_raises_window h c.isLt u 0), ?_⟩
  · rw [hf.scarp]
    rfl
  · rw [hf.scarp]
    exact setRaw_level _ hn stays
  · rw [hf.only.2 .clk fun m => absurd (latchParts_subset _ m) (by decide)]
    rfl
  · have ht := hf.trips hl x hx
    rw [hu.getAx_both (by decide) (by decide) x] at ht
    exact ⟨ht.gates, ht.ax, ht.flag, ht.first⟩
  · obtain ⟨hoff, hfault, hown⟩ := scarpFire_chopper h u 0 hl
    rw [settle_bus]
    exact ⟨hoff, settle_raised hfault, fun hr => settle_raised (hown hr)⟩
  · exact .trans (hu.mono (by decide)) (hf.only.mono (List.Subset.trans (latchParts_subset _) (by decide)))

/-- CMP17 never latches: its crossing leaves its level alone. -/
theorem scarpTrip_cmp17 {s : State} {stays : Bool} {tick : Nat} (hcalm : Calm s) (ha : Awake s) (hb : s.boot.service = .none)
    (hw : windowOpen s 17 tick = false) :
    ∃ t, exec (.scarpTrip 17 stays tick) s = .next t ∧ t.scarp.latch = s.scarp.latch ∧ t.scarp.raw.getLsbD 17 = stays ∧
      OnlyChanges [.clk, .scarp] s t := by
  have hu : OnlyChanges [.clk, .scarp] s (rawAt s 17 stays tick) := rawAt_onlyChanges s 17 stays tick
  have hg : (scarpOn s && !windowOpen s 17 tick) = true := by simp [scarpOn_of ha hb, hw]
  exact ⟨_, when_axes_kept hg hcalm hu (by decide), rfl, setRaw_level _ (by decide) stays, hu⟩
/-- A crossing inside a window does nothing (05 R106). -/
theorem scarpTrip_blanked {s : State} {c : Fin 24} {stays : Bool} {tick : Nat} (hw : windowOpen s c.val tick = true) :
    exec (.scarpTrip c stays tick) s = .next s := by
  have hg : (scarpOn s && !windowOpen s c.val tick) = false := by simp [hw]
  exact if_neg (by rw [hg]; decide)

end Sys2Proof.Machine
end

section
/-!
SUPPORT. The digital trip sources (05 R109, R110, Tables 5.2, 5.4), and the statement about Scarp trips.
-/

namespace Sys2Proof.Machine
open Sys2Proof
set_option Elab.async false

/-! ### What a source that trips leaves -/

theorem Latched.latch {n : Nat} {s t : State} (h : Latched n s t) (hn : n < 32) : t.scarp.latch.getLsbD n = true := by
  rw [h.scarp]
  simp [bitW_getLsbD, hn]
/-- An axis a source stops: its gates off, DISABLED, with its trip flag. -/
theorem Latched.stopped {n : Nat} {s t : State} (h : Latched n s t) (hl : s.scarp.latch.getLsbD n = false) {x : Axis}
    (hx : (axisBits x).getLsbD n = true) : GatesOff t x ∧ (getAx t x).start.ax = .disabled ∧ (getAx t x).seq.trip = true :=
  have ht := h.trips hl x hx
  ⟨ht.gates, ht.ax, ht.flag⟩
theorem Latched.leg {n : Nat} {s t : State} (h : Latched n s t) (x : Axis) (l : Leg) : getLeg t x l = getLeg s x l := by
  rw [getLeg, h.legs x, getLeg]

/-! ### Sources of one axis (05 Table 5.2) -/

theorem setTh_onlyChanges (s : State) (v : ThermalSt) : OnlyChanges [.th] s { s with th := v } := by
  refine ⟨rfl, fun p hp => ?_⟩
  cases p with
  | th => exact absurd (by decide) hp
  | _ => rfl
/-- Sources 24 and 25, 27 and 28, 30 and 31 each stop their own axis and no other (05 Table 5.2). -/
theorem ownSource {n : Nat} (hn : n = 24 ∨ n = 27 ∨ n = 30) (x : Axis) : n + axisNo x ≠ 17 ∧ n + axisNo x < 32 ∧
    (axisBits x).getLsbD (n + axisNo x) = true ∧ latchParts (n + axisNo x) = .scarp :: axPart x :: .mbx :: signals := by
  rcases hn with rfl | rfl | rfl <;> cases x <;> decide

/-- What a source that trips its own axis from `u`, the state its input leaves of `s`, makes of the drive. -/
structure OwnTrip (n : Nat) (x : Axis) (s u t : State) (c : BitVec 16) (e : BitVec 8) (ps : List Part) : Prop where
  latched : Latched (n + axisNo x) u t
  set : t.scarp.latch.getLsbD (n + axisNo x) = true
  raised : Raised t c (scopeOf x) e
  stopped : s.scarp.latch.getLsbD (n + axisNo x) = false →
    GatesOff t x ∧ (getAx t x).start.ax = .disabled ∧ (getAx t x).seq.trip = true
  other : getAx t (otherAxis x) = getAx s (otherAxis x)
  only : OnlyChanges (ps ++ ([.scarp, axPart x, .mbx] ++ signals)) s t

theorem when_ownSource {s u : State} {n : Nat} (h : n = 24 ∨ n = 27 ∨ n = 30) {x : Axis} {c : BitVec 16} {d e : BitVec 8} {a : Bool}
    {ps : List Part} (hc : Calm s) (ha : Awake s) (hb : s.boot.service = .none) (hu : OnlyChanges ps s u)
    (hp : ∀ p ∈ [Part.sum, .bus, .mbx, axPart (otherAxis x)], p ∉ ps) (hs : u.scarp.latch = s.scarp.latch)
    (hcode : ∀ t, sourceCode t (n + axisNo x) d = raise t c (scopeOf x) e fnan a) :
    when_ s (scarpOn s) (scarpFire u (n + axisNo x) d) = .next (settle s (scarpFire u (n + axisNo x) d)) ∧
      OwnTrip n x s u (settle s (scarpFire u (n + axisNo x) d)) c e ps := by
  obtain ⟨h17, hn, hx, hparts⟩ := ownSource h x
  have hf := (scarpFire_latched u d h17 hn).settle s
  have hcalm : Calm u := hu.calm hc fun p m => hp p (List.mem_append_left [axPart (otherAxis x)] m)
  have only : OnlyChanges (ps ++ ([.scarp, axPart x, .mbx] ++ signals)) s (settle s (scarpFire u (n + axisNo x) d)) :=
    .trans (hu.mono (List.subset_append_left _ _)) (hf.only.mono (by rw [hparts]; exact List.subset_append_right _ _))
  have other : axPart (otherAxis x) ∉ ps ++ ([.scarp, axPart x, .mbx] ++ signals) := fun m => by
    rcases List.mem_append.mp m with m | m
    · exact hp _ (by simp) m
    · revert m
      cases x <;> decide
  exact ⟨when_fires (scarpOn_of ha hb) hcalm h17 hn, hf, hf.latch hn, settle_raised (scarpFire_raises hcode),
    fun hl => hf.stopped (by rw [hs, hl]) hx, only.axis_eq other, only⟩

/-- A bootstrap supply that is too low, noted with its instant (04 R69). -/
def bootLowNow (s : State) (g : LegSt) : LegSt := { g with bootLow := true, bootLowAt := s.clk.now }

theorem digitalTrip_bootUv {s : State} {x : Axis} {l : Leg} {stays : Bool} {tick : Nat} (hc : Calm s) (ha : Awake s)
    (hb : s.boot.service = .none) :
    ∃ t, exec (.scarpDigitalTrip (.bootUv x) l stays tick) s = .next t ∧ t.scarp.latch.getLsbD (24 + axisNo x) = true ∧
      (getLeg t x l).bootLow = true ∧ Raised t 0x520A (scopeOf x) (BitVec.ofNat 8 (axisNo x * 6 + legNo l)) ∧
      (s.scarp.latch.getLsbD (24 + axisNo x) = false →
        GatesOff t x ∧ (getAx t x).start.ax = .disabled ∧ (getAx t x).seq.trip = true) ∧
      getAx t (otherAxis x) = getAx s (otherAxis x) ∧ OnlyChanges ([Part.clk, .scarp, axPart x, .mbx] ++ signals) s t := by
  let u := onLeg (atTick s tick) x l (bootLowNow (atTick s tick))
  have hu : OnlyChanges [.clk, .scarp, axPart x] s u :=
    .trans ((atTick_onlyChanges s tick).mono (by simp)) ((onLeg_onlyChanges _ x l _).mono (by simp))
  have hcode : ∀ t, sourceCode t (24 + axisNo x) (legIdx x l) = raise t 0x520A (scopeOf x) (legIdx x l) fnan true := fun t => by
    cases x <;> simp [sourceCode, axisNo, scopeOf, raise1]
  obtain ⟨he, h⟩ := when_ownSource (.inl rfl) hc ha hb hu (by cases x <;> decide) (by simp [u, onLeg, atTick]) hcode
  refine ⟨_, he, h.set, ?_, h.raised, h.stopped, h.other, h.only.mono (by cases x <;> decide)⟩
  have hleg : getLeg u x l = bootLowNow (atTick s tick) (getLeg (atTick s tick) x l) := getLeg_onLeg _ x l _
  rw [h.latched.leg, hleg]
  rfl

/-- The junction sensor of a leg asserts its trip input (13 R290). -/
def tripSensor (s : State) (n : Nat) : State := { s with th.sensors := s.th.sensors.modify n (fun t => { t with trip := true }) }

theorem digitalTrip_junction {s : State} {x : Axis} {l : Leg} {stays : Bool} {tick : Nat} (hc : Calm s) (ha : Awake s)
    (hb : s.boot.service = .none) :
    ∃ t, exec (.scarpDigitalTrip (.junction x) l stays tick) s = .next t ∧ t.scarp.latch.getLsbD (27 + axisNo x) = true ∧
      Raised t 0x5B05 (scopeOf x) (BitVec.ofNat 8 (axisNo x * 6 + legNo l)) ∧
      (s.scarp.latch.getLsbD (27 + axisNo x) = false →
        GatesOff t x ∧ (getAx t x).start.ax = .disabled ∧ (getAx t x).seq.trip = true) ∧
      getAx t (otherAxis x) = getAx s (otherAxis x) ∧ OnlyChanges ([Part.clk, .scarp, axPart x, .th, .mbx] ++ signals) s t := by
  have hu : OnlyChanges [.clk, .scarp, .th] s (tripSensor (atTick s tick) (axisNo x * 6 + legNo l)) :=
    .trans ((atTick_onlyChanges s tick).mono (by simp)) ((setTh_onlyChanges (atTick s tick) _).mono (by decide))
  have hcode : ∀ t, sourceCode t (27 + axisNo x) (legIdx x l) = raise t 0x5B05 (scopeOf x) (legIdx x l) fnan true := fun t => by
    cases x <;> simp [sourceCode, axisNo, scopeOf, raise1]
  obtain ⟨he, h⟩ := when_ownSource (.inr (.inl rfl)) hc ha hb hu (by cases x <;> decide) rfl hcode
  exact ⟨_, he, h.set, h.raised, h.stopped, h.other, h.only.mono (by cases x <;> decide)⟩

theorem digitalTrip_software {s : State} {x : Axis} {l : Leg} {stays : Bool} {tick : Nat} (hc : Calm s) (ha : Awake s)
    (hb : s.boot.service = .none) :
    ∃ t, exec (.scarpDigitalTrip (.software x) l stays tick) s = .next t ∧ t.scarp.latch.getLsbD (30 + axisNo x) = true ∧
      Raised t 0x5313 (scopeOf x) 0xFF ∧
      (s.scarp.latch.getLsbD (30 + axisNo x) = false →
        GatesOff t x ∧ (getAx t x).start.ax = .disabled ∧ (getAx t x).seq.trip = true ∧
        (tripped s x = false → (getAx t x).pwm.tripCount = (getAx s x).pwm.tripCount + 1)) ∧
      getAx t (otherAxis x) = getAx s (otherAxis x) ∧ OnlyChanges ([Part.clk, .scarp, axPart x, .mbx] ++ signals) s t := by
  have hcode : ∀ t, sourceCode t (30 + axisNo x) 0 = raise t 0x5313 (scopeOf x) 0xFF fnan false := fun t => by
    cases x <;> simp [sourceCode, axisNo, scopeOf, noDetail, raise0]
  obtain ⟨he, h⟩ := when_ownSource (.inr (.inr rfl)) hc ha hb (atTick_onlyChanges s tick) (by cases x <;> decide) rfl hcode
  obtain ⟨-, -, hx, -⟩ := ownSource (.inr (.inr rfl)) x
  refine ⟨_, he, h.set, h.raised, fun hl => ?_, h.other, h.only.mono (by cases x <;> decide)⟩
  obtain ⟨hoff, hax, hflag⟩ := h.stopped hl
  exact ⟨hoff, hax, hflag, (h.latched.trips hl x hx).count⟩

/-! ### The gate supply, source of both axes (05 Table 5.2) -/

theorem digitalTrip_vgdUv {s : State} {l : Leg} {stays : Bool} {tick : Nat} (hc : Calm s) (ha : Awake s)
    (hb : s.boot.service = .none) (h1 : s.sto.in1Low = false) (h2 : s.sto.in2Low = false) :
    ∃ t, exec (.scarpDigitalTrip .vgdUv l stays tick) s = .next t ∧ t.scarp.latch.getLsbD 26 = true ∧
      t.scarp.raw.getLsbD 26 = stays ∧ Raised t 0x520B 0 0xFF ∧
      (s.scarp.latch.getLsbD 26 = false →
        ∀ x, GatesOff t x ∧ (getAx t x).start.ax = .disabled ∧ (getAx t x).seq.trip = true) ∧
      OnlyChanges ([Part.clk, Part.scarp, Part.axisA, Part.axisB, Part.mbx] ++ signals) s t := by
  let u := rawAt s 26 stays tick
  have hu : OnlyChanges [.clk, .scarp] s u := rawAt_onlyChanges s 26 stays tick
  have hg : (scarpOn s && !stoHolds s) = true := by simp [scarpOn_of ha hb, stoHolds, h1, h2]
  have hf : Latched 26 u (settle s (scarpFire u 26 0)) := (scarpFire_latched u 0 (by decide) (by decide)).settle s
  have he : exec (.scarpDigitalTrip .vgdUv l stays tick) s = when_ s (scarpOn s && !stoHolds s) (scarpFire u 26 0) := rfl
  refine ⟨_, he.trans (when_fires hg (hu.calm hc (by decide)) (by decide) (by decide)), hf.latch (by decide), ?_,
    settle_raised (scarpFire_raises (a := true) fun t => ?_), fun hl x => hf.stopped hl (by cases x <;> decide),
    .trans (hu.mono (by decide)) (hf.only.mono (by decide))⟩
  · rw [hf.scarp]
    exact setRaw_level _ (by decide) stays
  · simp [sourceCode, noDetail, raise1]

/-! ### The power fail (03 R48; 05 Table 5.2) -/

theorem waitingReset_committing {s : State} (h : s.sum.pfCommit = true) : waitingReset s = s := by simp [waitingReset, h]
/-- The gates of an axis go off and its brake engages (03 R48). -/
theorem dropGates_off (a : AxisSt) : let b := brakeOff (if a.start.ax = .disabled then gatesOff a else disableAxis a)
    (b.pwm.switching = false ∧ b.pwm.shorted = false) ∧ b.start.ax = .disabled := by
  split
  next h => exact ⟨⟨rfl, rfl⟩, h⟩
  next => exact ⟨by simp [disableAxis, gatesOff, brakeOff], rfl⟩
/-- In HOLD, READY and RUN the sequence latches source 29, begins the commit and leaves every axis DISABLED (03 R48). -/
theorem powerFailSeq_awake {s : State} (hu : thoevoUp s = true) (hb : s.boot.service = .none) (below : Bool) :
    (powerFailSeq s below).scarp.latch.getLsbD 29 = true ∧ (powerFailSeq s below).sum.pfCommit = true ∧
      ∀ x, GatesOff (powerFailSeq s below) x ∧ (getAx (powerFailSeq s below) x).start.ax = .disabled := by
  have hg : ¬(s.pwr.boot.isSome || s.pwr.base == .standby || (s.pwr.base == .off && s.boot.service == .none)) = true := by
    obtain ⟨hbase, hboot⟩ := Bool.and_eq_true_iff.mp hu
    rcases Bool.or_eq_true_iff.mp hbase with h | h <;> simp_all
  unfold powerFailSeq
  dsimp only
  rw [if_neg hg, if_pos (by simp [hb])]
  refine ⟨(latchSource_latched _ (by decide) (by decide)).latch (by decide), rfl, fun x => ?_⟩
  cases x <;> exact dropGates_off _

theorem digitalTrip_powerFail {s : State} {l : Leg} {stays : Bool} {tick : Nat} (ha : Awake s) (hb : s.boot.service = .none) :
    ∃ t, exec (.scarpDigitalTrip .powerFail l stays tick) s = .next t ∧ t.scarp.latch.getLsbD 29 = true ∧ t.sum.pfCommit = true ∧
      (∀ x, GatesOff t x ∧ (getAx t x).start.ax = .disabled) := by
  obtain ⟨hl, hp, hx⟩ := powerFailSeq_awake (s := atTick s tick) ha.1 hb false
  have he : exec (.scarpDigitalTrip .powerFail l stays tick) s = .next (settle s (endE2 (powerFailSeq (atTick s tick) false))) := by
    refine (if_pos (scarpOn_of ha hb)).trans ?_
    rw [done, waitingReset_committing (by simpa using hp)]
  refine ⟨_, he, by simpa using hl, by simpa using hp, fun x => ?_⟩
  simpa [GatesOff, getAx] using hx x

/-- Settles O13: a comparator outside its windows trips through its latch, the axes it stops and its code, CMP17 takes its level
only, a crossing inside a window does nothing; each digital source trips its own axes, and the power fail begins its sequence. -/
theorem scarpTrips : Obligations.ScarpTrips :=
  ⟨fun _ _ _ _ => scarpTrip_trips, fun _ _ _ => scarpTrip_cmp17, fun _ _ _ _ => scarpTrip_blanked,
    fun _ _ _ _ _ => digitalTrip_bootUv, fun _ _ _ _ => digitalTrip_vgdUv, fun _ _ _ _ _ => digitalTrip_junction,
    fun _ _ _ _ _ => digitalTrip_software, fun _ _ _ _ _ => digitalTrip_powerFail⟩

end Sys2Proof.Machine
end

section
/-!
SUPPORT. Blanking windows that close and the comparator self-test (05 R106, R108, R114, R115), and the statement about them.
-/

namespace Sys2Proof.Machine
open Sys2Proof
set_option Elab.async false

/-! ### The close of a window (05 R106, R108) -/

/-- A crossing inside a window counts, up to 255. -/
def countHit (b : BitVec 8) : BitVec 8 := if b = 0xFF then b else b + 1
/-- A window closes over an inactive comparator: its level, and the crossing it hid. -/
def closeWindow (s : State) (n : Nat) (crossed : Bool) (tick : Nat) : State :=
  if crossed then
    { rawAt s n false tick with scarp := { (rawAt s n false tick).scarp with blankHit := s.scarp.blankHit.modify n countHit } }
  else rawAt s n false tick

theorem execBlankWindowClose_inactive (c : Fin 24) (crossed : Bool) (tick : Nat) (s : State) :
    execBlankWindowClose c crossed false tick s =
      when_ s (scarpOn s && windowCloses s c.val tick) (closeWindow s c.val crossed tick) := rfl
theorem closeWindow_onlyChanges (s : State) (n : Nat) (crossed : Bool) (tick : Nat) :
    OnlyChanges [.clk, .scarp] s (closeWindow s n crossed tick) := by
  have h := rawAt_onlyChanges s n false tick
  cases crossed with
  | false => exact h
  | true => exact h.trans ((setScarp_onlyChanges (rawAt s n false tick) _).mono (by decide))
theorem closeWindow_inactive (s : State) (n : Nat) (crossed : Bool) (tick : Nat) :
    (closeWindow s n crossed tick).scarp.raw.getLsbD n = false := by
  cases crossed <;> exact setRaw_inactive _ n
theorem closeWindow_latch (s : State) (n : Nat) (crossed : Bool) (tick : Nat) :
    (closeWindow s n crossed tick).scarp.latch = s.scarp.latch := by
  cases crossed <;> rfl
theorem closeWindow_blankHit (s : State) (n : Nat) (crossed : Bool) (tick k : Nat) :
    (closeWindow s n crossed tick).scarp.blankHit[k]? =
      if k = n ∧ crossed = true then (s.scarp.blankHit[k]?).map countHit else s.scarp.blankHit[k]? := by
  cases crossed with
  | false => rw [if_neg (by simp)]; rfl
  | true =>
    show (s.scarp.blankHit.modify n countHit)[k]? = _
    rw [List.getElem?_modify]
    by_cases h : n = k
    · subst h; simp
    · have h' : ¬k = n := fun e => h e.symm
      simp [h, h']

/-- A window that closes is not open. -/
theorem windowOpen_of_closes {s : State} {n tick : Nat} (h : windowCloses s n tick = true) : windowOpen s n tick = false := by
  unfold windowCloses at h
  simpa using (Bool.and_eq_true_iff.mp h).2

theorem blankWindowClose_counts {s : State} {c : Fin 24} {crossed : Bool} {tick : Nat} (hc : Calm s) (ha : Awake s)
    (hb : s.boot.service = .none) (hw : windowCloses s c.val tick = true) :
    ∃ t, exec (.blankWindowClose c crossed false tick) s = .next t ∧ t.scarp.raw.getLsbD c.val = false ∧
      t.scarp.latch = s.scarp.latch ∧
      (∀ k, t.scarp.blankHit[k]? = if k = c.val ∧ crossed = true then (s.scarp.blankHit[k]?).map (fun b => if b = 0xFF then b else b + 1)
        else s.scarp.blankHit[k]?) ∧ OnlyChanges [.clk, .scarp] s t := by
  have hf := closeWindow_onlyChanges s c.val crossed tick
  have hg : (scarpOn s && windowCloses s c.val tick) = true := by simp [scarpOn_of ha hb, hw]
  exact ⟨_, (execBlankWindowClose_inactive c crossed tick s).trans (when_axes_kept hg hc hf (by decide)), closeWindow_inactive _ _ _ _,
    closeWindow_latch _ _ _ _, closeWindow_blankHit _ _ _ _, hf⟩
/-- A comparator still active as its window closes trips there, as a crossing outside every window does. -/
theorem blankWindowClose_trips {s : State} {c : Fin 24} {crossed : Bool} {tick : Nat} (ha : Awake s) (hb : s.boot.service = .none)
    (hw : windowCloses s c.val tick = true) :
    exec (.blankWindowClose c crossed true tick) s = exec (.scarpTrip c true tick) s := by
  have hg : (scarpOn s && windowCloses s c.val tick) = (scarpOn s && !windowOpen s c.val tick) := by
    simp [scarpOn_of ha hb, hw, windowOpen_of_closes hw]
  exact congrArg (fun g => when_ s g (cmpTrip (atTick s tick) c.val true)) hg

/-! ### The self-test (05 R114, R115) -/

/-- The test goes on to the next comparator. -/
def nextComparator (s : State) : State := { s with scarp := { s.scarp with nextTest := s.scarp.nextTest + 1 } }
theorem execCmpSelftestTick_passed (s : State) : execCmpSelftestTick true true s =
    when_ s (scarpOn s && parD s Par.cmpTestPeriod != 0) (cmpTestPass (nextComparator s) s.scarp.nextTest.val) := rfl
theorem execCmpSelftestTick_failed {during after : Bool} (h : (during && after) = false) (s : State) :
    execCmpSelftestTick during after s =
      when_ s (scarpOn s && parD s Par.cmpTestPeriod != 0) (cmpTestFail (nextComparator s) s.scarp.nextTest.val) := by
  simp only [execCmpSelftestTick, cmpTested, h, Bool.not_false, ↓reduceIte]
  rfl

/-- A comparator's test bit cleared. -/
def clearTestBit (s : State) (n : Nat) : State := { s with scarp := { s.scarp with testFail := s.scarp.testFail &&& ~~~(bitW n) } }
/-- A comparator's test bit set, and the built-in test failed (05 R115). -/
def setTestBit (s : State) (n : Nat) : State :=
  { s with scarp := { s.scarp with testFail := s.scarp.testFail ||| bitW n }, boot := { s.boot with bist := s.boot.bist ||| 0x8 } }
/-- A pass clears the bit and, of a leg's comparator in READY, ends the cause of its STOP. -/
theorem cmpTestPass_cases (s : State) (n : Nat) : cmpTestPass s n = clearTestBit s n ∨
    cmpTestPass s n = endCause (clearTestBit s n) 0x4305 (scopeOf (cmpAxis n)) (BitVec.ofNat 8 n) := by
  unfold cmpTestPass
  dsimp only
  split
  · exact .inr rfl
  · exact .inl rfl
theorem cmpTestPass_scarp (s : State) (n : Nat) : (cmpTestPass s n).scarp = (clearTestBit s n).scarp := by
  rcases cmpTestPass_cases s n with h | h <;> rw [h]
  exact endCause_scarp _ _ _ _
theorem cmpTestPass_onlyChanges (s : State) (n : Nat) : OnlyChanges (.scarp :: signals) s (cmpTestPass s n) := by
  have hb : OnlyChanges (.scarp :: signals) s (clearTestBit s n) := (setScarp_onlyChanges s _).mono (by decide)
  rcases cmpTestPass_cases s n with h | h <;> rw [h]
  · exact hb
  · exact hb.trans ((endCause_signals _ _ _ _).mono (by decide))

/-- The code of a comparator that fails its test: a STOP of its axis for a leg's, a WARN for the others (05 R115). -/
theorem cmpTestFail_leg {n : Nat} (h : n < 12) (s : State) :
    cmpTestFail s n = raise1 (setTestBit s n) 0x4305 (if n < 6 then 1 else 2) (BitVec.ofNat 8 n) := by
  rw [← scopeOf_cmpAxis h]
  exact if_pos h
theorem cmpTestFail_other {n : Nat} (h : ¬n < 12) (s : State) :
    cmpTestFail s n = raise0 (setTestBit s n) 0x2304 0 (BitVec.ofNat 8 n) := if_neg h
theorem cmpTestFail_raise (s : State) (n : Nat) : ∃ c sc e a, cmpTestFail s n = raise (setTestBit s n) c sc e fnan a := by
  by_cases h : n < 12
  · exact ⟨_, _, _, _, cmpTestFail_leg h s⟩
  · exact ⟨_, _, _, _, cmpTestFail_other h s⟩
theorem cmpTestFail_raised (s : State) (n : Nat) :
    if n < 12 then Raised (cmpTestFail s n) 0x4305 (if n < 6 then 1 else 2) (BitVec.ofNat 8 n)
    else Raised (cmpTestFail s n) 0x2304 0 (BitVec.ofNat 8 n) := by
  split
  next h =>
    rw [cmpTestFail_leg h]
    exact raise1_raised _ _ _ _
  next h =>
    rw [cmpTestFail_other h]
    exact raise_raised _ _ _ _ _ _
theorem setTestBit_onlyChanges (s : State) (n : Nat) : OnlyChanges [.scarp, .boot] s (setTestBit s n) := by
  refine ⟨rfl, fun p hp => ?_⟩
  cases p with
  | scarp | boot => exact absurd (by decide) hp
  | _ => rfl
theorem cmpTestFail_onlyChanges (s : State) (n : Nat) :
    OnlyChanges ([Part.scarp, .boot, .axisA, .axisB, .mbx] ++ signals) s (cmpTestFail s n) := by
  obtain ⟨c, sc, e, a, h⟩ := cmpTestFail_raise s n
  have hx : (scopeAxes sc).map axPart ⊆ [Part.scarp, .boot, .axisA, .axisB, .mbx] ++ signals := fun p hp => by
    obtain ⟨x, -, rfl⟩ := List.mem_map.mp hp
    cases x <;> decide
  rw [h]
  exact .trans ((setTestBit_onlyChanges s n).mono (by decide))
    ((raise_onlyChanges _ c sc e fnan a).mono (List.append_subset.mpr ⟨hx, by decide⟩))
theorem cmpTestFail_scarp (s : State) (n : Nat) : (cmpTestFail s n).scarp = (setTestBit s n).scarp := by
  obtain ⟨c, sc, e, a, h⟩ := cmpTestFail_raise s n
  rw [h, raise_scarp]
theorem actsDue_cmpTestFail (s : State) (n : Nat) : actsDue (cmpTestFail s n) = actsDue s := by
  obtain ⟨c, sc, e, a, h⟩ := cmpTestFail_raise s n
  rw [h, actsDue_raise]
  rfl

theorem selftest_runs {s : State} (ha : Awake s) (hb : s.boot.service = .none) (hp : parD s Par.cmpTestPeriod ≠ 0) :
    (scarpOn s && parD s Par.cmpTestPeriod != 0) = true := by simpa [scarpOn_of ha hb] using hp

theorem cmpSelftest_passes {s : State} (hc : Calm s) (ha : Awake s) (hb : s.boot.service = .none)
    (hp : parD s Par.cmpTestPeriod ≠ 0) :
    ∃ t, exec (.cmpSelftestTick true true) s = .next t ∧ t.scarp.testFail.getLsbD s.scarp.nextTest.val = false ∧
      t.scarp.nextTest = s.scarp.nextTest + 1 ∧ t.scarp.latch = s.scarp.latch ∧ OnlyChanges ([Part.scarp] ++ signals) s t := by
  have hf : OnlyChanges ([Part.scarp] ++ signals) s (cmpTestPass (nextComparator s) s.scarp.nextTest.val) :=
    .trans ((setScarp_onlyChanges s _).mono (by decide)) ((cmpTestPass_onlyChanges _ _).mono (by decide))
  refine ⟨_, (execCmpSelftestTick_passed s).trans (when_axes_kept (selftest_runs ha hb hp) hc hf (by decide)), ?_, ?_, ?_, hf⟩
  all_goals rw [cmpTestPass_scarp]
  · simp [clearTestBit, bitW_getLsbD]
  · rfl
  · rfl
theorem cmpSelftest_fails {s : State} {during after : Bool} (hc : Calm s) (ha : Awake s) (hb : s.boot.service = .none)
    (hp : parD s Par.cmpTestPeriod ≠ 0) (hfail : (during && after) = false) :
    ∃ t, exec (.cmpSelftestTick during after) s = .next t ∧ t.scarp.testFail.getLsbD s.scarp.nextTest.val = true ∧
      t.scarp.nextTest = s.scarp.nextTest + 1 ∧
      (if s.scarp.nextTest.val < 12 then
        Raised t 0x4305 (if s.scarp.nextTest.val < 6 then 1 else 2) (BitVec.ofNat 8 s.scarp.nextTest.val)
      else Raised t 0x2304 0 (BitVec.ofNat 8 s.scarp.nextTest.val)) ∧
      OnlyChanges ([Part.scarp, Part.boot, Part.axisA, Part.axisB, Part.mbx] ++ signals) s t := by
  let u := cmpTestFail (nextComparator s) s.scarp.nextTest.val
  have hf : OnlyChanges ([Part.scarp, .boot, .axisA, .axisB, .mbx] ++ signals) s u :=
    .trans ((setScarp_onlyChanges s _).mono (by decide)) (cmpTestFail_onlyChanges _ _)
  have hcalm : Calm u := hc.of_actsDue (actsDue_cmpTestFail _ _)
  have h32 : s.scarp.nextTest.val < 32 := by omega
  refine ⟨_, (execCmpSelftestTick_failed hfail s).trans (when_settles (selftest_runs ha hb hp) hcalm), ?_, ?_, ?_,
    hf.trans ((settle_onlyChanges s u).mono (by decide))⟩
  · rw [settle_scarp, cmpTestFail_scarp]
    simp [setTestBit, bitW_getLsbD, h32]
  · rw [settle_scarp, cmpTestFail_scarp]
    rfl
  · have hr := cmpTestFail_raised (nextComparator s) s.scarp.nextTest.val
    split at hr
    next h =>
      rw [if_pos h]
      exact settle_raised hr
    next h =>
      rw [if_neg h]
      exact settle_raised hr

/-- Settles O14: a window closes over an inactive comparator and counts its crossing, or over an active one that trips; a
comparator's test clears its bit, or sets it and raises its code, and the next one is due. -/
theorem blankingAndSelfTest : Obligations.BlankingAndSelfTest :=
  ⟨fun _ _ _ _ => blankWindowClose_counts, fun _ _ _ _ _ => blankWindowClose_trips, fun _ => cmpSelftest_passes,
    fun _ _ _ => cmpSelftest_fails⟩

end Sys2Proof.Machine
end

section
/-!
SUPPORT. The timeouts of control: a missing setpoint, field weakening at its limit, overspeed (08 R181, R189, R191), and the statement
about them.
-/

namespace Sys2Proof.Machine
open Sys2Proof
set_option Elab.async false

/-! ### Codes of one axis -/

/-- A STOP, or any other code, raised for one axis as all a command does. -/
theorem when_raises_axis {s : State} {g : Bool} (hg : g = true) (hc : Calm s) (x : Axis) (c : BitVec 16) (d : BitVec 8) (v : F32)
    (a : Bool) : ∃ t, when_ s g (raise s c (scopeOf x) d v a) = .next t ∧ Raised t c (scopeOf x) d ∧
      OnlyChanges ([axPart x, .mbx] ++ signals) s t := by
  have hf := raise_onlyChanges s c (scopeOf x) d v a
  rw [scopeAxes_scopeOf] at hf
  exact ⟨_, when_settles hg (hc.of_actsDue (actsDue_raise s c _ d v a)), settle_raised (raise_raised _ _ _ _ _ _),
    hf.trans ((settle_onlyChanges s _).mono (by cases x <;> decide))⟩
/-- A LIMIT whose cause ends leaves the active list (12 R277). -/
theorem endCause_unlisted {c : BitVec 16} (hc : codeClass c = 3) (h4 : c ≠ 0x3A04) (s : State) (sc d : BitVec 8) :
    ¬ Listed (endCause s c sc d) c sc d := by
  rintro ⟨e, he, rfl, rfl, rfl⟩
  unfold endCause at he
  split at he
  next hn => exact List.find?_eq_none.mp hn e he (by simp [sameFault])
  next f hf =>
    have hs : sameFault e.code e.scope e.detail f = true := List.find?_some hf
    simp only [sameFault, Bool.and_eq_true, beq_iff_eq] at hs
    obtain ⟨⟨h1, h2⟩, h3⟩ := hs
    rw [if_pos ⟨hc, h4⟩] at he
    simp [leaveList, logIt, sameFault, h1, h2, h3] at he

/-! ### Setpoints that stay away, overspeed (08 R189, R191) -/

theorem spMbxTimeout_stops {s : State} {x : Axis} (hc : Calm s) (ha : (getAx s x).sp.accepted = true) (hs : (getAx s x).sp.src = 0)
    (hp : parX s x Par.spMbxTimeout ≠ 0) :
    ∃ t, exec (.spMbxTimeout x) s = .next t ∧ Raised t 0x4605 (scopeOf x) 0xFF ∧ OnlyChanges ([axPart x, .mbx] ++ signals) s t :=
  when_raises_axis (by simpa [ha, hs] using hp) hc x 0x4605 noDetail fnan false

theorem overspeedTimeout_stops {s : State} {x : Axis} (hc : Calm s) (hg : gatesOn (getAx s x) = true) (hv : (speedFb s x).2 = true)
    (ho : fval (parX s x Par.overspeed) < absR (speedFb s x).1) :
    ∃ t, exec (.overspeedTimeout x) s = .next t ∧ Raised t 0x4607 (scopeOf x) 0xFF ∧ OnlyChanges ([axPart x, .mbx] ++ signals) s t :=
  when_raises_axis (by simp [hg, hv, pf, ho]) hc x 0x4607 noDetail (rd (speedFb s x).1) false

/-! ### Field weakening at its limit (08 R181) -/

/-- The bound field weakening lays on the speed, or none. -/
def boundSpeed (b : Option F32) (a : AxisSt) : AxisSt := { a with ctl := { a.ctl with fwBound := b } }

theorem execFwExhaustedTimeout_bounds {s : State} {x : Axis} (hl : (getAx s x).ctl.status.getLsbD 2 = true)
    (hb : (getAx s x).ctl.fwBound = none) : execFwExhaustedTimeout x s =
      when_ s true (raise1 (onAx s x (boundSpeed (some (frnd (absR (speedFb s x).1))))) 0x3604 (scopeOf x) noDetail) :=
  if_pos (by rw [hl, hb]; rfl)
theorem execFwExhaustedTimeout_frees {s : State} {x : Axis} (hl : (getAx s x).ctl.status.getLsbD 2 = false)
    (hb : (getAx s x).ctl.fwBound ≠ none) : execFwExhaustedTimeout x s =
      when_ s true (endCause (onAx s x (boundSpeed none)) 0x3604 (scopeOf x) noDetail) :=
  (if_neg (by rw [hl]; simp)).trans (if_pos (by rw [hl]; simp [Option.isSome_iff_ne_none, hb]))

/-- A new bound, followed by signals alone, is all that changes, and nothing else is to report. -/
theorem boundSpeed_settles {s u : State} {x : Axis} {b : Option F32} (hc : Calm s)
    (hu : OnlyChanges signals (onAx s x (boundSpeed b)) u) :
    when_ s true u = .next u ∧ (getAx u x).ctl.fwBound = b ∧ OnlyChanges ([axPart x] ++ signals) s u := by
  have hf : OnlyChanges ([axPart x] ++ signals) s u :=
    .trans ((onAx_onlyChanges s x _).mono (by simp)) (hu.mono (by simp))
  have hx : ∀ y, getAx u y = getAx (onAx s x (boundSpeed b)) y := hu.getAx_both (by decide) (by decide)
  refine ⟨when_unmoved rfl hc hf (by cases x <;> decide) fun y => ?_, ?_, hf⟩
  · rw [hx]
    exact onAx_unmoved s x y
  · rw [hx, getAx_onAx]
    rfl

theorem fwExhausted_bounds {s : State} {x : Axis} (hc : Calm s) (hl : (getAx s x).ctl.status.getLsbD 2 = true)
    (hb : (getAx s x).ctl.fwBound = none) :
    ∃ t, exec (.fwExhaustedTimeout x) s = .next t ∧ (getAx t x).ctl.fwBound = some (frnd (absR (speedFb s x).1)) ∧
      Raised t 0x3604 (scopeOf x) 0xFF ∧ OnlyChanges ([axPart x] ++ signals) s t := by
  obtain ⟨he, hv, hf⟩ := boundSpeed_settles hc
    (raise_signals (c := 0x3604) (by decide) (onAx s x (boundSpeed (some (frnd (absR (speedFb s x).1))))) (scopeOf x) noDetail fnan true)
  exact ⟨_, (execFwExhaustedTimeout_bounds hl hb).trans he, hv, raise1_raised _ _ _ _, hf⟩
theorem fwExhausted_frees {s : State} {x : Axis} (hc : Calm s) (hl : (getAx s x).ctl.status.getLsbD 2 = false)
    (hb : (getAx s x).ctl.fwBound ≠ none) :
    ∃ t, exec (.fwExhaustedTimeout x) s = .next t ∧ (getAx t x).ctl.fwBound = none ∧ ¬ Listed t 0x3604 (scopeOf x) 0xFF ∧
      OnlyChanges ([axPart x] ++ signals) s t := by
  obtain ⟨he, hv, hf⟩ := boundSpeed_settles hc (endCause_signals (onAx s x (boundSpeed none)) 0x3604 (scopeOf x) noDetail)
  exact ⟨_, (execFwExhaustedTimeout_frees hl hb).trans he, hv, endCause_unlisted (by decide) (by decide) _ _ _, hf⟩

/-- Settles O24: a missing setpoint and an overspeed raise their STOPs, field weakening at its limit lays its bound with its LIMIT, and
leaving the limit takes both away. -/
theorem controlTimeouts : Obligations.ControlTimeouts :=
  ⟨fun _ _ => spMbxTimeout_stops, fun _ _ => fwExhausted_bounds, fun _ _ => fwExhausted_frees, fun _ _ => overspeedTimeout_stops⟩

end Sys2Proof.Machine
end

section
/-!
SUPPORT. The local command curve: its inputs, its crossings and the ramp stop it begins (08 R195, R196, Table 8.6; 10 R232), and the
statement about it.
-/

namespace Sys2Proof.Machine
open Sys2Proof
set_option Elab.async false

/-! ### What a stop leaves of the curve (10 R232, R235) -/

/-- The curve's input and whether it is on. -/
def curveOf (a : AxisSt) : F32 × Bool := (a.sp.curveX, a.sp.curveOn)

@[simp] theorem setAx_curveOf (st : AxState) (a : AxisSt) : curveOf (setAx st a) = curveOf a := by
  unfold setAx
  dsimp only
  split <;> rfl
theorem curveOf_of_sp {a b : AxisSt} (h : a.sp = b.sp) : curveOf a = curveOf b := by rw [curveOf, curveOf, h]
theorem beginStop_curveOf (s : State) (x : Axis) (k : StopKind) (y : Axis) :
    curveOf (getAx (beginStop s x k) y) = curveOf (getAx s y) := by
  have step {t : State} {f : AxisSt → AxisSt} (ht : curveOf (getAx t y) = curveOf (getAx s y)) (hf : ∀ a, curveOf (f a) = curveOf a) :
      curveOf (getAx (onAx t x f) y) = curveOf (getAx s y) := (onAx_keeps curveOf t x y hf).trans ht
  have stopping {a b : AxisSt} (hb : b.sp = a.sp) : curveOf (setAx .stopping b) = curveOf a :=
    (setAx_curveOf .stopping b).trans (curveOf_of_sp hb)
  have hd : curveOf (getAx (onAx s x fun a => disableAxis (brakeOff a)) y) = curveOf (getAx s y) :=
    step rfl fun a => setAx_curveOf .disabled (gatesOff (brakeOff a))
  have hr : curveOf (getAx (onAx s x fun a => { a with start.retryNext := false, start.failReason := 0 }) y) = curveOf (getAx s y) :=
    step rfl fun _ => rfl
  unfold beginStop
  extract_lets a w
  split
  · rfl
  · rfl
  · exact hd
  · exact hd
  · exact hd
  split
  · exact hd
  split
  · exact hr
  split
  · exact step hr fun _ => (curveOf_of_sp rfl).trans (stopping rfl)
  split
  · exact step hr fun _ => (curveOf_of_sp rfl).trans (stopping rfl)
  · exact step hr fun _ => (curveOf_of_sp rfl).trans (stopping rfl)
theorem requestStop_curveOf (s : State) (x : Axis) (k : StopKind) (y : Axis) :
    curveOf (getAx (requestStop s x k) y) = curveOf (getAx s y) :=
  abandonMotor_keeps (p := fun a => curveOf a = curveOf (getAx s y)) (fun _ h => h) (fun _ _ h => h) (beginStop_curveOf s x k y) x

/-- An axis that ramps down. -/
def RampsDown (a : AxisSt) : Prop := a.start.ax = .stopping ∧ a.start.stop = some .ramp

/-- A ramp stop of an axis in RUN begins at once (10 R232). -/
theorem requestStop_ramps {s : State} {x : Axis} (hr : (getAx s x).start.ax = .run) (hs : (getAx s x).pwm.switching = true) :
    RampsDown (getAx (requestStop s x .ramp) x) := by
  have hb : RampsDown (getAx (beginStop s x .ramp) x) := by
    simp only [beginStop, hr, hs]
    simp [RampsDown, setAx]
  exact abandonMotor_keeps (p := RampsDown) (fun _ h => h) (fun _ _ h => h) hb x
@[simp] theorem actsDue_requestStop (s : State) (x : Axis) (k : StopKind) : actsDue (requestStop s x k) = actsDue s := by simp [actsDue]

/-! ### The curve turns off (Table 8.6) -/

/-- The curve of an axis is off. -/
def turnOff (a : AxisSt) : AxisSt := { a with sp := { a.sp with curveOn := false } }
/-- With CURVE_AUTO = 1 a curve that was on stops its axis (Table 8.6). -/
def curveStops (s : State) (x : Axis) : Bool := (getAx s x).sp.curveOn && curvePar s x Par.curveAuto == 1
/-- The stop of a curve that turned off is marked as its own where it is under way (08 R196). -/
def markCurveStop (a : AxisSt) : AxisSt := { a with start := { a.start with curveStop := a.start.ax == .stopping } }

/-- A curve that turns off leaves its axis, requests a ramp stop, or requests one and marks it. -/
theorem curveOffNow_intro {p : State → Prop} {s : State} {x : Axis} (h0 : curveStops s x = false → p (onAx s x turnOff))
    (h1 : curveStops s x = true → (getAx s x).start.ax = .stopping → p (requestStop (onAx s x turnOff) x .ramp))
    (h2 : curveStops s x = true → (getAx s x).start.ax ≠ .stopping →
      p (onAx (requestStop (onAx s x turnOff) x .ramp) x markCurveStop)) : p (curveOffNow s x) := by
  unfold curveOffNow
  dsimp only
  split
  next h =>
    split
    next hx => exact h1 h (by simpa using hx)
    next hx => exact h2 h (by simpa using hx)
  next h => exact h0 (by simpa [curveStops] using h)
theorem curveOffNow_onlyChanges (s : State) (x : Axis) : OnlyChanges (axPart x :: .mbx :: signals) s (curveOffNow s x) := by
  have h0 : OnlyChanges (axPart x :: .mbx :: signals) s (onAx s x turnOff) := (onAx_onlyChanges s x _).mono (by simp)
  have h1 := h0.trans (requestStop_onlyChanges _ x .ramp)
  exact curveOffNow_intro (p := OnlyChanges _ s) (fun _ => h0) (fun _ _ => h1)
    fun _ _ => h1.trans ((onAx_onlyChanges _ x _).mono (by simp))
theorem curveOffNow_raisesKept (s : State) (x : Axis) : RaisesKept s (curveOffNow s x) := by
  have h0 := onAx_raisesKept s x turnOff
  have h1 := h0.trans (requestStop_raisesKept _ x .ramp)
  exact curveOffNow_intro (p := RaisesKept s) (fun _ => h0) (fun _ _ => h1) fun _ _ => h1.trans (onAx_raisesKept _ x _)
@[simp] theorem actsDue_curveOffNow (s : State) (x : Axis) : actsDue (curveOffNow s x) = actsDue s :=
  curveOffNow_intro (p := fun t => actsDue t = actsDue s) (fun _ => by simp) (fun _ _ => by simp) fun _ _ => by simp
/-- The curve is off, and its input is the one it had. -/
theorem curveOffNow_off (s : State) (x : Axis) : curveOf (getAx (curveOffNow s x) x) = ((getAx s x).sp.curveX, false) := by
  have h0 : curveOf (getAx (onAx s x turnOff) x) = ((getAx s x).sp.curveX, false) := by
    rw [getAx_onAx]
    rfl
  have h1 := (requestStop_curveOf (onAx s x turnOff) x .ramp x).trans h0
  exact curveOffNow_intro (p := fun t => curveOf (getAx t x) = _) (fun _ => h0) (fun _ _ => h1)
    fun _ _ => (onAx_keeps curveOf _ x x).trans h1
/-- With CURVE_AUTO = 1 an axis in RUN ramps down as its curve turns off. -/
theorem curveOffNow_ramps {s : State} {x : Axis} (ho : curveStops s x = true) (hr : (getAx s x).start.ax = .run)
    (hs : (getAx s x).pwm.switching = true) : RampsDown (getAx (curveOffNow s x) x) := by
  have h1 : RampsDown (getAx (requestStop (onAx s x turnOff) x .ramp) x) :=
    requestStop_ramps (by rw [getAx_onAx]; exact hr) (by rw [getAx_onAx]; exact hs)
  refine curveOffNow_intro (p := fun t => RampsDown (getAx t x)) (fun h => ?_) (fun _ _ => h1) fun _ _ => ?_
  · rw [ho] at h
    cases h
  · rw [getAx_onAx]
    exact h1

/-! ### Inputs of the curve (08 R195, R196) -/

/-- An input of the curve acts on an axis: in READY, where the curve commands it and reads that input. -/
def takesInput (inp : Nat) (s : State) (x : Axis) : Bool :=
  isReady s && curveUsed s x && curvePar s x Par.curveIn == BitVec.ofNat 32 inp
theorem curveSource_eq (inp : Nat) (v : Option F32) (s : State) (x : Axis) : curveSource inp v s x =
    if takesInput inp s x then v.elim (curveFaulted s x) (curveInput s x) else s := by
  have hg : (!isReady s || !curveUsed s x || curvePar s x Par.curveIn != BitVec.ofNat 32 inp) = !takesInput inp s x := by
    simp [takesInput, bne, Bool.not_and]
  unfold curveSource
  rw [hg]
  cases takesInput inp s x with
  | false => rfl
  | true => cases v <;> rfl
/-- What an axis takes rests on its own state, the power state and the parameters. -/
theorem takesInput_kept {s t : State} {x : Axis} (hx : getAx t x = getAx s x) (hw : t.pwr = s.pwr) (hp : t.par = s.par)
    (hi : t.inForce = s.inForce) (inp : Nat) : takesInput inp t x = takesInput inp s x := by
  simp only [takesInput, isReady, curveUsed, curvePar, storX, parX, storedAt, inForceAt, hx, hw, hp, hi]

/-- A fault of the curve's input: its crossings no longer turn it on. -/
def faultInput (a : AxisSt) : AxisSt := { a with sp := { a.sp with curveFault := true, curveArmed := false } }
theorem curveFaulted_eq {s : State} {x : Axis} (h : (getAx s x).sp.curveFault = false) :
    curveFaulted s x = raise0 (onAx (curveOffNow s x) x faultInput) 0x2602 (scopeOf x) noDetail :=
  if_neg (by simp [h])
/-- A WARN stops no axis. -/
theorem faultWarn_eq_record (s : State) (sc : BitVec 8) : raise0 s 0x2602 sc noDetail = record s 0x2602 sc noDetail fnan false :=
  raise_eq_record (by decide) _ _ _ _ _
theorem curveFaulted_intro {p : State → Prop} {s : State} {x : Axis} (h0 : p s)
    (h1 : p (record (onAx (curveOffNow s x) x faultInput) 0x2602 (scopeOf x) noDetail fnan false)) : p (curveFaulted s x) := by
  cases h : (getAx s x).sp.curveFault with
  | true => rwa [curveFaulted, if_pos h]
  | false => rwa [curveFaulted_eq h, faultWarn_eq_record]
theorem curveFaulted_onlyChanges (s : State) (x : Axis) : OnlyChanges (axPart x :: .mbx :: signals) s (curveFaulted s x) :=
  curveFaulted_intro (p := OnlyChanges _ s) (onlyChanges_refl _ s)
    (.trans (curveOffNow_onlyChanges s x) (.trans ((onAx_onlyChanges _ x _).mono (by simp))
      ((record_onlyChanges _ _ _ _ _ _).mono fun p hp => by simp [hp])))
theorem curveFaulted_raisesKept (s : State) (x : Axis) : RaisesKept s (curveFaulted s x) :=
  curveFaulted_intro (p := RaisesKept s) (.refl s)
    (((curveOffNow_raisesKept s x).trans (onAx_raisesKept _ x _)).trans (record_raisesKept _ (by decide) _ _ _ _))
@[simp] theorem actsDue_curveFaulted (s : State) (x : Axis) : actsDue (curveFaulted s x) = actsDue s :=
  curveFaulted_intro (p := fun t => actsDue t = actsDue s) rfl (by rw [← faultWarn_eq_record]; simp [raise0])
theorem curveFaulted_faults {s : State} {x : Axis} (h : (getAx s x).sp.curveFault = false) :
    (getAx (curveFaulted s x) x).sp.curveFault = true ∧ (getAx (curveFaulted s x) x).sp.curveOn = false ∧
      Raised (curveFaulted s x) 0x2602 (scopeOf x) 0xFF := by
  have hoff : (getAx (curveOffNow s x) x).sp.curveOn = false := congrArg Prod.snd (curveOffNow_off s x)
  rw [curveFaulted_eq h]
  refine ⟨?_, ?_, raise_raised _ _ _ _ _ _⟩ <;> rw [faultWarn_eq_record, getAx_record, getAx_onAx]
  · rfl
  · exact hoff

theorem curveInput_onlyChanges (s : State) (x : Axis) (v : F32) : OnlyChanges [axPart x] s (curveInput s x v) := onAx_onlyChanges s x _

/-! ### An input meets both axes -/

/-- Where each axis is acted on in its own part alone, beside shared ones, an axis has its turn between changes of the other. -/
theorem bothAxes_turn {R : State → State → Prop} (hrefl : ∀ s, R s s) {f : State → Axis → State} {ps : List Part}
    (hf : ∀ t y, OnlyChanges (axPart y :: ps) t (f t y)) (hR : ∀ t y, R t (f t y)) (s : State) (x : Axis) :
    ∃ t, OnlyChanges (axPart (otherAxis x) :: ps) s t ∧
      OnlyChanges (axPart (otherAxis x) :: ps) (f t x) (bothAxes.foldl f s) ∧ R (f t x) (bothAxes.foldl f s) := by
  cases x with
  | a => exact ⟨s, onlyChanges_refl _ s, hf _ .b, hR _ .b⟩
  | b => exact ⟨f s .a, hf s .a, onlyChanges_refl _ _, hrefl _⟩

/-- A duty of PWM_CMD reaches the axes that read it (08 R195). -/
def takeDuty (s : State) (v : F32) : State := bothAxes.foldl (curveSource 1 (some v)) s
/-- A fault of PWM_CMD reaches the axes that read it (08 R196). -/
def faultDuty (s : State) : State := bothAxes.foldl (curveSource 1 none) s

theorem execPwmCmdPeriod_valid {s : State} {p h : Nat} (h40 : 40000 ≤ p) (h20 : p ≤ 20000000) (hh : h ≤ p) :
    execPwmCmdPeriod p h s = when_ s (filtPass (parD s Par.pwmCmdFilt) h && filtPass (parD s Par.pwmCmdFilt) (p - h))
      (takeDuty s (frnd (mkRat h p))) := by
  simp only [execPwmCmdPeriod, h40, h20, hh, and_self, decide_true, ↓reduceIte, takeDuty]
theorem execPwmCmdPeriod_invalid {s : State} {p h : Nat} (hp : p < 40000 ∨ 20000000 < p) :
    execPwmCmdPeriod p h s = when_ s (filtPass (parD s Par.pwmCmdFilt) h && filtPass (parD s Par.pwmCmdFilt) (p - h)) (faultDuty s) := by
  have hn : ¬(40000 ≤ p ∧ p ≤ 20000000 ∧ h ≤ p) := by omega
  simp only [execPwmCmdPeriod, hn, decide_false, Bool.false_eq_true, ↓reduceIte, faultDuty]

theorem curveSource_some_onlyChanges (v : F32) (t : State) (y : Axis) : OnlyChanges [axPart y] t (curveSource 1 (some v) t y) := by
  rw [curveSource_eq]
  split
  · exact curveInput_onlyChanges t y v
  · exact onlyChanges_refl _ t
/-- A duty moves no gate and no axis state. -/
theorem curveSource_some_unmoved (v : F32) (t : State) (y z : Axis) : (getAx (curveSource 1 (some v) t y) z).pwm = (getAx t z).pwm ∧
    (getAx (curveSource 1 (some v) t y) z).start = (getAx t z).start := by
  rw [curveSource_eq]
  split
  · rw [Option.elim_some, curveInput]
    exact onAx_unmoved t y z
  · exact ⟨rfl, rfl⟩
theorem takeDuty_onlyChanges (s : State) (v : F32) : OnlyChanges [.axisA, .axisB] s (takeDuty s v) :=
  OnlyChanges.of_foldl (fun t y _ => (curveSource_some_onlyChanges v t y).mono (by cases y <;> decide)) s
theorem takeDuty_unmoved (s : State) (v : F32) (x : Axis) :
    (getAx (takeDuty s v) x).pwm = (getAx s x).pwm ∧ (getAx (takeDuty s v) x).start = (getAx s x).start :=
  ⟨foldl_keeps (fun t : State => (getAx t x).pwm) _ (fun t y => (curveSource_some_unmoved v t y x).1) _ s,
    foldl_keeps (fun t : State => (getAx t x).start) _ (fun t y => (curveSource_some_unmoved v t y x).2) _ s⟩
theorem takeDuty_takes {s : State} {x : Axis} (h : takesInput 1 s x = true) (v : F32) :
    (getAx (takeDuty s v) x).sp.curveIn = v ∧ (getAx (takeDuty s v) x).sp.curveSeen = true ∧
      (getAx (takeDuty s v) x).sp.curveFault = false := by
  obtain ⟨t, h1, h2, -⟩ := bothAxes_turn (R := fun _ _ => True) (fun _ => trivial) (curveSource_some_onlyChanges v)
    (fun _ _ => trivial) s x
  have hn : ∀ p ∈ [axPart x, .pwr, .par, .inForce], p ∉ [axPart (otherAxis x)] := by cases x <;> decide
  have ht : takesInput 1 t x = true := (takesInput_kept (h1.axis_eq (hn _ (by simp))) (h1.2 .pwr (hn _ (by simp)))
    (h1.2 .par (hn _ (by simp))) (h1.2 .inForce (hn _ (by simp))) 1).trans h
  rw [takeDuty, h2.axis_eq (hn _ (by simp)), curveSource_eq, if_pos ht, Option.elim_some, curveInput, getAx_onAx]
  exact ⟨rfl, rfl, rfl⟩

theorem curveSource_none_cases (t : State) (y : Axis) : curveSource 1 none t y = curveFaulted t y ∨ curveSource 1 none t y = t := by
  rw [curveSource_eq]
  split
  · exact .inl rfl
  · exact .inr rfl
theorem curveSource_none_onlyChanges (t : State) (y : Axis) : OnlyChanges (axPart y :: .mbx :: signals) t (curveSource 1 none t y) := by
  rcases curveSource_none_cases t y with h | h <;> rw [h]
  · exact curveFaulted_onlyChanges t y
  · exact onlyChanges_refl _ t
theorem curveSource_none_raisesKept (t : State) (y : Axis) : RaisesKept t (curveSource 1 none t y) := by
  rcases curveSource_none_cases t y with h | h <;> rw [h]
  · exact curveFaulted_raisesKept t y
  · exact .refl t
theorem actsDue_curveSource_none (t : State) (y : Axis) : actsDue (curveSource 1 none t y) = actsDue t := by
  rcases curveSource_none_cases t y with h | h <;> rw [h]
  exact actsDue_curveFaulted t y
theorem faultDuty_onlyChanges (s : State) : OnlyChanges ([Part.axisA, .axisB, .mbx] ++ signals) s (faultDuty s) :=
  OnlyChanges.of_foldl (fun t y _ => (curveSource_none_onlyChanges t y).mono (by cases y <;> decide)) s
theorem actsDue_faultDuty (s : State) : actsDue (faultDuty s) = actsDue s := foldl_keeps actsDue _ actsDue_curveSource_none _ s
theorem faultDuty_faults {s : State} {x : Axis} (h : takesInput 1 s x = true) (hf : (getAx s x).sp.curveFault = false) :
    (getAx (faultDuty s) x).sp.curveFault = true ∧ (getAx (faultDuty s) x).sp.curveOn = false ∧
      Raised (faultDuty s) 0x2602 (scopeOf x) 0xFF := by
  obtain ⟨t, h1, h2, hk⟩ := bothAxes_turn RaisesKept.refl curveSource_none_onlyChanges curveSource_none_raisesKept s x
  have hn : ∀ p ∈ [axPart x, .pwr, .par, .inForce], p ∉ axPart (otherAxis x) :: Part.mbx :: signals := by cases x <;> decide
  have hx : getAx t x = getAx s x := h1.axis_eq (hn _ (by simp))
  have ht : takesInput 1 t x = true := (takesInput_kept hx (h1.2 .pwr (hn _ (by simp))) (h1.2 .par (hn _ (by simp)))
    (h1.2 .inForce (hn _ (by simp))) 1).trans h
  have he : curveSource 1 none t x = curveFaulted t x := by
    rw [curveSource_eq, if_pos ht]
    rfl
  rw [he] at h2 hk
  obtain ⟨hfault, hoff, hr⟩ := curveFaulted_faults (s := t) (x := x) (by rw [hx, hf])
  rw [faultDuty, h2.axis_eq (hn _ (by simp))]
  exact ⟨hfault, hoff, hk.raised hr⟩

theorem takesDuty_of {s : State} {x : Axis} (hr : isReady s = true) (hu : curveUsed s x = true)
    (hi : curvePar s x Par.curveIn = 1) : takesInput 1 s x = true := by simp [takesInput, hr, hu, hi]

theorem pwmCmdPeriod_takes {s : State} {x : Axis} {p h : Nat} (hc : Calm s) (hr : isReady s = true) (hu : curveUsed s x = true)
    (hi : curvePar s x Par.curveIn = 1) (h40 : 40000 ≤ p) (h20 : p ≤ 20000000) (hh : h ≤ p)
    (hhigh : filtPass (parD s Par.pwmCmdFilt) h = true) (hlow : filtPass (parD s Par.pwmCmdFilt) (p - h) = true) :
    ∃ t, exec (.pwmCmdPeriod p h) s = .next t ∧ (getAx t x).sp.curveIn = frnd (mkRat h p) ∧ (getAx t x).sp.curveSeen = true ∧
      (getAx t x).sp.curveFault = false ∧ (getAx t x).start = (getAx s x).start ∧ OnlyChanges [.axisA, .axisB] s t := by
  have hg : (filtPass (parD s Par.pwmCmdFilt) h && filtPass (parD s Par.pwmCmdFilt) (p - h)) = true := by simp [hhigh, hlow]
  have hf := takeDuty_onlyChanges s (frnd (mkRat h p))
  obtain ⟨hin, hseen, hfault⟩ := takeDuty_takes (takesDuty_of hr hu hi) (frnd (mkRat h p))
  exact ⟨_, (execPwmCmdPeriod_valid h40 h20 hh).trans (when_unmoved hg hc hf (by decide) (takeDuty_unmoved s _)), hin, hseen, hfault,
    (takeDuty_unmoved s _ x).2, hf⟩

/-- A missing period and one outside its range fault the input alike. -/
theorem pwmCmd_faults {s : State} {x : Axis} {c : Instr} (hc : Calm s) (hr : isReady s = true) (hu : curveUsed s x = true)
    (hi : curvePar s x Par.curveIn = 1) (hf : (getAx s x).sp.curveFault = false)
    (hcmd : c = .pwmCmdTimeout ∨ ∃ p h, c = .pwmCmdPeriod p h ∧ filtPass (parD s Par.pwmCmdFilt) h = true ∧
      filtPass (parD s Par.pwmCmdFilt) (p - h) = true ∧ (p < 40000 ∨ 20000000 < p)) :
    ∃ t, exec c s = .next t ∧ (getAx t x).sp.curveFault = true ∧ (getAx t x).sp.curveOn = false ∧
      Raised t 0x2602 (scopeOf x) 0xFF ∧ OnlyChanges ([Part.axisA, Part.axisB, Part.mbx] ++ signals) s t := by
  have he : exec c s = when_ s true (faultDuty s) := by
    rcases hcmd with rfl | ⟨p, h, rfl, hhigh, hlow, hp⟩
    · rfl
    · refine (execPwmCmdPeriod_invalid hp).trans ?_
      rw [hhigh, hlow]
      rfl
  obtain ⟨hfault, hoff, hraised⟩ := faultDuty_faults (takesDuty_of hr hu hi) hf
  refine ⟨_, he.trans (when_settles rfl (hc.of_actsDue (actsDue_faultDuty s))), ?_, ?_, settle_raised hraised,
    (faultDuty_onlyChanges s).trans ((settle_onlyChanges s _).mono (by decide))⟩
  · rw [getAx_settle, hfault]
  · rw [getAx_settle, hoff]

/-! ### The filtered value and its crossings (08 R196, Table 8.6) -/

theorem curveFilterValid_arms {s : State} {x : Axis} (hc : Calm s) (hs : (getAx s x).sp.curveSeen = true)
    (hv : (getAx s x).sp.curveValid = false) :
    ∃ t, exec (.curveFilterValid x) s = .next t ∧ (getAx t x).sp = { (getAx s x).sp with
        curveValid := true, curveArmed := flt (getAx s x).sp.curveX (curvePar s x Par.curveOn) } ∧ OnlyChanges [axPart x] s t := by
  have hg : ((getAx s x).sp.curveSeen && !(getAx s x).sp.curveValid) = true := by simp [hs, hv]
  have hf := onAx_onlyChanges s x fun a =>
    { a with sp.curveValid := true, sp.curveArmed := flt a.sp.curveX (curvePar s x Par.curveOn) }
  refine ⟨_, when_unmoved hg hc hf (by cases x <;> decide) (onAx_unmoved s x), ?_, hf⟩
  rw [getAx_onAx]

/-- A crossing acts: in READY, where the curve commands the axis, its value is valid and its input has no fault. -/
def crossingCounts (s : State) (x : Axis) : Bool :=
  isReady s && curveUsed s x && (getAx s x).sp.curveValid && !(getAx s x).sp.curveFault
/-- An upward crossing turns the curve on, with its value. -/
def turnOn (v : F32) (a : AxisSt) : AxisSt := { a with sp := { a.sp with curveX := v, curveOn := true, curveArmed := false } }
/-- A value below CURVE_ON arms the curve. -/
def armCurve (v : F32) (a : AxisSt) : AxisSt := { a with sp := { a.sp with curveX := v, curveArmed := true } }

theorem crossingCounts_of {s : State} {x : Axis} (hr : isReady s = true) (hu : curveUsed s x = true)
    (hv : (getAx s x).sp.curveValid = true) (hf : (getAx s x).sp.curveFault = false) : crossingCounts s x = true := by
  simp [crossingCounts, hr, hu, hv, hf]
@[simp] theorem onAx_onAx (s : State) (x : Axis) (f g : AxisSt → AxisSt) : onAx (onAx s x f) x g = onAx s x fun a => g (f a) := by
  cases x <;> rfl
theorem execCurveCrossing_on {s : State} {x : Axis} {v : F32} (hh : fle (curvePar s x Par.curveOn) v = true)
    (ho : (getAx s x).sp.curveOn = false) (ha : (getAx s x).sp.curveArmed = true) (hn : curvePar s x Par.curveAuto ≠ 1) :
    execCurveCrossing x v s = when_ s (crossingCounts s x) (onAx s x (turnOn v)) := by
  have hauto : (curvePar s x Par.curveAuto == 1) = false := by simpa using hn
  simp only [execCurveCrossing, hh, ho, ha, hauto, Bool.not_true, Bool.or_false, Bool.false_eq_true, ↓reduceIte, onAx_onAx]
  rfl
theorem execCurveCrossing_off {s : State} {x : Axis} {v : F32} (hh : fle (curvePar s x Par.curveOn) v = false)
    (hl : flt v (curvePar s x Par.curveOff) = true) (ho : (getAx s x).sp.curveOn = true) :
    execCurveCrossing x v s = when_ s (crossingCounts s x) (curveOffNow (onAx s x (armCurve v)) x) := by
  simp only [execCurveCrossing, hh, hl, ho, Bool.and_true, Bool.false_eq_true, ↓reduceIte, onAx_onAx]
  rfl

theorem curveCrossing_turnsOn {s : State} {x : Axis} {v : F32} (hc : Calm s) (hr : isReady s = true) (hu : curveUsed s x = true)
    (hv : (getAx s x).sp.curveValid = true) (hf : (getAx s x).sp.curveFault = false) (hh : fle (curvePar s x Par.curveOn) v = true)
    (ho : (getAx s x).sp.curveOn = false) (ha : (getAx s x).sp.curveArmed = true) (hn : curvePar s x Par.curveAuto ≠ 1) :
    ∃ t, exec (.curveCrossing x v) s = .next t ∧
      (getAx t x).sp = { (getAx s x).sp with curveX := v, curveOn := true, curveArmed := false } ∧
      (getAx t x).start = (getAx s x).start ∧ OnlyChanges [axPart x] s t := by
  have hframe := onAx_onlyChanges s x (turnOn v)
  have hm := onAx_unmoved (f := turnOn v) s x
  refine ⟨_, (execCurveCrossing_on hh ho ha hn).trans
    (when_unmoved (crossingCounts_of hr hu hv hf) hc hframe (by cases x <;> decide) hm), ?_, (hm x).2, hframe⟩
  rw [getAx_onAx]
  rfl

theorem curveCrossing_turnsOff {s : State} {x : Axis} {v : F32} (hc : Calm s) (hr : isReady s = true) (hu : curveUsed s x = true)
    (hv : (getAx s x).sp.curveValid = true) (hf : (getAx s x).sp.curveFault = false) (hh : fle (curvePar s x Par.curveOn) v = false)
    (hl : flt v (curvePar s x Par.curveOff) = true) (ho : (getAx s x).sp.curveOn = true) :
    ∃ t, exec (.curveCrossing x v) s = .next t ∧ (getAx t x).sp.curveOn = false ∧ (getAx t x).sp.curveX = v ∧
      (curvePar s x Par.curveAuto = 1 → (getAx s x).start.ax = .run → (getAx s x).pwm.switching = true →
        (getAx t x).start.ax = .stopping ∧ (getAx t x).start.stop = some .ramp) ∧
      OnlyChanges ([axPart x, .mbx] ++ signals) s t := by
  let u := onAx s x (armCurve v)
  have hx : getAx u x = armCurve v (getAx s x) := getAx_onAx s x _
  have hframe : OnlyChanges ([axPart x, .mbx] ++ signals) s (curveOffNow u x) :=
    .trans ((onAx_onlyChanges s x _).mono (by simp)) (curveOffNow_onlyChanges u x)
  have hoff : curveOf (getAx (curveOffNow u x) x) = (v, false) := by
    rw [curveOffNow_off, hx]
    rfl
  refine ⟨_, (execCurveCrossing_off hh hl ho).trans (when_settles (crossingCounts_of hr hu hv hf) (hc.of_actsDue (by simp))), ?_, ?_,
    fun hauto hrun hsw => ?_, hframe.trans ((settle_onlyChanges s _).mono (by cases x <;> decide))⟩
  · rw [getAx_settle]
    exact congrArg Prod.snd hoff
  · rw [getAx_settle]
    exact congrArg Prod.fst hoff
  · have hp : curvePar u x Par.curveAuto = curvePar s x Par.curveAuto := by
      have hst : (getAx u x).start = (getAx s x).start := by rw [hx]; rfl
      simp only [curvePar, storX, parX, storedAt, inForceAt, hst, u, onAx_par, onAx_inForce]
    have hs : curveStops u x = true := by
      have hon : (getAx u x).sp.curveOn = true := by rw [hx]; exact ho
      simp [curveStops, hon, hp, hauto]
    rw [getAx_settle]
    exact curveOffNow_ramps hs (by rw [hx]; exact hrun) (by rw [hx]; exact hsw)

/-- Settles O30: a period of PWM_CMD gives its duty to each axis that reads it, a bad or missing one faults each; the first valid value
arms the curve, a crossing turns it on, and one below CURVE_OFF turns it off, with its ramp stop under CURVE_AUTO. -/
theorem localCurve : Obligations.LocalCurve :=
  ⟨fun _ _ _ _ => pwmCmdPeriod_takes, fun _ _ _ => pwmCmd_faults, fun _ _ => curveFilterValid_arms,
    fun _ _ _ => curveCrossing_turnsOn, fun _ _ _ => curveCrossing_turnsOff⟩

end Sys2Proof.Machine
end

section
/-!
SUPPORT. Crest converges, is lost, stays at a clamp and disagrees with the sensor (09 R209 to R212, R216; 10 Tables 10.3, 10.4), and
the statement about it.
-/

namespace Sys2Proof.Machine
open Sys2Proof
set_option Elab.async false

/-! ### What a stop leaves of Crest (09 R209; 17 Table 17.4a) -/

@[simp] theorem setAx_crest (st : AxState) (a : AxisSt) : (setAx st a).crest = a.crest := by
  unfold setAx
  dsimp only
  split <;> rfl
@[simp] theorem disableAxis_crest (a : AxisSt) : (disableAxis a).crest = (gatesOff a).crest := setAx_crest _ _

/-- A stop leaves Crest as it is, or as gates that go off leave it. -/
theorem beginStop_crest (s : State) (x : Axis) (k : StopKind) : (getAx (beginStop s x k) x).crest = (getAx s x).crest ∨
    (getAx (beginStop s x k) x).crest = (gatesOff (getAx s x)).crest := by
  have hd : (getAx (onAx s x fun a => disableAxis (brakeOff a)) x).crest = (gatesOff (getAx s x)).crest := by
    rw [getAx_onAx]
    exact disableAxis_crest _
  have hr : (getAx (onAx s x fun a => { a with start.retryNext := false, start.failReason := 0 }) x).crest = (getAx s x).crest :=
    onAx_keeps AxisSt.crest s x x
  have stopping {f : AxisSt → AxisSt} (hf : ∀ a, (f a).crest = a.crest) :
      (getAx (onAx (onAx s x fun a => { a with start.retryNext := false, start.failReason := 0 }) x f) x).crest = (getAx s x).crest :=
    (onAx_keeps AxisSt.crest _ x x hf).trans hr
  unfold beginStop
  extract_lets a w
  split
  · exact .inl rfl
  · exact .inl rfl
  · exact .inr hd
  · exact .inr hd
  · exact .inr hd
  split
  · exact .inr hd
  left
  split
  · exact hr
  split
  · exact stopping fun a => setAx_crest .stopping (brakeOff a)
  split
  · exact stopping fun a => setAx_crest .stopping (brakeOff a)
  · exact stopping fun a => setAx_crest .stopping a
/-- The end of a motor measurement leaves Crest as it is, its identification status apart. -/
theorem endMotor_crest (s : State) (x : Axis) : (getAx (endMotor s x) x).crest = (getAx s x).crest ∨
    (getAx (endMotor s x) x).crest = { (getAx s x).crest with identStatus := 0x73 } := by
  unfold endMotor
  split
  · split
    · simp
    · exact .inl rfl
  · split <;> simp
  · exact .inl rfl
/-- What gates that go off and an identification that ends leave of Crest, a raise leaves of it. -/
theorem raise_crest_keeps {p : CrestSt → Prop} (hg : ∀ a : AxisSt, p a.crest → p (gatesOff a).crest)
    (hi : ∀ c : CrestSt, p c → p { c with identStatus := 0x73 }) {s : State} {x : Axis} (h : p (getAx s x).crest) (c : BitVec 16)
    (d : BitVec 8) (v : F32) (a : Bool) : p (getAx (raise s c (scopeOf x) d v a) x).crest := by
  have hr : p (getAx (record s c (scopeOf x) d v a) x).crest := by rwa [getAx_record]
  unfold raise
  rw [scopeAxes_scopeOf]
  dsimp only [List.foldl_cons, List.foldl_nil]
  split
  · have hb : ∀ k, p (getAx (beginStop (record s c (scopeOf x) d v a) x k) x).crest := fun k => by
      rcases beginStop_crest (record s c (scopeOf x) d v a) x k with e | e <;> rw [e]
      · exact hr
      · exact hg _ hr
    have hm : ∀ k, p (getAx (dropMotor (beginStop (record s c (scopeOf x) d v a) x k) x) x).crest := fun k => by
      rcases getAx_dropMotor (beginStop (record s c (scopeOf x) d v a) x k) x x with e | e <;> rw [e]
      · exact hb k
      · exact hg _ (hb k)
    rw [requestStop, abandonMotor]
    rcases endMotor_crest (dropMotor (beginStop (record s c (scopeOf x) d v a) x _) x) x with e | e <;> rw [e]
    · exact hm _
    · exact hi _ (hm _)
  · exact hr

/-! ### Convergence (09 R209, R211; 10 Tables 10.3, 10.4) -/

/-- With Crest as the angle source its first convergence starts the relative position (09 R211). -/
def startsPos (s : State) (x : Axis) : Bool := parX s x Par.crestMode == 1 && !(getAx s x).crest.posStarted
/-- Crest of an axis has converged. -/
def convergeCrest (s : State) (x : Axis) (a : AxisSt) : AxisSt :=
  { a with crest := { a.crest with
      conv := true, polarity := true, posStarted := (getAx s x).crest.posStarted || startsPos s x,
      pos := if startsPos s x then angleCounts s x (fval (getAx s x).crest.th) % 4294967296 else (getAx s x).crest.pos } }
/-- Convergence ends a start that waits for it: a catch or a saliency start whose gates stay on (10 Tables 10.3, 10.4). -/
def startAwaits (s : State) (x : Axis) : Bool :=
  parX s x Par.crestMode == 1 && (getAx s x).start.ax == .converge && (getAx s x).start.path != .align && !(getAx s x).start.gateOffNext
/-- The state once the flag is set and a start that waited has gone on. -/
def afterConvergence (s : State) (x : Axis) : State :=
  if startAwaits s x then startConverged (onAx s x (convergeCrest s x)) x else onAx s x (convergeCrest s x)
theorem execCrestConverged_converges {s : State} {x : Axis} (hs : (getAx s x).pwm.switching = true) (hc : (getAx s x).crest.conv = false)
    (hp : (getAx s x).crest.polarity = true ∨ openLoop (getAx s x) = true) (hm : parX s x Par.crestMode ≠ 0)
    (he : fle (fabs (getAx s x).crest.err) (fdeg (parX s x Par.crestConvErr)) = true) (hparts : partsMeet s x = true) :
    execCrestConverged x s = when_ s true (afterConvergence s x) :=
  congrArg (when_ s · (afterConvergence s x)) (by simpa [hs, hc, he, hparts] using And.intro hp (Or.inl hm))

theorem startConverged_onlyChanges (s : State) (x : Axis) : OnlyChanges [axPart x] s (startConverged s x) := onAx_onlyChanges s x _
@[simp] theorem actsDue_startConverged (s : State) (x : Axis) : actsDue (startConverged s x) = actsDue s := actsDue_onAx s x _
@[simp] theorem startConverged_crest (s : State) (x : Axis) : (getAx (startConverged s x) x).crest = (getAx s x).crest := by
  unfold startConverged
  rw [getAx_onAx]
  dsimp only
  split
  · exact setAx_crest .release _
  · exact setAx_crest .run _
theorem setAx_startAx (st : AxState) (a : AxisSt) : (setAx st a).start.ax = st := by
  unfold setAx
  dsimp only
  split <;> rfl
/-- A start that ends releases its brake, or accepts setpoints in RUN where no brake holds (10 Tables 10.3, 10.4). -/
theorem startConverged_goesOn (s : State) (x : Axis) :
    if parX s x Par.hbEn = 1 ∧ (getAx s x).stage.brake = .off then
      (getAx (startConverged s x) x).start.ax = .release ∧ (getAx (startConverged s x) x).stage.brake = .pull ∧
        (getAx (startConverged s x) x).stage.releaseWait = true
    else (getAx (startConverged s x) x).start.ax = .run ∧ (getAx (startConverged s x) x).sp.accepted = true := by
  unfold startConverged
  rw [getAx_onAx]
  split
  next h =>
    obtain ⟨hb, ho⟩ := h
    simp only [hb, ho]
    exact ⟨setAx_startAx .release _, rfl, rfl⟩
  next h =>
    rw [if_neg (by simpa using h)]
    exact ⟨setAx_startAx .run _, rfl⟩

theorem afterConvergence_onlyChanges (s : State) (x : Axis) : OnlyChanges [axPart x] s (afterConvergence s x) := by
  have h := onAx_onlyChanges s x (convergeCrest s x)
  unfold afterConvergence
  split
  · exact h.trans (startConverged_onlyChanges _ x)
  · exact h
theorem actsDue_afterConvergence (s : State) (x : Axis) : actsDue (afterConvergence s x) = actsDue s := by
  unfold afterConvergence
  split <;> simp
theorem afterConvergence_crest (s : State) (x : Axis) : (getAx (afterConvergence s x) x).crest = (convergeCrest s x (getAx s x)).crest := by
  unfold afterConvergence
  split <;> simp
theorem startAwaits_goesOn {s : State} {x : Axis} (h : startAwaits s x = true) :
    if parX s x Par.hbEn = 1 ∧ (getAx s x).stage.brake = .off then
      (getAx (afterConvergence s x) x).start.ax = .release ∧ (getAx (afterConvergence s x) x).stage.brake = .pull ∧
        (getAx (afterConvergence s x) x).stage.releaseWait = true
    else (getAx (afterConvergence s x) x).start.ax = .run ∧ (getAx (afterConvergence s x) x).sp.accepted = true := by
  have hx : (getAx (onAx s x (convergeCrest s x)) x).stage = (getAx s x).stage := by rw [getAx_onAx]; rfl
  have hp : parX (onAx s x (convergeCrest s x)) x Par.hbEn = parX s x Par.hbEn := by simp [parX, inForceAt]
  have hg := startConverged_goesOn (onAx s x (convergeCrest s x)) x
  rwa [hx, hp, ← show afterConvergence s x = _ from if_pos h] at hg

theorem crestConverged_converges {s : State} {x : Axis} (hc : Calm s) (hs : (getAx s x).pwm.switching = true)
    (hn : (getAx s x).crest.conv = false) (hp : (getAx s x).crest.polarity = true ∨ openLoop (getAx s x) = true)
    (hm : parX s x Par.crestMode ≠ 0) (he : fle (fabs (getAx s x).crest.err) (fdeg (parX s x Par.crestConvErr)) = true)
    (hparts : partsMeet s x = true) :
    ∃ t, exec (.crestConverged x) s = .next t ∧ (getAx t x).crest.conv = true ∧ (getAx t x).crest.polarity = true ∧
      (parX s x Par.crestMode = 1 → (getAx t x).crest.posStarted = true) ∧
      (parX s x Par.crestMode = 1 → (getAx s x).start.ax = .converge → (getAx s x).start.path ≠ .align →
        (getAx s x).start.gateOffNext = false →
        if parX s x Par.hbEn = 1 ∧ (getAx s x).stage.brake = .off then
          (getAx t x).start.ax = .release ∧ (getAx t x).stage.brake = .pull ∧ (getAx t x).stage.releaseWait = true
        else (getAx t x).start.ax = .run ∧ (getAx t x).sp.accepted = true) ∧
      (parX s x Par.crestMode ≠ 1 → (getAx t x).start = (getAx s x).start) ∧ OnlyChanges ([axPart x] ++ messages) s t := by
  have ht : Calm (afterConvergence s x) := hc.of_actsDue (actsDue_afterConvergence s x)
  refine ⟨_, (execCrestConverged_converges hs hn hp hm he hparts).trans (when_settles rfl ht), ?_⟩
  rw [getAx_settle, afterConvergence_crest]
  refine ⟨rfl, rfl, fun h => ?_, fun h hax hpath hgate => startAwaits_goesOn ?_, fun h => ?_, ?_⟩
  · cases hps : (getAx s x).crest.posStarted <;> simp [convergeCrest, startsPos, h, hps]
  · simp [startAwaits, h, hax, hpath, hgate]
  · rw [afterConvergence, if_neg (by simpa [startAwaits] using fun e => absurd e h), getAx_onAx]
    rfl
  · exact ((afterConvergence_onlyChanges s x).mono (by simp)).trans ((settle_onlyChanges s _).mono (by simp))

/-! ### Loss (09 R210) -/

/-- Crest of an axis is lost: its flag clears and the loss counts; a spin of identification has failed (Table 9.6). -/
def loseCrest (a : AxisSt) : AxisSt :=
  { a with crest := { a.crest with
      conv := false, polarity := false, lostCnt := a.crest.lostCnt + 1,
      ident := { a.crest.ident with spinFail := a.crest.ident.spinFail || identing a } } }
/-- A loss stops an axis that runs or stops on the angle of Crest. -/
def lossStops (s : State) (x : Axis) : Bool :=
  parX s x Par.crestMode == 1 && ((getAx s x).start.ax == .run || (getAx s x).start.ax == .stopping)
/-- The state after a loss. -/
def afterLoss (s : State) (x : Axis) : State :=
  if lossStops s x then raise0 (onAx s x loseCrest) 0x4701 (scopeOf x) noDetail else onAx s x loseCrest
theorem execCrestLoss_loses {s : State} {x : Axis} (hv : (getAx s x).crest.conv = true)
    (hm : parX s x Par.crestMode ≠ 0 ∨ identing (getAx s x) = true) (hl : lossSeen s x = true) :
    execCrestLoss x s = when_ s true (afterLoss s x) :=
  congrArg (when_ s · (afterLoss s x)) (by simpa [hv, hl] using hm)

/-- A raise for one axis after a change of that axis touches its part, a motor measurement's end and the signals. -/
theorem raise_onAx_onlyChanges (s : State) (x : Axis) (f : AxisSt → AxisSt) (c : BitVec 16) (d : BitVec 8) (v : F32) (a : Bool) :
    OnlyChanges ([axPart x, .mbx] ++ signals) s (raise (onAx s x f) c (scopeOf x) d v a) := by
  have hr := raise_onlyChanges (onAx s x f) c (scopeOf x) d v a
  rw [scopeAxes_scopeOf] at hr
  exact ((onAx_onlyChanges s x f).mono (by simp)).trans hr
theorem afterLoss_onlyChanges (s : State) (x : Axis) : OnlyChanges ([axPart x, .mbx] ++ signals) s (afterLoss s x) := by
  unfold afterLoss
  split
  · exact raise_onAx_onlyChanges s x loseCrest 0x4701 noDetail fnan false
  · exact (onAx_onlyChanges s x loseCrest).mono (by simp)
theorem actsDue_afterLoss (s : State) (x : Axis) : actsDue (afterLoss s x) = actsDue s := by
  unfold afterLoss
  split <;> simp [raise0]
/-- The gates a stop turns off count no second loss. -/
theorem afterLoss_counts (s : State) (x : Axis) :
    (getAx (afterLoss s x) x).crest.conv = false ∧ (getAx (afterLoss s x) x).crest.lostCnt = (getAx s x).crest.lostCnt + 1 := by
  have h : (getAx (onAx s x loseCrest) x).crest.conv = false ∧
      (getAx (onAx s x loseCrest) x).crest.lostCnt = (getAx s x).crest.lostCnt + 1 := by
    rw [getAx_onAx]
    exact ⟨rfl, rfl⟩
  unfold afterLoss
  split
  · exact raise_crest_keeps (p := fun c => c.conv = false ∧ c.lostCnt = (getAx s x).crest.lostCnt + 1)
      (fun a ha => ⟨rfl, by simp [gatesOff, ha]⟩) (fun _ hi => hi) h _ _ _ _
  · exact h
theorem afterLoss_raised {s : State} {x : Axis} (h : lossStops s x = true) : Raised (afterLoss s x) 0x4701 (scopeOf x) 0xFF := by
  rw [afterLoss, if_pos h]
  exact raise_raised _ _ _ _ _ _

theorem crestLoss_loses {s : State} {x : Axis} (hc : Calm s) (hv : (getAx s x).crest.conv = true)
    (hm : parX s x Par.crestMode ≠ 0 ∨ identing (getAx s x) = true) (hl : lossSeen s x = true) :
    ∃ t, exec (.crestLoss x) s = .next t ∧ (getAx t x).crest.conv = false ∧
      (getAx t x).crest.lostCnt = (getAx s x).crest.lostCnt + 1 ∧
      (parX s x Par.crestMode = 1 → ((getAx s x).start.ax = .run ∨ (getAx s x).start.ax = .stopping) → Raised t 0x4701 (scopeOf x) 0xFF) ∧
      OnlyChanges ([axPart x, .mbx] ++ signals) s t := by
  obtain ⟨hconv, hcnt⟩ := afterLoss_counts s x
  refine ⟨_, (execCrestLoss_loses hv hm hl).trans (when_settles rfl (hc.of_actsDue (actsDue_afterLoss s x))), ?_, ?_, fun h1 hax => ?_,
    (afterLoss_onlyChanges s x).trans ((settle_onlyChanges s _).mono (by cases x <;> decide))⟩
  · rwa [getAx_settle]
  · rwa [getAx_settle]
  · exact settle_raised (afterLoss_raised (by simpa [lossStops, h1] using hax))

/-! ### Estimates at a clamp (09 R212) -/

/-- The resistance or the flux estimate is marked as held at its clamp. -/
def markClamp (flux : Bool) (a : AxisSt) : AxisSt :=
  if flux then { a with crest := { a.crest with psiClamp := true } } else { a with crest := { a.crest with rsClamp := true } }
/-- The estimate stands at an end of its range, and has not been marked. -/
def clampNew (s : State) (x : Axis) (flux : Bool) : Prop :=
  if flux then atClamp (psiRange s x) (getAx s x).crest.psiEst = true ∧ (getAx s x).crest.psiClamp = false
  else atClamp (rsRange s x) (getAx s x).crest.rsEst = true ∧ (getAx s x).crest.rsClamp = false
theorem execCrestClampTimeout_warns {s : State} {x : Axis} {flux : Bool} (hm : parX s x Par.crestMode ≠ 0) (hn : clampNew s x flux) :
    execCrestClampTimeout x flux s = when_ s true (raise (onAx s x (markClamp flux)) (if flux then 0x2703 else 0x2702) (scopeOf x) noDetail
      (if flux then (getAx s x).crest.psiEst else (getAx s x).crest.rsEst) false) := by
  unfold clampNew at hn
  cases flux with
  | true =>
    obtain ⟨ha, hc⟩ := hn
    exact congrArg (when_ s · _) (by simpa [ha, hc] using hm)
  | false =>
    obtain ⟨ha, hc⟩ := hn
    exact congrArg (when_ s · _) (by simpa [ha, hc] using hm)

theorem crestClampTimeout_warns {s : State} {x : Axis} {flux : Bool} (hc : Calm s) (hm : parX s x Par.crestMode ≠ 0)
    (hn : clampNew s x flux) :
    ∃ t, exec (.crestClampTimeout x flux) s = .next t ∧ Raised t (if flux then 0x2703 else 0x2702) (scopeOf x) 0xFF ∧
      (if flux then (getAx t x).crest.psiClamp = true else (getAx t x).crest.rsClamp = true) ∧
      OnlyChanges ([axPart x] ++ signals) s t := by
  have hw : codeClass (if flux then 0x2703 else 0x2702) ≠ 4 := by cases flux <;> decide
  have hf : OnlyChanges ([axPart x] ++ signals) s _ := ((onAx_onlyChanges s x (markClamp flux)).mono (by simp)).trans
    ((raise_signals hw _ (scopeOf x) noDetail (if flux then (getAx s x).crest.psiEst else (getAx s x).crest.rsEst) false).mono (by simp))
  refine ⟨_, (execCrestClampTimeout_warns hm hn).trans (when_settles rfl (hc.of_actsDue (by simp))),
    settle_raised (raise_raised _ _ _ _ _ _), ?_, hf.trans ((settle_onlyChanges s _).mono (by cases x <;> decide))⟩
  rw [getAx_settle, raise_eq_record hw, getAx_record, getAx_onAx]
  cases flux <;> rfl

/-! ### The cross-check (09 R216) -/

/-- The cross-check of an axis fails, or holds again. -/
def markXchk (b : Bool) (a : AxisSt) : AxisSt := { a with crest := { a.crest with xchk := b } }
theorem execCrestXchkTimeout_fails {s : State} {x : Axis} (hm : parX s x Par.crestMode = 2) (hv : (getAx s x).crest.conv = true)
    (ho : (getAx s x).crest.xchkOver = true) (hx : (getAx s x).crest.xchk = false) : execCrestXchkTimeout x s =
      when_ s true (raise (onAx s x (markXchk true)) (if parX s x Par.crestXchkAct = 1 then 0x4703 else 0x2704) (scopeOf x) noDetail
        (ftodeg (getAx s x).crest.xchkD) (parX s x Par.crestXchkAct == 1)) := by
  have hg : (parX s x Par.crestMode == 2 && (getAx s x).crest.conv && (getAx s x).crest.xchkOver != (getAx s x).crest.xchk) = true := by
    simp [hm, hv, ho, hx]
  unfold execCrestXchkTimeout
  dsimp only
  rw [hg, ho]
  by_cases ha : parX s x Par.crestXchkAct = 1
  · rw [ha]
    rfl
  · rw [if_neg ha, beq_eq_false_iff_ne.mpr ha]
    rfl
theorem execCrestXchkTimeout_ends {s : State} {x : Axis} (hm : parX s x Par.crestMode = 2) (hv : (getAx s x).crest.conv = true)
    (ho : (getAx s x).crest.xchkOver = false) (hx : (getAx s x).crest.xchk = true) :
    execCrestXchkTimeout x s = when_ s true (endCause (onAx s x (markXchk false)) 0x4703 (scopeOf x) noDetail) := by
  have hg : (parX s x Par.crestMode == 2 && (getAx s x).crest.conv && (getAx s x).crest.xchkOver != (getAx s x).crest.xchk) = true := by
    simp [hm, hv, ho, hx]
  unfold execCrestXchkTimeout
  dsimp only
  rw [hg, ho]
  rfl

theorem crestXchkTimeout_raises {s : State} {x : Axis} (hc : Calm s) (hm : parX s x Par.crestMode = 2)
    (hv : (getAx s x).crest.conv = true) (ho : (getAx s x).crest.xchkOver = true) (hx : (getAx s x).crest.xchk = false) :
    ∃ t, exec (.crestXchkTimeout x) s = .next t ∧ (getAx t x).crest.xchk = true ∧
      Raised t (if parX s x Par.crestXchkAct = 1 then 0x4703 else 0x2704) (scopeOf x) 0xFF ∧
      OnlyChanges ([axPart x, .mbx] ++ signals) s t := by
  refine ⟨_, (execCrestXchkTimeout_fails hm hv ho hx).trans (when_settles rfl (hc.of_actsDue (by simp))), ?_,
    settle_raised (raise_raised _ _ _ _ _ _),
    (raise_onAx_onlyChanges s x _ _ _ _ _).trans ((settle_onlyChanges s _).mono (by cases x <;> decide))⟩
  rw [getAx_settle]
  exact raise_crest_keeps (p := fun c => c.xchk = true) (fun _ h => h) (fun _ h => h) (by rw [getAx_onAx]; rfl) _ _ _ _
theorem crestXchkTimeout_ends {s : State} {x : Axis} (hc : Calm s) (hm : parX s x Par.crestMode = 2)
    (hv : (getAx s x).crest.conv = true) (ho : (getAx s x).crest.xchkOver = false) (hx : (getAx s x).crest.xchk = true) :
    ∃ t, exec (.crestXchkTimeout x) s = .next t ∧ (getAx t x).crest.xchk = false ∧
      (∀ e ∈ t.flt.list, e.code = 0x4703 → e.scope = scopeOf x → e.detail = 0xFF → e.active = false) ∧
      OnlyChanges [axPart x, .flt] s t := by
  have hend := endCause_onlyChanges (c := 0x4703) (by decide) (onAx s x (markXchk false)) (scopeOf x) noDetail
  have hf : OnlyChanges [axPart x, .flt] s _ := ((onAx_onlyChanges s x (markXchk false)).mono (by simp)).trans (hend.mono (by simp))
  have hax : ∀ y, getAx (endCause (onAx s x (markXchk false)) 0x4703 (scopeOf x) noDetail) y = getAx (onAx s x (markXchk false)) y :=
    hend.getAx_both (by decide) (by decide)
  have hu := when_unmoved (c := true) rfl hc hf (by cases x <;> decide) fun y => by
    rw [hax]
    exact onAx_unmoved s x y
  refine ⟨_, (execCrestXchkTimeout_ends hm hv ho hx).trans hu, ?_, fun e he hcode hscope hdetail => ?_, hf⟩
  · rw [hax, getAx_onAx]
    rfl
  · exact endCause_inactive (by decide) _ (scopeOf x) noDetail e he (by simp [sameFault, hcode, hscope, hdetail, noDetail])

/-- Settles O25: convergence sets the flag and ends the start that waits for it, a loss clears it, counts once and stops a moving axis, an
estimate at its clamp warns, and a cross-check raises its code and ends its cause. -/
theorem crestConvergence : Obligations.CrestConvergence :=
  ⟨fun _ _ => crestConverged_converges, fun _ _ => crestLoss_loses, fun _ _ _ => crestClampTimeout_warns,
    fun _ _ => crestXchkTimeout_raises, fun _ _ => crestXchkTimeout_ends⟩

end Sys2Proof.Machine
end
